-- ==== Sys2Proof/Word.lean ====
section
/-!
DEFINITION. The word types of the SV-64A and their plainest arithmetic (spec/03, Table 3-1: little-endian
values of 8, 16, 32 and 64 bits).
-/
namespace Sys2Proof

/-- One byte. -/
abbrev Byte := BitVec 8
/-- A 32-bit word: a parcel of a clause, a binary32 bit pattern, a U32 object. -/
abbrev W32 := BitVec 32
/-- A 64-bit word: a scalar register, a global address. -/
abbrev W64 := BitVec 64
/-- An Ethernet MAC address. -/
abbrev Mac := BitVec 48

/-- Core number, 0 to 63. -/
abbrev CoreId := Fin 64
/-- Partition number, P0 to P15. -/
abbrev PartId := Fin 16
/-- Control-core number, 0 to 15. -/
abbrev CtlId := Fin 16
/-- Thread number as SNAP_THREAD and WAIT_GRAPH count them (R649, Table 18-6): 0 to 63 the clause-ring thread of a
core, 64 + k the thread of control core k. -/
abbrev ThreadId := Fin 80
/-- Filver port, port_0 to port_7. -/
abbrev PortId := Fin 8
/-- Accumulator Tap channel. -/
abbrev ChanId := Fin 4
/-- Supply monitor of Table 20-5. -/
abbrev MonId := Fin 8
/-- Thermal sensor of Table 20-8. -/
abbrev SensorId := Fin 12
/-- A line of the 17-line grid, and the ring of a port direction that is assigned to it (R507, R509). -/
abbrev LineId := Fin 17
/-- A cluster of eight cores. -/
abbrev ClusterId := Fin 8
/-- A scalar register s0 to s63. -/
abbrev SReg := Fin 64
/-- A predicate register p0 to p7. -/
abbrev PReg := Fin 8
/-- A memo register m0 to m15. -/
abbrev MReg := Fin 16

end Sys2Proof
end

