-- ==== Sys2Proof/Syntax.lean ====
section
/-!
DEFINITION. The commands of the SV-64A and the data they carry.

The spec's table of operations and events gives each row a name and no operand fields, so what a command carries is
read from the rule it cites: who sent a request, the object it names, the values that arrive at a pin or a bus, and
the analog readings that the spec leaves to the world (meters, sensors, pilots, receiver trims). notes/assumptions/2.md.
-/
namespace Sys2Proof

/-- The three transports that carry Rhotre (Table 3-2), in the source order of event class 9. -/
inductive Transport where
  | mbox
  | i3c
  | t1s
  deriving DecidableEq, Repr

/-- A requester (spec/03, Execution): one source MAC on 10BASE-T1S, the I3C controller, or the host. `mac` is 0 on
the other two transports. -/
structure Requester where
  via : Transport
  mac : Mac
  deriving DecidableEq, Repr

/-- Who sent a request, and its transaction number (Table 3-4, TXN). -/
structure Head where
  req : Requester
  txn : Byte
  deriving DecidableEq, Repr

/-- An object's name, index:sub. -/
structure ObjRef where
  idx : BitVec 16
  sub : Byte
  deriving DecidableEq, Repr

/-- What a 10BASE-T1S frame shows beside its PDU (R55, R58). -/
structure Frame where
  src : Mac
  dst : Mac
  etherType : BitVec 16
  fcsOk : Bool
  deriving DecidableEq, Repr

/-- The rail enables and their power-goods (Table 20-3). -/
inductive RailEn where
  | sram
  | core
  | deep
  | pho
  deriving DecidableEq, Repr

/-- What a read finds in one protected word (R222, R223). -/
inductive Finding where
  | clean
  | single
  | double
  deriving DecidableEq, Repr

/-- The units whose background work can fall overdue (Tables 6-6, 15-7 and 17-3). -/
inductive BgUnit where
  | nearBank (b : Fin 64)
  | deepRefresh (ch : Fin 16)
  | deepScrub (ch : Fin 16)
  deriving DecidableEq, Repr

/-- A commit of the oldest output tile of a core, and how many requests wait for it meanwhile (R203). -/
structure Commit where
  core : CoreId
  waiting : Nat
  deriving DecidableEq, Repr

/-- What a search or a relock of one ring finds (R521, R522, R526, R528): the line it met, or none, and the heater
code it rests on. -/
structure RingFind where
  line : Option LineId
  code : BitVec 16
  deriving DecidableEq, Repr

/-- What the meters hold at a planner tick (R162, R163, R176): base energy of the period in pJ, the power of each
cluster and of the device over the period in mW, and the cycles in which any core of each partition ran a verb. -/
structure Meters where
  basePj : Nat
  clusterMw : List Nat
  baseMw : Nat
  partCycles : List Nat
  sensors : List W32
  deriving DecidableEq, Repr

/-- One burst as it ends (R489, R491, R498): its data in row order as 32-bit accumulator patterns, whether its beats
and TAP_LAST were right, whether every word passed its check, and how many words were corrected. -/
structure TapBurst where
  data : List W32
  beatsOk : Bool
  checkOk : Bool
  corrected : Nat
  deriving DecidableEq, Repr

/-- A response of the laser module (Table 15-4), reduced to what the device reads of it. -/
structure ModResp where
  txn : Byte
  status : Byte
  data : List Byte
  deriving DecidableEq, Repr

/-- A TRAIN message of the far end (R552). -/
structure TrainMsg where
  device : BitVec 12
  port : PortId
  sizeX : Byte
  sizeY : Byte
  sizeZ : Byte
  express : Byte
  slotMap : List (Fin 17)
  sessionKept : Bool
  deriving DecidableEq, Repr

/-- A remote message of Table 16-5, with the header fields of Table 16-2. `aux` holds bytes 24 to 47. -/
structure Msg where
  type : Byte
  len : Byte
  srcDev : BitVec 12
  srcPart : PartId
  dest : BitVec 12
  tag : BitVec 16
  addr : W64
  aux : BitVec 192
  data : List Byte
  tileLast : Bool
  deriving DecidableEq, Repr

/-- What an input step measures (R587, R591): whether the column verified, the new offsets of the shifters it
adjusted, and the largest error as binary32. -/
structure StepResult where
  verified : Bool
  offsets : List (Nat × BitVec 16)
  err : W32
  deriving DecidableEq, Repr

/-- A partition fault as it is raised (Tables 19-2 and 19-3). -/
structure FaultInfo where
  kind : Fin 5
  cause : Byte
  unit : Fin 64
  control : Bool
  ticket : W64
  addr : W64
  deriving DecidableEq, Repr

/-- An event of the classes of Table 2-2 that reaches the device through a latch of Table 2-1. -/
inductive Event where
  | supplyReset (m : MonId)
  | supplyWarning (m : MonId)
  | thermalTrip (n : SensorId)
  | rstN
  | identityError (id : Fin 8) (inst sub : Byte)
  | dataError (addr : W64)
  | doorbell (reg : Fin 96) (v : W32)
  | wakeN
  | mislock (q : PortId) (rx : Bool) (k line : LineId)
  | fade (mesh : Bool) (line : LineId) (loss : Nat)
  deriving DecidableEq, Repr

/-- What stands at the pins and the analog front end at a tick boundary: events whose latch was set since the last
boundary, in arrival order; how many became stable within 20 ns of it and wait for the next (R34); the rail
voltages in mV, the power-good pins of SRAM, CORE, DEEP and PHO, the sensor temperatures as binary32, WAKE_N asserted,
the tap's wake pin, the meters, read in a planner tick, and the store words whose cells errors have struck since the last
boundary, each with whether the error is beyond correction. -/
structure TickInputs where
  arr : List Event
  late : Nat
  mv : List Nat
  pg : BitVec 4
  temps : List W32
  wakeN : Bool
  tapWake : Bool
  meters : Meters
  upsets : List (Nat × Bool)
  deriving DecidableEq, Repr

/-- The commands of the SV-64A: one constructor for each row of spec/opcode_table.json, in its order. -/
inductive Instr where
  /-- TICK_BOUNDARY (R33): At each tick boundary the device reads every event latch and applies the sampled events in class order. -/
  | tickBoundary (i : TickInputs)
  /-- TICK_LOCK (R27): The tick oscillator first achieves lock after power-up; this tick is tick 0 and TICK_LOCK reads 0. -/
  | tickLock
  /-- HOLDOVER_ENTRY (R31): After 128 tk with no crystal edge the device enters holdover, counts the loss and logs a crystal-loss record. -/
  | holdoverEntry
  /-- TICK_RELOCK (R32): Relock after crystal edges return completes; the period was slewed, not stepped, and TICK_LOCK is set to 0. -/
  | tickRelock
  /-- ALWAYS_ON_POWER_ON (R144): VDD_AON reaches its power-on level; the device releases the always-on island, loads defaults, samples straps and enters Cold. -/
  | alwaysOnPowerOn (node : BitVec 3) (sled : Bool)
  /-- ALWAYS_ON_LOSS (R661): VDD_AON falls below 0.66 V; the device is Off and drives every rail enable L within 1 µs. -/
  | alwaysOnLoss
  /-- SUPPLY_WARNING (R126): A supply warning is sampled; from Listen, Brisk, Full or a wake the device enters Brace and halves its clocks. -/
  | supplyWarning (m : MonId)
  /-- SUPPLY_RESET_LEVEL (R139): A supply reset level is sampled; the core domain resets and the device enters Hush. -/
  | supplyResetLevel (m : MonId)
  /-- POWER_GOOD_TIMEOUT (R659): A power-good has not risen within twice its bound and is treated as the reset level of its rail's monitor. -/
  | powerGoodTimeout (r : RailEn)
  /-- POWER_GOOD_FALL (R659): A power-good falls while its enable is H and is treated as the reset level of its rail's monitor. -/
  | powerGoodFall (r : RailEn)
  /-- THERMAL_TRIP (R135): A thermal trip is sampled; the device drives THERMTRIP_N L and enters Quiesce with target Dormant. -/
  | thermalTrip (n : SensorId)
  /-- THERMAL_TRIP_CLEAR (R674): Every sensor has stood 5 °C below its trip level for 1,024 tk; the trip stops being sampled. -/
  | thermalTripClear
  /-- RST_N (R141): An assertion of RST_N is sampled; the core domain is held in reset and the device stays in Hush. -/
  | rstN
  /-- WAKE_N (R105): A WAKE_N assertion is sampled and starts a wake towards WAKE_TARGET. -/
  | wakeN
  /-- CORE_DOMAIN_RESET (R139): RESET_COMMAND 1 resets the core domain and enters Hush, keeping the dictionary, the ledger and the event log. -/
  | coreDomainReset (h : Head)
  /-- CONFIGURATION_RESET (R142): RESET_COMMAND 2 reloads defaults except the kept objects, zeroes the ledger and enters Cold. -/
  | configurationReset (h : Head)
  /-- ENTER_FAULT (R136): An uncorrectable error in protected state or a failed audit puts the device in Fault with the broken identity logged. -/
  | enterFault (id : Fin 8) (inst sub : Byte)
  /-- MOOD_REQUEST (R108): A write of MOOD_REQUEST is checked and, when accepted, starts the transition to the requested mood. -/
  | moodRequest (h : Head) (v : Byte)
  /-- FLOOR_CEILING_REQUEST (R110): A request implied by a new floor or ceiling and held by the swap is acted on in the first tick that accepts it. -/
  | floorCeilingRequest
  /-- WAKE_PHASE_COMPLETE (R112): A wake phase completes; the next phase starts, or the mood is entered after the last one. -/
  | wakePhaseComplete
  /-- CLUSTER_CLOCK_STOP (R115): After 64 tk without a verb queued or running, a powered cluster's clock stops. -/
  | clusterClockStop (c : ClusterId)
  /-- IDLE_LINGER (R118): The linger timer expires and the device moves one mood step down. -/
  | idleLinger
  /-- QUIESCE_STEP_COMPLETE (R132): A Quiesce step completes; the next step starts, or the target mood is entered after step 5. -/
  | quiesceStepComplete
  /-- BRACE_EXIT (R129): The Brace exit timer fires after 64 good ticks; clock points are restored and the device returns to RETURN_MOOD. -/
  | braceExit
  /-- BRACE_LIMIT (R130): The Brace limit timer fires after 4,096 tk in Brace; the device enters Quiesce with target Dormant. -/
  | braceLimit
  /-- DEPOSIT (R150): A DEPOSIT write adds energy to the device pool and to TOTAL_DEPOSITS. -/
  | deposit (h : Head) (v : W64)
  /-- GRANT (R151): A GRANT write moves energy between the pool and a sub-ledger, or is refused whole. -/
  | grant (h : Head) (p : PartId) (v : W64)
  /-- PLANNER (R175): The planner tick runs the base charge and automatic grants and, in Brisk and Full, chooses clock points. -/
  | planner (m : Meters)
  /-- BATTERY_FEED_WRITE (R169): A write of a battery object is applied in class 7 and refreshes BATTERY_TICK. -/
  | batteryFeedWrite (h : Head) (sub : Fin 4) (v : W32)
  /-- BATTERY_STALE (R169): The battery feed becomes stale; BATTERY_STALE is set and a record is written. -/
  | batteryStale
  /-- ENERGY_WAIT_END (R158): A verb in energy wait is admitted once R157 holds, and its reservation is made. -/
  | energyWaitEnd (p : PartId)
  /-- PDU_RECEIVE (R75): A Rhotre PDU arrives on a transport and enters that transport's receive buffer, or is dropped when the buffer is full. -/
  | pduReceive (t : Transport) (f : Frame) (pdu : List Byte)
  /-- READ (R52): A READ request returns the value of an object, the active copy for a set object. -/
  | read (h : Head) (o : ObjRef)
  /-- WRITE (R53): A WRITE request sets an object that has no row of its own, or the shadow copy of a set object. -/
  | write (h : Head) (o : ObjRef) (data : List Byte)
  /-- READ_SHADOW (R52): A READ_SHADOW request returns the shadow copy of an object. -/
  | readShadow (h : Head) (o : ObjRef)
  /-- DESCRIBE (R72): A DESCRIBE request returns an object's type, access, set flag, maximum size and default. -/
  | describe (h : Head) (o : ObjRef)
  /-- SEG_READ_INIT (R85): SEG_READ_INIT opens a segmented read and captures the object when it is captured. -/
  | segReadInit (h : Head) (o : ObjRef)
  /-- SEG_WRITE_INIT (R87): SEG_WRITE_INIT opens a segmented write of the given total size. -/
  | segWriteInit (h : Head) (o : ObjRef) (total : W32)
  /-- SEG_DATA (R83): SEG_DATA carries one segment of an open transfer; the last segment of a write changes the object whole. -/
  | segData (h : Head) (o : ObjRef) (num : BitVec 16) (data : List Byte)
  /-- SEG_ABORT (R82): SEG_ABORT closes the requester's open segmented transfer and leaves a written object unchanged. -/
  | segAbort (h : Head) (o : ObjRef)
  /-- ECHO (R72): An ECHO request returns its data bytes unchanged. -/
  | echo (h : Head) (o : ObjRef) (data : List Byte)
  /-- UNKNOWN_OP (R72): A request with an OP absent from Table 3-5, or a NOTIFY, is answered BAD_OP. -/
  | unknownOp (h : Head) (op : Byte) (o : ObjRef) (data : List Byte)
  /-- DUPLICATE_RECORD_EXPIRY (R80): A kept request record expires 1,024 tk after its request. -/
  | duplicateRecordExpiry
  /-- SEG_TIMEOUT (R82): A segmented transfer closes after 4,096 tk without a SEG_DATA and is counted. -/
  | segTimeout (t : Transport)
  /-- NOTIFY_HANDOVER (R91): A queued notification is handed to the selected transport once that transport is reachable. -/
  | notifyHandover
  /-- NOTIFY_TRANSPORT_WRITE (R88): A write of NOTIFY_TRANSPORT redirects queued notifications; a write of 0 discards them. -/
  | notifyTransportWrite (h : Head) (v : Byte)
  /-- I3C_PRIVATE_READ (R59): An I3C private read returns the oldest pending response or notification, or is NACKed. -/
  | i3cPrivateRead (taken : Nat)
  /-- ENEC (R54): CCC ENEC enables target events such as in-band interrupts. -/
  | enec
  /-- DISEC (R54): CCC DISEC disables target events. -/
  | disec
  /-- RSTDAA (R54): CCC RSTDAA clears the dynamic address. -/
  | rstdaa
  /-- ENTDAA (R62): CCC ENTDAA assigns a dynamic address, during which the device sends its provisional ID. -/
  | entdaa (dyn : BitVec 7)
  /-- SETDASA (R54): CCC SETDASA assigns a dynamic address from the static address. -/
  | setdasa (static dyn : BitVec 7)
  /-- GETPID (R62): CCC GETPID returns the 48-bit provisional ID. -/
  | getpid
  /-- GETBCR (R62): CCC GETBCR returns BCR 0x06. -/
  | getbcr
  /-- GETDCR (R62): CCC GETDCR returns DCR 0x00. -/
  | getdcr
  /-- GETSTATUS (R54): CCC GETSTATUS returns the target status. -/
  | getstatus
  /-- GETMXDS (R54): CCC GETMXDS returns the maximum data speed. -/
  | getmxds
  /-- SETMWL (R62): CCC SETMWL sets the maximum write length, NACKed below 256. -/
  | setmwl (n : BitVec 16)
  /-- GETMWL (R62): CCC GETMWL returns the maximum write length. -/
  | getmwl
  /-- SETMRL (R62): CCC SETMRL sets the maximum read length, NACKed below 256. -/
  | setmrl (n : BitVec 16)
  /-- GETMRL (R62): CCC GETMRL returns the maximum read length. -/
  | getmrl
  /-- RSTACT (R63): CCC RSTACT selects whether the next target reset pattern resets the I3C transport. -/
  | rstact (a : Byte)
  /-- TARGET_RESET_PATTERN (R63): A target reset pattern resets the I3C transport when selected, clearing its address, buffer and pending responses. -/
  | targetResetPattern
  /-- REQ_GO (R64): A write of REQ_GO submits MBOX_REQ into the mailbox receive buffer, or is ignored while REQ_BUSY is 1. -/
  | reqGo (buf : List Byte)
  /-- RSP_READY_CLEAR (R66): Clearing RSP_READY lets the device write the next response to MBOX_RSP. -/
  | rspReadyClear
  /-- NTF_READY_CLEAR (R66): Clearing NTF_READY lets the device write the next notification to MBOX_NTF. -/
  | ntfReadyClear
  /-- MAILBOX_RESTORE (R694): When the mailbox is reachable again, a kept response and a kept notification are rewritten with their flags and MSI-X. -/
  | mailboxRestore
  /-- SWAP_REQUEST (R92): SWAP_REQUEST validates the shadow set and, when it passes, holds the affected units with the swap pending. -/
  | swapRequest (h : Head)
  /-- SWAP_TAKES_EFFECT (R94): At the first boundary with every affected unit ready, the two sets are swapped and the held units released. -/
  | swapTakesEffect
  /-- SWAP_FORCE (R95): At the swap deadline the swap is forced and verbs on affected cores are preempted. -/
  | swapForce
  /-- SHADOW_REVERT (R73): A write of SHADOW_REVERT copies the active set into the shadow set, unless a swap is pending. -/
  | shadowRevert (h : Head)
  /-- BAR2_READ (R193): A BAR2 read of the local offset is performed, or completes with Unsupported Request on an unmapped offset. -/
  | bar2Read (off : BitVec 36) (len : Nat)
  /-- BAR2_WRITE (R193): A BAR2 write to the local offset is performed, subject to commit waits and write guards. -/
  | bar2Write (off : BitVec 36) (data : List Byte)
  /-- FETCHADD (R219): A PCIe AtomicOp FetchAdd through BAR2 is performed as ADD. -/
  | fetchadd (off : BitVec 36) (w64 : Bool) (v : W64)
  /-- ATOMICOP_SWAP (R219): A PCIe AtomicOp Swap through BAR2 is performed as SWAP. -/
  | atomicopSwap (off : BitVec 36) (w64 : Bool) (v : W64)
  /-- ATOMICOP_CAS (R219): A 32- or 64-bit PCIe AtomicOp CAS through BAR2 is performed as CAS. -/
  | atomicopCas (off : BitVec 36) (w64 : Bool) (cmp new : W64)
  /-- CAS_128 (R220): A 128-bit PCIe CAS through BAR2 completes with Unsupported Request. -/
  | cas128 (off : BitVec 36)
  /-- BAR2_COUNTER_READ (R358): A 4-byte BAR2 read of a conjunction counter returns its value. -/
  | bar2CounterRead (i : BitVec 17)
  /-- BAR2_COUNTER_SIGNAL (R358): A 4-byte BAR2 write to a counter is a signal of the written value. -/
  | bar2CounterSignal (i : BitVec 17) (v : W32)
  /-- TILE_COMMIT (R202): An output tile in the write buffer commits to the store as one step. -/
  | tileCommit (c : Commit)
  /-- SCRUB_DUE (R226): A line falls due for scrub and a background scrub request is made. -/
  | scrubDue (deep : Bool) (found : Finding)
  /-- REFRESH_DUE (R227): Deep-tier refresh falls due every 4 tk and claims a command slot. -/
  | refreshDue (ch : Fin 16)
  /-- BACKGROUND_OVERDUE (R227): A background request reaches its deferral deadline and claims one slot in N. -/
  | backgroundOverdue (u : BgUnit)
  /-- DEEP_SELF_REFRESH (R197): A deep channel left unaccessed for 64 tk in Listen enters self-refresh. -/
  | deepSelfRefresh (ch : Fin 16)
  /-- PEEK_DATA (R233): A READ of PEEK_DATA captures PEEK_LENGTH bytes at PEEK_ADDRESS in one step and records poison. -/
  | peekData (h : Head) (seg : Bool)
  /-- POKE_DATA (R235): A completed POKE_DATA write stores its bytes at PEEK_ADDRESS in one atomic step. -/
  | pokeData (h : Head) (data : List Byte)
  /-- PART_RESET (R252): A PART_RESET write starts a partition reset, or merges into one in progress. -/
  | partReset (h : Head) (p : PartId)
  /-- PART_RESET_COMPLETE (R253): The partition reset completes with Table 7-3 effects; PART_STATE becomes 1. -/
  | partResetComplete (p : PartId)
  /-- FEED_DOORBELL (R324): A FEED_DOORBELL write sets the feed ring's tail when in range, or is rejected or discarded. -/
  | feedDoorbell (p : PartId) (v : W32)
  /-- RING_DOORBELL (R324): A RING_DOORBELL write sets a clause ring's tail when in range, or is rejected or discarded. -/
  | ringDoorbell (c : CoreId) (v : W32)
  /-- COMPL_DOORBELL (R326): A COMPL_DOORBELL write advances CONSUMED and frees completion entries, or is rejected. -/
  | complDoorbell (p : PartId) (v : W32)
  /-- DOORBELL_BAD_SIZE (R320): A doorbell offset receiving a write other than 4 bytes discards it and logs a record. -/
  | doorbellBadSize (r : Fin 96) (size : Nat) (v : W64)
  /-- CLAUSE_FETCH (R293): A thread fetches the next clause from its ring once the tail and fetch depth permit. -/
  | clauseFetch (t : ThreadId)
  /-- CLAUSE_EXECUTE (R286): A thread decodes a clause, executes its slots in order and retires it. -/
  | clauseExecute (t : ThreadId)
  /-- WAIT_GE (R352): The conjunction op WAIT_GE makes the thread wait until the counter is at least the value. -/
  | waitGe (t : ThreadId) (ref : W64) (v : W32)
  /-- WAIT_SATISFIED (R352): A signal satisfies a waiting WAIT_GE and the thread resumes. -/
  | waitSatisfied (t : ThreadId)
  /-- SIGNAL_AT_RETIRE (R290): The conjunction op SIGNAL_AT_RETIRE is applied once at step 5 of the later pushed verb, or at step 6 when none was pushed. -/
  | signalAtRetire (t : ThreadId) (ref : W64) (v : W32)
  /-- SIGNAL_NOW (R355): The conjunction op SIGNAL_NOW signals once the thread's earlier stores and atomics are performed. -/
  | signalNow (t : ThreadId) (ref : W64) (v : W32)
  /-- VERB_PUSH (R289): A verb slot is pushed to its target engine queue, waits for room, or is rejected as a TRY push. -/
  | verbPush (t : ThreadId) (second : Bool) (slot : BitVec 128) (adv : W32) (imm : Option W64)
  /-- PUSH_RESUME (R289): A push waiting for room is accepted once the engine queue has room. -/
  | pushResume (t : ThreadId)
  /-- ADDRESS_STREAM_PUSH (R283): An address-stream op is pushed as one entry of the target core's engine queue. -/
  | addressStreamPush (t : ThreadId) (slot : W64)
  /-- MEMO_WAIT_END (R291): An instruction waiting on a pending memo continues when the count reaches zero. -/
  | memoWaitEnd (t : ThreadId)
  /-- FENCE_RELEASE (R301): A fence completes once every verb and address-stream op of the thread has retired or been abandoned. -/
  | fenceRelease (t : ThreadId)
  /-- INSN_ADD (R301): add: sd = sa + sb. -/
  | insnAdd (t : ThreadId) (d a b : SReg)
  /-- INSN_SUB (R301): sub: sd = sa − sb. -/
  | insnSub (t : ThreadId) (d a b : SReg)
  /-- AND (R301): and: sd = sa AND sb. -/
  | insnAnd (t : ThreadId) (d a b : SReg)
  /-- OR (R301): or: sd = sa OR sb. -/
  | insnOr (t : ThreadId) (d a b : SReg)
  /-- XOR (R301): xor: sd = sa XOR sb. -/
  | insnXor (t : ThreadId) (d a b : SReg)
  /-- SHL (R301): shl: sd = sa shifted left by sb[5:0]. -/
  | insnShl (t : ThreadId) (d a b : SReg)
  /-- SHR (R301): shr: sd = sa shifted right logically by sb[5:0]. -/
  | insnShr (t : ThreadId) (d a b : SReg)
  /-- SRA (R301): sra: sd = sa shifted right arithmetically by sb[5:0]. -/
  | insnSra (t : ThreadId) (d a b : SReg)
  /-- INSN_MUL (R301): mul: sd = low 64 bits of sa × sb. -/
  | insnMul (t : ThreadId) (d a b : SReg)
  /-- MULH (R301): mulh: sd = signed high 64 bits of sa × sb. -/
  | insnMulh (t : ThreadId) (d a b : SReg)
  /-- INSN_MIN (R301): min: sd = signed minimum of sa and sb. -/
  | insnMin (t : ThreadId) (d a b : SReg)
  /-- INSN_MAX (R301): max: sd = signed maximum of sa and sb. -/
  | insnMax (t : ThreadId) (d a b : SReg)
  /-- MINU (R301): minu: sd = unsigned minimum of sa and sb. -/
  | insnMinu (t : ThreadId) (d a b : SReg)
  /-- MAXU (R301): maxu: sd = unsigned maximum of sa and sb. -/
  | insnMaxu (t : ThreadId) (d a b : SReg)
  /-- ADDI (R301): addi: sd = sa + sign-extended imm14. -/
  | insnAddi (t : ThreadId) (d a : SReg) (imm : BitVec 14)
  /-- ANDI (R301): andi: sd = sa AND sign-extended imm14. -/
  | insnAndi (t : ThreadId) (d a : SReg) (imm : BitVec 14)
  /-- ORI (R301): ori: sd = sa OR sign-extended imm14. -/
  | insnOri (t : ThreadId) (d a : SReg) (imm : BitVec 14)
  /-- XORI (R301): xori: sd = sa XOR sign-extended imm14. -/
  | insnXori (t : ThreadId) (d a : SReg) (imm : BitVec 14)
  /-- SHLI (R301): shli: sd = sa shifted left by imm14[5:0]. -/
  | insnShli (t : ThreadId) (d a : SReg) (sh : BitVec 6)
  /-- SHRI (R301): shri: sd = sa shifted right logically by imm14[5:0]. -/
  | insnShri (t : ThreadId) (d a : SReg) (sh : BitVec 6)
  /-- SRAI (R301): srai: sd = sa shifted right arithmetically by imm14[5:0]. -/
  | insnSrai (t : ThreadId) (d a : SReg) (sh : BitVec 6)
  /-- LIMM (R301): limm: sd = the clause's immediate slot. -/
  | insnLimm (t : ThreadId) (d : SReg) (imm : W64)
  /-- FADD (R301): fadd: binary32 sum of sa and sb. -/
  | insnFadd (t : ThreadId) (d a b : SReg)
  /-- FSUB (R301): fsub: binary32 difference of sa and sb. -/
  | insnFsub (t : ThreadId) (d a b : SReg)
  /-- FMUL (R301): fmul: binary32 product of sa and sb. -/
  | insnFmul (t : ThreadId) (d a b : SReg)
  /-- FDIV (R301): fdiv: binary32 quotient of sa and sb. -/
  | insnFdiv (t : ThreadId) (d a b : SReg)
  /-- FSQRT (R301): fsqrt: binary32 square root of sa. -/
  | insnFsqrt (t : ThreadId) (d a : SReg)
  /-- FMIN (R301): fmin: binary32 minimum of sa and sb. -/
  | insnFmin (t : ThreadId) (d a b : SReg)
  /-- FMAX (R301): fmax: binary32 maximum of sa and sb. -/
  | insnFmax (t : ThreadId) (d a b : SReg)
  /-- FCVTIF (R301): fcvtif: converts signed 64-bit sa to binary32. -/
  | insnFcvtif (t : ThreadId) (d a : SReg)
  /-- FCVTFI (R301): fcvtfi: converts binary32 to signed 64-bit, toward zero, saturating. -/
  | insnFcvtfi (t : ThreadId) (d a : SReg)
  /-- CMP (R301): cmp: pd = sa cc sb. -/
  | insnCmp (t : ThreadId) (pd : PReg) (cc : Fin 8) (a b : SReg)
  /-- CMPI (R301): cmpi: pd = sa cc sign-extended imm14. -/
  | insnCmpi (t : ThreadId) (pd : PReg) (cc : Fin 6) (a : SReg) (imm : BitVec 14)
  /-- PAND (R301): pand: pd = pa AND pb. -/
  | insnPand (t : ThreadId) (d a b : PReg)
  /-- POR (R301): por: pd = pa OR pb. -/
  | insnPor (t : ThreadId) (d a b : PReg)
  /-- PXOR (R301): pxor: pd = pa XOR pb. -/
  | insnPxor (t : ThreadId) (d a b : PReg)
  /-- PANDN (R301): pandn: pd = pa AND NOT pb. -/
  | insnPandn (t : ThreadId) (d a b : PReg)
  /-- SEL (R301): sel: sd = p ? sa : sb. -/
  | insnSel (t : ThreadId) (d a b : SReg) (p : PReg)
  /-- LDP (R302): ldp: 64-bit load from private data memory. -/
  | insnLdp (t : ThreadId) (d a : SReg) (imm : BitVec 14)
  /-- STP (R302): stp: 64-bit store to private data memory. -/
  | insnStp (t : ThreadId) (d a : SReg) (imm : BitVec 14)
  /-- LDG (R303): ldg: 64-bit load from a global address through the windows. -/
  | insnLdg (t : ThreadId) (d a : SReg) (imm : BitVec 14)
  /-- STG (R303): stg: 64-bit store to a global address through the windows. -/
  | insnStg (t : ThreadId) (d a : SReg) (imm : BitVec 14)
  /-- ATOM_ADD (R215): atom with code ADD: wrapping add at the word, returning the old value. -/
  | insnAtomAdd (t : ThreadId) (d a b : SReg) (w64 : Bool)
  /-- ATOM_FADD (R218): atom with code FADD: binary32 add at the word, returning the old value. -/
  | insnAtomFadd (t : ThreadId) (d a b : SReg)
  /-- ATOM_MIN (R215): atom with code MIN: signed minimum at the word. -/
  | insnAtomMin (t : ThreadId) (d a b : SReg) (w64 : Bool)
  /-- ATOM_MAX (R215): atom with code MAX: signed maximum at the word. -/
  | insnAtomMax (t : ThreadId) (d a b : SReg) (w64 : Bool)
  /-- ATOM_UMIN (R215): atom with code UMIN: unsigned minimum at the word. -/
  | insnAtomUmin (t : ThreadId) (d a b : SReg) (w64 : Bool)
  /-- ATOM_UMAX (R215): atom with code UMAX: unsigned maximum at the word. -/
  | insnAtomUmax (t : ThreadId) (d a b : SReg) (w64 : Bool)
  /-- ATOM_AND (R215): atom with code AND: bitwise AND at the word. -/
  | insnAtomAnd (t : ThreadId) (d a b : SReg) (w64 : Bool)
  /-- ATOM_OR (R215): atom with code OR: bitwise OR at the word. -/
  | insnAtomOr (t : ThreadId) (d a b : SReg) (w64 : Bool)
  /-- ATOM_XOR (R215): atom with code XOR: bitwise XOR at the word. -/
  | insnAtomXor (t : ThreadId) (d a b : SReg) (w64 : Bool)
  /-- ATOM_SWAP (R215): atom with code SWAP: the word takes the operand. -/
  | insnAtomSwap (t : ThreadId) (d a b : SReg) (w64 : Bool)
  /-- ATOM_CAS (R215): atom with code CAS: the word takes the swap value when old equals the compare value. -/
  | insnAtomCas (t : ThreadId) (d a b : SReg) (w64 : Bool)
  /-- BR (R287): br: when p XOR neg is 1, fetch is redirected at clause retirement. -/
  | insnBr (t : ThreadId) (p : PReg) (neg : Bool) (off : BitVec 20)
  /-- BMC (R291): bmc: branches on a memo register condition, waiting on its pending count. -/
  | insnBmc (t : ThreadId) (k : MReg) (cc : Fin 6) (off : BitVec 19)
  /-- WIN_MARK (R297): win mark sets the hold point to the next clause. -/
  | insnWinMark (t : ThreadId)
  /-- WIN_UNMARK (R297): win unmark clears the hold point. -/
  | insnWinUnmark (t : ThreadId)
  /-- WSET (R305): wset writes one word of a walker set of a core. -/
  | insnWset (t : ThreadId) (core : CoreId) (w : Fin 8) (field : BitVec 6) (v : W64)
  /-- DPUT (R304): dput copies 64 bytes of private memory into a descriptor in one step, ordered against verbs. -/
  | insnDput (t : ThreadId) (a b : SReg)
  /-- DGET (R304): dget copies a descriptor into private memory. -/
  | insnDget (t : ThreadId) (a b : SReg)
  /-- QROOM (R306): qroom returns the free entries of a core's engine queue. -/
  | insnQroom (t : ThreadId) (d a : SReg)
  /-- FENCE (R301): fence waits until every verb and address-stream op that the thread pushed has retired or been abandoned. -/
  | insnFence (t : ThreadId)
  /-- MFM (R291): mfm copies a memo register to sd, waiting on its pending count. -/
  | insnMfm (t : ThreadId) (d : SReg) (k : MReg)
  /-- RDSR (R301): rdsr reads the partition number, device number, control-core number or CORE_MASK. -/
  | insnRdsr (t : ThreadId) (d : SReg) (sel : Fin 4)
  /-- LSET (R308): lset sets a loop counter in autonomous mode. -/
  | insnLset (t : ThreadId) (k : Fin 4) (v : BitVec 24)
  /-- LDBNZ (R308): ldbnz decrements a loop counter and branches while it is nonzero. -/
  | insnLdbnz (t : ThreadId) (k : Fin 4) (off : BitVec 20)
  /-- VERB_RECORD (R337): A verb is recorded in the scoreboard once it heads its queue, lower tickets are recorded and entries are free. -/
  | verbRecord (c : CoreId)
  /-- SCOREBOARD_ADMIT (R340): A recorded verb is admitted once no lower ticket holds a hazardous overlapping entry, then energy admission follows. -/
  | scoreboardAdmit (c : CoreId)
  /-- VERB_START (R375): When the active verb's last tile has left the chain, the shadow configuration is swapped in and the next verb's first tile enters Ingest. -/
  | verbStart (c : CoreId)
  /-- VERB_RETIRE (R22): A verb retires, its effects becoming visible in the order of Table 1-3. -/
  | verbRetire (c : CoreId)
  /-- COMPLETION_STALL_END (R331): A retirement waiting at step 6 on a full completion ring continues once an entry is freed. -/
  | completionStallEnd (c : CoreId)
  /-- PREEMPTION (R404): A verb is preempted at its next tile boundary, its context saved and its write entries marked torn. -/
  | preemption (c : CoreId)
  /-- VERB_RESUME (R406): A preempted verb resumes at its resume point before any other verb starts on the core, with topping-up as needed. -/
  | verbResume (c : CoreId)
  /-- FLUSH_RUN (R362): FLUSH 1 stops the thread's fetch and lets running and queued verbs run to retirement. -/
  | flushRun (h : Head) (u : ThreadId)
  /-- FLUSH_ABANDON_QUEUED (R362): FLUSH 2 stops the thread, lets the running verb retire and abandons the queued ones. -/
  | flushAbandonQueued (h : Head) (u : ThreadId)
  /-- FLUSH_PREEMPT (R367): FLUSH 3 stops the thread, preempts and abandons the running verb and abandons the queued ones. -/
  | flushPreempt (h : Head) (u : ThreadId)
  /-- FLUSH_COMPLETE (R365): Once the flushed thread's verbs are done, its ring positions move to TAIL and FLUSH_STATE returns to 0. -/
  | flushComplete (t : ThreadId)
  /-- CORE_FLUSH_COMPLETE (R695): A directed-mode core flush completes at the core's first verb boundary after its verbs are done. -/
  | coreFlushComplete (c : CoreId)
  /-- CONJ_VALUE_WRITE (R360): A write of CONJ_VALUE sets the selected counter and satisfies waits, without being a signal. -/
  | conjValueWrite (h : Head) (v : W32)
  /-- CONJ_VALUE_READ (R360): A READ of CONJ_VALUE returns the counter selected by CONJ_SELECT. -/
  | conjValueRead (h : Head)
  /-- ADD (R461): Verb ADD: x = a + b per element. -/
  | verbAdd (c : CoreId)
  /-- SUB (R461): Verb SUB: x = a − b per element. -/
  | verbSub (c : CoreId)
  /-- MUL (R461): Verb MUL: x = a × b per element. -/
  | verbMul (c : CoreId)
  /-- FMA (R461): Verb FMA: x = a × b + c with one rounding. -/
  | verbFma (c : CoreId)
  /-- MIN (R461): Verb MIN: minimum of a and b per element. -/
  | verbMin (c : CoreId)
  /-- MAX (R461): Verb MAX: maximum of a and b per element. -/
  | verbMax (c : CoreId)
  /-- ABS (R461): Verb ABS: |a| per element. -/
  | verbAbs (c : CoreId)
  /-- NEG (R461): Verb NEG: −a per element. -/
  | verbNeg (c : CoreId)
  /-- LDEXP (R461): Verb LDEXP: a × 2^b per element. -/
  | verbLdexp (c : CoreId)
  /-- CONVERT (R423): Verb CONVERT: converts each element to the destination format. -/
  | verbConvert (c : CoreId)
  /-- QUANT (R428): Verb QUANT: scales by k and converts to a narrow or block format. -/
  | verbQuant (c : CoreId)
  /-- DEQUANT (R461): Verb DEQUANT: converts to floating and multiplies by a scale. -/
  | verbDequant (c : CoreId)
  /-- FUNC (R434): Verb FUNC: applies one built-in special function, optionally pre-scaled and multiplied back. -/
  | verbFunc (c : CoreId)
  /-- COMPARE (R461): Verb COMPARE: writes 1 where a CC b holds and 0 elsewhere. -/
  | verbCompare (c : CoreId)
  /-- SELECT (R461): Verb SELECT: x = (a CC b) ? a : c. -/
  | verbSelect (c : CoreId)
  /-- REDUCE (R395): Verb REDUCE: folds each span along rows, columns or the whole tile. -/
  | verbReduce (c : CoreId)
  /-- SOFTMAX (R442): Verb SOFTMAX: two-pass normalised soft maximum of each row of a span. -/
  | verbSoftmax (c : CoreId)
  /-- SOFTMAX_PART (R448): Verb SOFTMAX_PART: unnormalised probabilities against the running maximum, updating the row record. -/
  | verbSoftmaxPart (c : CoreId)
  /-- SOFTMAX_FIX (R450): Verb SOFTMAX_FIX: rescales or finishes partial outputs with a row record. -/
  | verbSoftmaxFix (c : CoreId)
  /-- RMSNORM (R451): Verb RMSNORM: root-mean-square normalisation in two-pass or one-pass form. -/
  | verbRmsnorm (c : CoreId)
  /-- ROPE (R459): Verb ROPE: rotary position encoding by integer phases. -/
  | verbRope (c : CoreId)
  /-- COPY (R461): Verb COPY: moves elements unchanged. -/
  | verbCopy (c : CoreId)
  /-- PERMUTE (R461): Verb PERMUTE: rearranges elements within each tile. -/
  | verbPermute (c : CoreId)
  /-- SHIFT (R461): Verb SHIFT: moves each row's lanes AMOUNT columns, rotating or filling zero. -/
  | verbShift (c : CoreId)
  /-- COMPRESS (R400): Verb COMPRESS: packs the active elements of the grid densely. -/
  | verbCompress (c : CoreId)
  /-- EXPAND (R401): Verb EXPAND: places packed elements at the active positions of the grid. -/
  | verbExpand (c : CoreId)
  /-- GATHER (R474): Verb GATHER: assembles grid rows from addressed or indexed rows. -/
  | verbGather (c : CoreId)
  /-- SCATTER (R475): Verb SCATTER: writes grid rows to addressed rows, plainly or by atomic accumulation. -/
  | verbScatter (c : CoreId)
  /-- ROTATE (R582): Verb ROTATE: passes each tile row through the Filver mesh and quantises the result. -/
  | verbRotate (c : CoreId)
  /-- RESHARD (R461): Verb RESHARD: converts, optionally transposes and quantises in one pass. -/
  | verbReshard (c : CoreId)
  /-- TAP_OFFER (R486): The matrix side offers a bank; the offer is checked and left pending or rejected. -/
  | tapOffer (ch : ChanId) (bank : BitVec 6) (fmt : Byte) (dest : CoreId)
  /-- TAP_GRANT (R487): A pending offer is granted once the bus, a buffer and the consuming verb are ready; the token passes to the vector side. -/
  | tapGrant (ch : ChanId)
  /-- TAP_BURST_END (R491): The last beat is accepted; a clean burst returns its token and its tile goes to Ingest. -/
  | tapBurstEnd (ch : ChanId) (b : TapBurst)
  /-- TAP_ABORT (R500): TAP_ABORT discards the burst, returns the token and leaves the tile awaited. -/
  | tapAbort (ch : ChanId)
  /-- TAP_BURST_TIMEOUT (R501): A burst not ended within 16 tk of its grant is ended unused and its token returned. -/
  | tapBurstTimeout (ch : ChanId)
  /-- TAP_WAIT_LIMIT (R502): A tap tile awaited for TAP_WAIT_LIMIT tk faults its verb. -/
  | tapWaitLimit (c : CoreId)
  /-- TAP_STRAY_BEAT (R489): TAP_VALID H outside a granted burst is ignored and recorded with cause 5. -/
  | tapStrayBeat (ch : ChanId)
  /-- TAP_LINK_M_RISE (R494): TAP_LINK_M rises on an enabled channel and training starts. -/
  | tapLinkMRise (ch : ChanId)
  /-- TAP_TRAINING_END (R494): Channel training ends and TAP_LINK_V is asserted, or the channel is left down. -/
  | tapTrainingEnd (ch : ChanId) (ok : Bool)
  /-- TAP_LINK_FALL (R496): A link signal falls; every token passes to the matrix side and unavailable beats are discarded. -/
  | tapLinkFall (ch : ChanId)
  /-- TAP_CLOCK_STOP (R497): TAP_CLK without a rising edge for 1 µs is treated as TAP_LINK_M L. -/
  | tapClockStop (ch : ChanId)
  /-- TAP_WAKE (R479): TAP_WAKE sampled H in Listen raises a demand to Brisk. -/
  | tapWake
  /-- MODULE_RESPONSE (R512): A response from the laser module to one of the device's requests arrives. -/
  | moduleResponse (r : ModResp)
  /-- MODULE_REQUEST_TIMEOUT (R512): A module request unanswered for 256 tk is resent, and after three resends the module is unreachable. -/
  | moduleRequestTimeout
  /-- MODULE_RETRY (R512): An unanswered module request is repeated with a new TXN every 65,536 tk. -/
  | moduleRetry
  /-- PILOTS_PRESENT (R520): A port direction's input tap shows all 17 pilots and the resonance search starts. -/
  | pilotsPresent (q : PortId) (rx : Bool) (found : List RingFind)
  /-- SEARCH_CALIBRATION_COMPLETE (R524): Calibration of every locked ring completes and the port is handed to link training. -/
  | searchCalibrationComplete (q : PortId) (rx : Bool)
  /-- OUT_OF_LOCK (R526): A ring more than 1 dB off its set point for 64 tk is out of lock and is searched locally. -/
  | outOfLock (q : PortId) (rx : Bool) (k : LineId) (found : RingFind)
  /-- PILOT_CHECK (R527): A locked ring's line is identified again; a wrong line is a mislock event. -/
  | pilotCheck (q : PortId) (rx : Bool) (k line : LineId)
  /-- MISLOCK (R528): A transmit mislock announces a mislock move and relocks the ring one line over as the spare. -/
  | mislock (q : PortId) (rx : Bool) (k line : LineId)
  /-- MISLOCK_MOVE (R528): 64 tk after the announcement the slot on the mislocked ring moves to the spare ring. -/
  | mislockMove (k : LineId) (found : RingFind)
  /-- CALIBRATION_DUE (R531): ROT_PERIOD tk after the last move the calibration-due event is raised for every spared port. -/
  | calibrationDue
  /-- ROTATION_MOVE (R532): After the announced 64 tk, one slot moves to the spare ring by a drained handover. -/
  | rotationMove
  /-- SPARE_CALIBRATION_STEP (R534): One calibration step of the spare line runs on the adaptation engine. -/
  | spareCalibrationStep (q : PortId) (rx : Bool) (last : Bool)
  /-- CALIBRATION_OVERDUE (R535): A calibration step reaches its deferral deadline and claims one engine step in 4. -/
  | calibrationOverdue (q : PortId) (rx : Bool)
  /-- FADE_SAMPLE (R537): Every 65,536 tk the loss of each line at MON_A is sampled and its slope fitted. -/
  | fadeSample (mon : List Int)
  /-- SPARE_NOT_READY (R540): A spare not ready within WARM_TIME plus 1,048,576 tk sets FADE_STATE 5. -/
  | spareNotReady
  /-- SPARE_READY (R541): The module reports the spare ready and the line-by-line handover starts. -/
  | spareReady
  /-- HANDOVER_STEP (R541): Every 20,972 tk the current spare line is switched to the spare source and calibrated. -/
  | handoverStep
  /-- COMMISSION (R545): A write of COMMISSION records every monitor reading as the reference and resets FADE_STATE. -/
  | commission (h : Head)
  /-- LOSS_LOCATION (R546): Every 1,048,576 tk the monitor path is walked and the loss segment written to LOSS_LOCATION. -/
  | lossLocation (q : PortId) (mon far : List Int)
  /-- TRAIN (R552): A TRAIN message from the far end is checked and the port comes up or fails. -/
  | train (q : PortId) (m : TrainMsg)
  /-- TRAINING_TIMEOUT (R552): Training not complete within 4,096 tk fails the port. -/
  | trainingTimeout (q : PortId)
  /-- LINK_DOWN (R554): 64 tk without a good flit, or 16 NAKs of one flit, take the link down and it retrains. -/
  | linkDown (q : PortId)
  /-- RETRAIN_LIMIT (R554): Retraining not complete within LINK_DOWN_LIMIT fails the port with cause 5. -/
  | retrainLimit (q : PortId)
  /-- FLIT_RECEIVE (R559): A flit arrives; it is accepted when its CHECK and SEQ are good, otherwise discarded with a NAK. -/
  | flitReceive (q : PortId) (bytes : List Byte)
  /-- REMOTE_READ (R566): A READ request from another device is checked and answered with READ_DATA or ERROR. -/
  | remoteRead (m : Msg)
  /-- REMOTE_WRITE (R568): A WRITE request from another device is performed and answered with WRITE_ACK. -/
  | remoteWrite (m : Msg)
  /-- TILE_OPEN (R569): TILE_OPEN requests a remote commit buffer, answered with TILE_GRANT. -/
  | tileOpen (m : Msg)
  /-- TILE_DATA (R569): A TILE_DATA flit fills the granted buffer; the last one commits the tile and answers TILE_ACK. -/
  | tileData (m : Msg)
  /-- ATOMIC (R568): An ATOMIC request is performed at the word and answered with ATOMIC_DATA. -/
  | atomic (m : Msg)
  /-- SIGNAL (R353): A SIGNAL from another device is applied once to the counter after its rights check. -/
  | signal (m : Msg)
  /-- WAIT_REG (R572): A WAIT_REG registers a remote wait, answered at once or when the counter reaches the value. -/
  | waitReg (m : Msg)
  /-- READ_DATA (R565): A READ_DATA response arrives into its reserved buffer and completes the read. -/
  | readData (m : Msg)
  /-- WRITE_ACK (R568): A WRITE_ACK confirms a remote write was performed. -/
  | writeAck (m : Msg)
  /-- TILE_GRANT (R569): A TILE_GRANT lets the source send the tile's TILE_DATA flits. -/
  | tileGrant (m : Msg)
  /-- TILE_ACK (R569): A TILE_ACK confirms a remote tile commit; the last one completes step 1 of retirement. -/
  | tileAck (m : Msg)
  /-- ATOMIC_DATA (R568): An ATOMIC_DATA response returns the old value of a remote atomic. -/
  | atomicData (m : Msg)
  /-- WAIT_ANSWER (R572): A WAIT_ANSWER resumes the waiting thread, or asks it to register again. -/
  | waitAnswer (m : Msg)
  /-- ERROR (R566): An ERROR response faults the requesting source with the mapped cause. -/
  | error (m : Msg)
  /-- MOVE_ANNOUNCE (R532): A MOVE_ANNOUNCE from the far device prepares the receiver for a slot move. -/
  | moveAnnounce (q : PortId) (slot : Fin 16) (ring : LineId)
  /-- SPARE_REQUEST (R529): A SPARE_REQUEST asks this device to move its transmit spare line to line k. -/
  | spareRequest (q : PortId) (k : LineId)
  /-- CAL_STEP (R534): A CAL_STEP message carries one step of joint spare-line calibration. -/
  | calStep (q : PortId)
  /-- CAL_DONE (R531): A CAL_DONE message reports that the far device has completed spare-line calibration. -/
  | calDone (q : PortId)
  /-- REMOTE_TIMEOUT (R571): A remote request unanswered for REMOTE_TIMEOUT tk raises a data fault. -/
  | remoteTimeout (tag : BitVec 16)
  /-- WAIT_REREGISTER (R572): A still-waiting remote waiter registers again after 16 tk on retry or every 65,536 tk. -/
  | waitReregister (t : ThreadId)
  /-- MESH_BRINGUP (R604): Once light is ready the mesh loads a slot, runs a gain step and a full input round, then is ready. -/
  | meshBringup
  /-- SLOT_LOAD (R593): Another slot is loaded and the mesh settles for 64 tk. -/
  | slotLoad (s : Fin 8)
  /-- MESH_GRANT (R592): The mesh grants one ROTATE tile to the next core in rotation and passes its rows. -/
  | meshGrant
  /-- INPUT_STEP_DUE (R589): An input step falls due every MESH_CAL_INTERVAL tk in turn. -/
  | inputStepDue
  /-- MESH_TEMP_SAMPLE (R589): Every 64 tk the mesh temperature is sampled and moved inputs fall due at once. -/
  | meshTempSample (temp : W32)
  /-- MESH_POWER_SAMPLE (R589): Every 2,048 tk the mesh input MON_A is sampled and a 0.25 dB move makes a gain step due. -/
  | meshPowerSample (mon : Int)
  /-- INPUT_STEP (R587): An input step drives one input alone, adjusts its shifters' offsets and verifies the column. -/
  | inputStep (r : StepResult)
  /-- GAIN_STEP (R587): A gain step drives each input in turn and sets the receiver trims. -/
  | gainStep (mon : Int)
  /-- MESH_CAL_OVERDUE (R590): A mesh step reaches its deferral deadline and claims one grant in 256. -/
  | meshCalOverdue
  /-- STALEMATE (R622): The stalemate timer fires after 256 quiet ticks and halts the partition in state 3. -/
  | stalemate (p : PartId)
  /-- PARTITION_FAULT (R629): A partition fault abandons the faulting verb, preempts the others and holds the threads. -/
  | partitionFault (p : PartId) (f : FaultInfo)
  /-- PARTITION_HALTED (R629): Once the halt steps are complete the partition enters state 4. -/
  | partitionHalted (p : PartId)
  /-- PART_RELEASE (R631): A PART_RELEASE write releases a halted or stopped partition and resumes its work. -/
  | partRelease (h : Head) (p : PartId)
  /-- STOP_AFTER (R645): A STOP_AFTER write arms a stop before the push that would exceed N. -/
  | stopAfter (h : Head) (p : PartId) (n : W64)
  /-- STOP_REACHED (R646): Once the stopped threads hold and pushed verbs are done, the partition enters state 5. -/
  | stopReached (p : PartId)
  /-- EVENT_LOG (R633): A READ of EVENT_LOG captures every record, oldest first. -/
  | eventLog (h : Head)
  /-- SNAP_REGS (R649): A READ of SNAP_REGS captures the selected thread's registers when it is halted or faulted. -/
  | snapRegs (h : Head)
  /-- SNAP_PRIV_DATA (R649): A READ of SNAP_PRIV_DATA captures a range of a control core's private memory. -/
  | snapPrivData (h : Head)
  /-- DIGEST (R650): A READ of DIGEST returns the CRC-64 of a store range. -/
  | digest (h : Head)
  /-- RST_N_RELEASE (R141): RST_N is released and is no longer sampled, so the core domain leaves its held reset and MOOD_REQUEST and WAKE_N are accepted again. -/
  | rstNRelease
  /-- CRYSTAL_EDGES_RETURN (R32): Crystal edges return during holdover and the tick oscillator starts relocking by slewing its period. -/
  | crystalEdgesReturn
  /-- FILL_VERB (R461): Verb FILL (0x701) writes k, converted to the destination format, or zero, at every active position of its grid. -/
  | verbFill (c : CoreId)
  /-- T1S_TRANSMIT_OPPORTUNITY (R79): The device's PLCA transmit opportunity arrives and it sends the next queued response or notification frame on 10BASE-T1S. -/
  | t1sTransmitOpportunity
  deriving DecidableEq, Repr

end Sys2Proof
end

