-- ==== Sys2Proof/Decode.lean ====
section
/-!
DEFINITION. The words of the table of operations. Every row of spec/opcode_table.json is an operation or an event with
no bits of its own ("fields" is empty in each), so no word spells a command.
-/
namespace Sys2Proof

/-- The command that a word spells by the table's bits: none, since no row gives bits. -/
def decodeTableWord (_nbits _w : Nat) : Option Instr := none

end Sys2Proof
end

