-- ==== Sys2Proof/Machine/SMap.lean ====
section
/-!
DEFINITION. Sparse maps: a list of (key, value) pairs with strictly rising keys and no entry equal to what an unlisted
key reads as. The central store, the private memories, the conjunction counters and the object dictionary are held in
this one form, so that equal contents are equal data.
-/
namespace Sys2Proof.Machine

/-- A sparse map from natural numbers: sorted, without repeats. -/
abbrev SMap (α : Type) := List (Nat × α)

/-- The value listed for key `k`, if any. -/
def SMap.find {α : Type} : SMap α → Nat → Option α
  | [], _ => none
  | (j, v) :: m, k => if j = k then some v else if k < j then none else SMap.find m k

/-- Remove the entry of key `k`. -/
def SMap.del {α : Type} : SMap α → Nat → SMap α
  | [], _ => []
  | (j, v) :: m, k => if j = k then m else if k < j then (j, v) :: m else (j, v) :: SMap.del m k

/-- Set the entry of key `k`. -/
def SMap.put {α : Type} : SMap α → Nat → α → SMap α
  | [], k, v => [(k, v)]
  | (j, w) :: m, k, v =>
    if j = k then (k, v) :: m else if k < j then (k, v) :: (j, w) :: m else (j, w) :: SMap.put m k v

/-- Read key `k` where an unlisted key reads as `d k`. -/
def SMap.get {α : Type} (d : Nat → α) (m : SMap α) (k : Nat) : α := (SMap.find m k).getD (d k)

/-- Write key `k`; writing what an unlisted key reads as removes the entry. -/
def SMap.set {α : Type} [DecidableEq α] (d : Nat → α) (m : SMap α) (k : Nat) (v : α) : SMap α :=
  if v = d k then SMap.del m k else SMap.put m k v

/-- Every key is above `b`, keys rise strictly, and no entry equals what an unlisted key reads as. -/
def SMap.wfFrom {α : Type} [DecidableEq α] (d : Nat → α) : Nat → SMap α → Bool
  | _, [] => true
  | b, (k, v) :: m => decide (b ≤ k) && decide (v ≠ d k) && SMap.wfFrom d (k + 1) m

/-- The canonical form of a sparse map. -/
def SMap.wf {α : Type} [DecidableEq α] (d : Nat → α) (m : SMap α) : Bool := SMap.wfFrom d 0 m

/-- Drop every entry whose key lies in `[lo, hi)`. -/
def SMap.clear {α : Type} (m : SMap α) (lo hi : Nat) : SMap α := m.filter (fun e => e.1 < lo || hi ≤ e.1)

/-- Byte memory: the central store by local offset, or a private data memory. Bytes that nothing has written read as
zero: near-tier arrays and the deep tier are zero-initialised when they power up (R102), descriptor tables and
counters when the device leaves Cold or Hush (R260, R350), private memory at every reset of its thread (R298). -/
abbrev Memory := List Host.Cell

/-- What an unlisted byte reads as (R102). -/
def Memory.dflt (_ : Nat) : Byte := 0

/-- The canonical form of a memory. -/
def Memory.wf (m : Memory) : Bool := SMap.wf Memory.dflt m

/-- Read one byte. -/
def Memory.read (m : Memory) (a : Nat) : Byte := SMap.get Memory.dflt m a

/-- Write one byte. -/
def Memory.write (m : Memory) (a : Nat) (v : Byte) : Memory := SMap.set Memory.dflt m a v

/-- Read `n` bytes from `a` upwards. -/
def Memory.readN (m : Memory) (a : Nat) : Nat → List Byte
  | 0 => []
  | n + 1 => Memory.read m a :: Memory.readN m (a + 1) n

/-- Write bytes from `a` upwards. -/
def Memory.writeN (m : Memory) (a : Nat) : List Byte → Memory
  | [] => m
  | b :: bs => Memory.writeN (Memory.write m a b) (a + 1) bs

end Sys2Proof.Machine
end

