-- ==== Sys2Proof/Machine/Bits.lean ====
section
/-!
DEFINITION. Bytes, bit fields, checks and small list helpers shared by every unit: little-endian values (R10), the
CRC-16 of a Rhotre PDU (R69) and the CRC-64 of a flit and of DIGEST (R557, R650).
-/
namespace Sys2Proof.Machine

/-- The `n` little-endian bytes of a value (R10). -/
def leBytes : Nat → Nat → List Byte
  | 0, _ => []
  | n + 1, v => BitVec.ofNat 8 v :: leBytes n (v / 256)

/-- The value of little-endian bytes (R10). -/
def ofLe : List Byte → Nat
  | [] => 0
  | b :: bs => b.toNat + 256 * ofLe bs

/-- Bits `hi` down to `lo` of a number. -/
def bits (v hi lo : Nat) : Nat := (v / 2 ^ lo) % 2 ^ (hi + 1 - lo)

/-- One bit of a number. -/
def bit (v i : Nat) : Bool := v.testBit i

/-- The number of a truth value. -/
def b2n (b : Bool) : Nat := if b then 1 else 0

/-- A field's value as a signed number of `w` bits. -/
def sext (w v : Nat) : Int := (BitVec.ofNat w v).toInt

/-- The 64-bit word of an integer, modulo 2^64. -/
def w64 (i : Int) : W64 := BitVec.ofInt 64 i

/-- How many of bits 0 to n − 1 are one. -/
def popcount : Nat → Nat → Nat
  | 0, _ => 0
  | n + 1, v => b2n (bit v n) + popcount n v

/-- Positions of the one bits among 0 to n − 1, rising. -/
def onesOf (n v : Nat) : List Nat := (List.range n).filter (fun i => bit v i)

/-- Eight shifts of a CRC register of `w` bits, most significant bit first. -/
def crcShift {w : Nat} (poly : BitVec w) : Nat → BitVec w → BitVec w
  | 0, c => c
  | n + 1, c => crcShift poly n (if c.msb then (c <<< 1) ^^^ poly else c <<< 1)

/-- CRC-16 of R69: polynomial 0x1021, initial value 0xFFFF, no reflection, no final XOR. -/
def crc16 (bs : List Byte) : BitVec 16 :=
  bs.foldl (fun c b => crcShift 0x1021#16 8 (c ^^^ BitVec.ofNat 16 (b.toNat * 2 ^ 8))) 0xFFFF#16

/-- The bits of a value in reverse order. -/
def reflect {w : Nat} (v : BitVec w) : BitVec w := BitVec.ofNat w ((List.range w).foldl (fun a i => 2 * a + b2n (v.getLsbD i)) 0)

/-- CRC-64 of R557: polynomial 0x42F0E1EBA9EA3693, all ones first, reflected input and output, final XOR all ones. -/
def crc64 (bs : List Byte) : W64 :=
  reflect (bs.foldl (fun c b => crcShift 0x42F0E1EBA9EA3693#64 8 (c ^^^ BitVec.ofNat 64 ((reflect b).toNat * 2 ^ 56)))
    (BitVec.allOnes 64)) ^^^ BitVec.allOnes 64

/-- A list of bytes with some replaced from `i` on. -/
def patch (l : List Byte) (i : Nat) (b : List Byte) : List Byte := l.take i ++ b ++ l.drop (i + b.length)

/-- Set element `i` of a vector. -/
def vset {α : Type} {n : Nat} (v : Vector α n) (i : Fin n) (x : α) : Vector α n := v.set i.val x i.isLt

/-- Change element `i` of a vector. -/
def vmod {α : Type} {n : Nat} (v : Vector α n) (i : Fin n) (f : α → α) : Vector α n := vset v i (f v[i])

/-- Element `i` of a list, or `d`. -/
def at! {α : Type} (d : α) (l : List α) (i : Nat) : α := (l[i]?).getD d

/-- The list with element `i` replaced; unchanged when there is none. -/
def lset {α : Type} (l : List α) (i : Nat) (x : α) : List α := l.set i x

/-- `min v (2^32 − 1)`: a saturating 32-bit counter. -/
def sat32 (v : Nat) : Nat := min v 0xFFFFFFFF

/-- A value modulo 2^32 or 2^64. -/
def wrap32 (v : Nat) : Nat := v % 2 ^ 32
/-- See `wrap32`. -/
def wrap64 (v : Nat) : Nat := v % 2 ^ 64

/-- ⌈a / b⌉. -/
def ceilDiv (a b : Nat) : Nat := (a + b - 1) / b

/-- Is [lo, hi] disjoint from [lo', hi']? -/
def disjoint (lo hi lo' hi' : Nat) : Bool := decide (hi < lo') || decide (hi' < lo)

end Sys2Proof.Machine
end

