-- ==== Sys2Proof/Machine/ControlWord.lean ====
section
/-!
DEFINITION. Control ops: the instructions of Table 8-12 and their words in the formats of Table 8-11, both ways.
-/
namespace Sys2Proof.Machine

/-- Integer operations of major opcode 0x01. -/
inductive AluOp where
  | add | sub | and | or | xor | shl | shr | sra | mul | mulh | min | max | minu | maxu
  deriving DecidableEq, Repr

/-- The fn code of an integer operation. -/
def AluOp.code : AluOp → Nat
  | .add => 0x00 | .sub => 0x01 | .and => 0x02 | .or => 0x03 | .xor => 0x04 | .shl => 0x05 | .shr => 0x06
  | .sra => 0x07 | .mul => 0x08 | .mulh => 0x09 | .min => 0x0A | .max => 0x0B | .minu => 0x0C | .maxu => 0x0D

/-- The integer operation of an fn code. -/
def AluOp.ofCode : Nat → Option AluOp
  | 0x00 => some .add | 0x01 => some .sub | 0x02 => some .and | 0x03 => some .or | 0x04 => some .xor
  | 0x05 => some .shl | 0x06 => some .shr | 0x07 => some .sra | 0x08 => some .mul | 0x09 => some .mulh
  | 0x0A => some .min | 0x0B => some .max | 0x0C => some .minu | 0x0D => some .maxu | _ => none

/-- Operations of majors 0x02 to 0x05. -/
inductive ImmOp where
  | addi | andi | ori | xori
  deriving DecidableEq, Repr

/-- Major opcode of an immediate operation. -/
def ImmOp.major : ImmOp → Nat
  | .addi => 0x02 | .andi => 0x03 | .ori => 0x04 | .xori => 0x05

/-- Operations of majors 0x06 to 0x08. -/
inductive ShiOp where
  | shli | shri | srai
  deriving DecidableEq, Repr

/-- Major opcode of an immediate shift. -/
def ShiOp.major : ShiOp → Nat
  | .shli => 0x06 | .shri => 0x07 | .srai => 0x08

/-- binary32 operations of major opcode 0x0A. -/
inductive FltOp where
  | fadd | fsub | fmul | fdiv | fsqrt | fmin | fmax | fcvtif | fcvtfi
  deriving DecidableEq, Repr

/-- The fn code of a binary32 operation. -/
def FltOp.code : FltOp → Nat
  | .fadd => 0 | .fsub => 1 | .fmul => 2 | .fdiv => 3 | .fsqrt => 4 | .fmin => 5 | .fmax => 6 | .fcvtif => 7
  | .fcvtfi => 8

/-- The binary32 operation of an fn code. -/
def FltOp.ofCode : Nat → Option FltOp
  | 0 => some .fadd | 1 => some .fsub | 2 => some .fmul | 3 => some .fdiv | 4 => some .fsqrt | 5 => some .fmin
  | 6 => some .fmax | 7 => some .fcvtif | 8 => some .fcvtfi | _ => none

/-- Does the operation take no second source (b reserved)? -/
def FltOp.unary : FltOp → Bool
  | .fsqrt | .fcvtif | .fcvtfi => true
  | _ => false

/-- Predicate operations of major opcode 0x0D. -/
inductive PrdOp where
  | pand | por | pxor | pandn
  deriving DecidableEq, Repr

/-- The fn code of a predicate operation. -/
def PrdOp.code : PrdOp → Nat
  | .pand => 0 | .por => 1 | .pxor => 2 | .pandn => 3

/-- The predicate operation of an fn code. -/
def PrdOp.ofCode : Nat → PrdOp
  | 0 => .pand | 1 => .por | 2 => .pxor | _ => .pandn

/-- The atomics of Table 6-5. -/
inductive AtomOp where
  | add | fadd | min | max | umin | umax | and | or | xor | swap | cas
  deriving DecidableEq, Repr

/-- The code of an atomic. -/
def AtomOp.code : AtomOp → Nat
  | .add => 0x1 | .fadd => 0x2 | .min => 0x3 | .max => 0x4 | .umin => 0x5 | .umax => 0x6 | .and => 0x7 | .or => 0x8
  | .xor => 0x9 | .swap => 0xA | .cas => 0xB

/-- The atomic of a code; codes 0x0 and 0xC to 0xF are reserved (R215). -/
def AtomOp.ofCode : Nat → Option AtomOp
  | 0x1 => some .add | 0x2 => some .fadd | 0x3 => some .min | 0x4 => some .max | 0x5 => some .umin
  | 0x6 => some .umax | 0x7 => some .and | 0x8 => some .or | 0x9 => some .xor | 0xA => some .swap
  | 0xB => some .cas | _ => none

/-- An instruction of Table 8-12 with its fields. FADD is 32 bits wide whatever its width bit would say, so an `atom`
of FADD with width 1 is no instruction. -/
inductive CtlOp where
  | alu (o : AluOp) (d a b : SReg)
  | imm (o : ImmOp) (d a : SReg) (i : BitVec 14)
  | shi (o : ShiOp) (d a : SReg) (n : BitVec 6)
  | limm (d : SReg)
  | flt (o : FltOp) (d a b : SReg)
  | cmp (pd : PReg) (cc : Fin 8) (a b : SReg)
  | cmpi (pd : PReg) (cc : Fin 6) (a : SReg) (i : BitVec 14)
  | prd (o : PrdOp) (d a b : PReg)
  | sel (d a b : SReg) (p : PReg)
  | ldp (d a : SReg) (i : BitVec 14)
  | stp (d a : SReg) (i : BitVec 14)
  | ldg (d a : SReg) (i : BitVec 14)
  | stg (d a : SReg) (i : BitVec 14)
  | atom (o : AtomOp) (wide : Bool) (d a b : SReg)
  | br (p : PReg) (neg : Bool) (off : BitVec 20)
  | bmc (k : MReg) (cc : Fin 6) (off : BitVec 19)
  | win (unmark : Bool)
  | wset (core : CoreId) (w : Fin 8) (field : Fin 64) (r : SReg) (vsrc : Bool)
  | dput (a b : SReg)
  | dget (a b : SReg)
  | qroom (d a : SReg)
  | fence
  | mfm (d : SReg) (k : MReg)
  | rdsr (d : SReg) (sel : Fin 4)
  | lset (k : Fin 4) (v : BitVec 24)
  | ldbnz (k : Fin 4) (off : BitVec 20)
  deriving DecidableEq, Repr

/-- Do the fields hold a value that has an encoding? Unary binary32 operations have b 0, FADD is narrow, walker-set
fields end at 12 (R379), and a wset of the immediate names no register. -/
def CtlOp.wf : CtlOp → Bool
  | .flt o _ _ b => !o.unary || decide (b = 0)
  | .atom o wide _ _ _ => decide (o ≠ .fadd) || !wide
  | .wset _ _ f r v => decide (f.val < 13) && (!v || decide (r = 0))
  | _ => true

/-- A word of format R. -/
def formR (mj d a b fn : Nat) : W32 := BitVec.ofNat 32 (mj * 0x4000000 + d * 0x100000 + a * 0x4000 + b * 0x100 + fn)
/-- A word of format I. -/
def formI (mj d a i : Nat) : W32 := BitVec.ofNat 32 (mj * 0x4000000 + d * 0x100000 + a * 0x4000 + i)

/-- The word of an instruction (Tables 8-11 and 8-12). -/
def encodeCtl : CtlOp → W32
  | .alu o d a b => formR 0x01 d.val a.val b.val o.code
  | .imm o d a i => formI o.major d.val a.val i.toNat
  | .shi o d a n => formI o.major d.val a.val n.toNat
  | .limm d => formR 0x09 d.val 0 0 0
  | .flt o d a b => formR 0x0A d.val a.val b.val o.code
  | .cmp pd cc a b => formR 0x0B (pd.val * 8 + cc.val) a.val b.val 0
  | .cmpi pd cc a i => formI 0x0C (pd.val * 8 + cc.val) a.val i.toNat
  | .prd o d a b => formI 0x0D (d.val * 8 + a.val) (b.val * 8 + o.code * 2) 0
  | .sel d a b p => formR 0x0E d.val a.val b.val (p.val * 32)
  | .ldp d a i => formI 0x10 d.val a.val i.toNat
  | .stp d a i => formI 0x11 d.val a.val i.toNat
  | .ldg d a i => formI 0x12 d.val a.val i.toNat
  | .stg d a i => formI 0x13 d.val a.val i.toNat
  | .atom o wide d a b => formR 0x14 d.val a.val b.val (o.code * 16 + b2n wide * 8)
  | .br p neg off => BitVec.ofNat 32 (0x18 * 0x4000000 + p.val * 0x800000 + b2n neg * 0x400000 + off.toNat)
  | .bmc k cc off => BitVec.ofNat 32 (0x19 * 0x4000000 + k.val * 0x400000 + cc.val * 0x80000 + off.toNat)
  | .win u => formR 0x1A 0 0 0 (b2n u)
  | .wset core w f r v => BitVec.ofNat 32
      (0x1C * 0x4000000 + core.val * 0x100000 + w.val * 0x20000 + f.val * 0x800 + r.val * 0x20 + b2n v * 0x10)
  | .dput a b => formR 0x1D 0 a.val b.val 0
  | .dget a b => formR 0x1D 0 a.val b.val 1
  | .qroom d a => formR 0x1E d.val a.val 0 0
  | .fence => formR 0x1F 0 0 0 0
  | .mfm d k => BitVec.ofNat 32 (0x20 * 0x4000000 + d.val * 0x100000 + k.val * 0x10000)
  | .rdsr d sel => formR 0x21 d.val 0 0 sel.val
  | .lset k v => BitVec.ofNat 32 (0x24 * 0x4000000 + k.val * 0x1000000 + v.toNat)
  | .ldbnz k off => BitVec.ofNat 32 (0x25 * 0x4000000 + k.val * 0x1000000 + off.toNat)

/-- Keep a decoded instruction only when the word's reserved fields are zero. -/
def guardOp (ok : Bool) (c : CtlOp) : Option CtlOp := if ok then some c else none

/-- The instruction of a word; none for a reserved major, fn, cc or field (Table 8-13, cause 6). -/
def decodeCtl (word : W32) : Option CtlOp :=
  let n := word.toNat
  let d : SReg := Fin.ofNat 64 (n / 0x100000)
  let a : SReg := Fin.ofNat 64 (n / 0x4000)
  let b : SReg := Fin.ofNat 64 (n / 0x100)
  let fn := n % 0x100
  let i := BitVec.ofNat 14 n
  let hi3 : PReg := Fin.ofNat 8 (n / 0x800000)
  let lo3 := n / 0x100000 % 8
  match n / 0x4000000 with
  | 0x01 => (AluOp.ofCode fn).map (fun o => .alu o d a b)
  | 0x02 => some (.imm .addi d a i)
  | 0x03 => some (.imm .andi d a i)
  | 0x04 => some (.imm .ori d a i)
  | 0x05 => some (.imm .xori d a i)
  | 0x06 => guardOp (decide (n % 0x4000 < 64)) (.shi .shli d a (BitVec.ofNat 6 n))
  | 0x07 => guardOp (decide (n % 0x4000 < 64)) (.shi .shri d a (BitVec.ofNat 6 n))
  | 0x08 => guardOp (decide (n % 0x4000 < 64)) (.shi .srai d a (BitVec.ofNat 6 n))
  | 0x09 => guardOp (decide (n % 0x100000 = 0)) (.limm d)
  | 0x0A =>
    match FltOp.ofCode fn with
    | none => none
    | some o => guardOp (!o.unary || decide (b = 0)) (.flt o d a b)
  | 0x0B => guardOp (decide (fn = 0)) (.cmp hi3 (Fin.ofNat 8 lo3) a b)
  | 0x0C => if h : lo3 < 6 then some (.cmpi hi3 ⟨lo3, h⟩ a i) else none
  | 0x0D => guardOp (decide (n % 0x8000 = 0))
      (.prd (PrdOp.ofCode (n / 0x8000 % 4)) hi3 (Fin.ofNat 8 lo3) (Fin.ofNat 8 (n / 0x20000)))
  | 0x0E => guardOp (decide (n % 0x20 = 0)) (.sel d a b (Fin.ofNat 8 (n / 0x20)))
  | 0x10 => some (.ldp d a i)
  | 0x11 => some (.stp d a i)
  | 0x12 => some (.ldg d a i)
  | 0x13 => some (.stg d a i)
  | 0x14 =>
    match AtomOp.ofCode (n / 0x10 % 16) with
    | none => none
    | some o =>
      let wide := decide (n / 8 % 2 = 1)
      guardOp (decide (n % 8 = 0) && (decide (o ≠ .fadd) || !wide)) (.atom o wide d a b)
  | 0x18 => guardOp (decide (n / 0x100000 % 4 = 0)) (.br hi3 (decide (n / 0x400000 % 2 = 1)) (BitVec.ofNat 20 n))
  | 0x19 =>
    if h : n / 0x80000 % 8 < 6 then
      some (.bmc (Fin.ofNat 16 (n / 0x400000)) ⟨n / 0x80000 % 8, h⟩ (BitVec.ofNat 19 n))
    else none
  | 0x1A => guardOp (decide (n % 0x4000000 < 2)) (.win (decide (n % 2 = 1)))
  | 0x1C =>
    let f : Fin 64 := Fin.ofNat 64 (n / 0x800)
    let r : SReg := Fin.ofNat 64 (n / 0x20)
    let v := decide (n / 0x10 % 2 = 1)
    guardOp (decide (n % 0x10 = 0) && decide (f.val < 13) && (!v || decide (r = 0)))
      (.wset d (Fin.ofNat 8 (n / 0x20000)) f r v)
  | 0x1D =>
    if n / 0x100000 % 64 ≠ 0 then none
    else if fn = 0 then some (.dput a b) else if fn = 1 then some (.dget a b) else none
  | 0x1E => guardOp (decide (n % 0x4000 = 0)) (.qroom d a)
  | 0x1F => guardOp (decide (n % 0x4000000 = 0)) .fence
  | 0x20 => guardOp (decide (n % 0x10000 = 0)) (.mfm d (Fin.ofNat 16 (n / 0x10000)))
  | 0x21 => if h : fn < 4 then guardOp (decide (n / 0x100 % 0x1000 = 0)) (.rdsr d ⟨fn, h⟩) else none
  | 0x24 => some (.lset (Fin.ofNat 4 (n / 0x1000000)) (BitVec.ofNat 24 n))
  | 0x25 => guardOp (decide (n / 0x100000 % 16 = 0)) (.ldbnz (Fin.ofNat 4 (n / 0x1000000)) (BitVec.ofNat 20 n))
  | _ => none

/-- Is it of branch class (R285)? -/
def CtlOp.isBranch : CtlOp → Bool
  | .br _ _ _ | .bmc _ _ _ | .ldbnz _ _ => true
  | _ => false

/-- Does it read the immediate slot? -/
def CtlOp.readsImm : CtlOp → Bool
  | .limm _ => true
  | .wset _ _ _ _ v => v
  | _ => false

end Sys2Proof.Machine
end

