-- ==== Sys2Proof/Config.lean ====
section
/-!
DEFINITION. The values that the spec leaves to the part, to the analog world or to no rule at all. Each is a constant
without a body, so that nothing proved here can rest on its value (notes/assumptions/3.md). Where a fresh value is
needed each time, the function is applied to State.freeCtr, which the use advances.
-/
namespace Sys2Proof

/-- SERIAL, "Per part" (Table 3-11). -/
opaque Config.serial : W64
/-- MAC_ADDRESS [47:0], "Per part" (Table 3-11). -/
opaque Config.mac : Mac
/-- The built-in special function `code` of Table 12-1 at a binary32 input: the spec bounds it and fixes the special
inputs of Table 12-2 only (R432, R433). -/
opaque Config.fn : Nat → W32 → W32
/-- A free cut: of a special function that R436 keeps in order, where a half of its inputs divides its range. -/
opaque Config.cut : Nat → Nat → Nat
/-- cos and sin of the ROPE phase, bounded by R458 and fixed at the quadrants only. -/
opaque Config.cosPhase : W32 → W32
/-- See `Config.cosPhase`. -/
opaque Config.sinPhase : W32 → W32
/-- |−2^31| (7) and −(−2^31) (8) in the int32 path: R378 lists neither among the operations that wrap or saturate. -/
opaque Config.intEdge : Nat → W32
/-- A receiver code of the mesh (R583): analog; the model clamps it to −511 to 511. -/
opaque Config.receiver : Nat → Int
/-- The U of output value `i` of a REDUCE in ROUND 5 when the core's rounding generator stands at `g`: R419 names input
positions only. -/
opaque Config.reduceU : W32 → Nat → Nat
/-- A summary of Table 10-9 whose value the spec does not state, of a configuration, a kind and the state of the reduction:
LAST_REDUCED of another axis than 3, EMPTY_LINES of axis 3. -/
opaque Config.openSum : BitVec 384 → Nat → List W64 → List Nat → W64
/-- The energy, in pJ, that the meter of a core adds in one tile of a verb (R161, R164). -/
opaque Config.meterPj : Nat → Nat
/-- The response bytes of I3C CCC GETSTATUS and GETMXDS, which the spec names without a value (R54). -/
opaque Config.cccByte : Nat → Byte
/-- A loss or a reading that the laser path gives and no command carries (R546), in 0.01 dB. -/
opaque Config.reading : Nat → Int
/-- Value `i` of the free values that one use of the counter takes. -/
opaque Config.freeWord : Nat → Nat → W64

end Sys2Proof
end

