-- ==== Sys2Proof/Machine/Objects.lean ====
section
/-!
DEFINITION. The object map: every object of Tables 21-2 to 21-12 with its type, access right, default, set flag and
the check R684 places on a written value, and a name for its key. A key is index × 256 + subindex.
-/
namespace Sys2Proof.Machine

/-- Object types of Table 3-1; a DOMAIN carries its maximum size (Table 21-13). -/
inductive Ty where
  | bool | u8 | u16 | u32 | u64 | i64 | f32
  | domain (max : Nat)
  deriving DecidableEq, Repr

/-- Access rights (R48). -/
inductive Access where
  | ro | rw | wo
  deriving DecidableEq, Repr

/-- What R684 asks of a written value. `codes` and `vector` answer RESERVED_VALUE, `low n` (bits at and above n are
reserved) too; the others answer RANGE. -/
inductive Chk where
  | any
  | range (lo hi : Nat)
  | codes (cs : List Nat)
  | vector
  | low (n : Nat)
  | multiple (m hi : Nat)
  | pow2 (lo hi : Nat)
  | magnitude
  | mood
  | peekAddress | peekLength | privAddress | privLength | digestAddress | digestLength
  deriving DecidableEq, Repr

/-- One row of the object map: instances `base` to `base + count - 1`, subindices `sub`, `sub + step`, … (`subs` of
them). `perInst` adds the instance number to the default (LFSR_SEED, LFSR_STATE). -/
structure ObjRow where
  base : Nat
  count : Nat
  sub : Nat
  subs : Nat
  step : Nat
  ty : Ty
  acc : Access
  set : Bool
  dflt : Nat
  perInst : Bool
  chk : Chk
  deriving DecidableEq, Repr

/-- The key of object index:sub. -/
abbrev key (idx sub : Nat) : Nat := idx * 256 + sub

/-- Rows of Table 21-2. -/
def objs2 : List ObjRow := [
  { base := 0x1000, count := 1, sub := 1, subs := 1, step := 1, ty := .u32, acc := .ro, set := false, dflt := 0x4D494F53, perInst := false, chk := .any },
  { base := 0x1000, count := 1, sub := 2, subs := 1, step := 1, ty := .u32, acc := .ro, set := false, dflt := 0x640A01, perInst := false, chk := .any },
  { base := 0x1000, count := 1, sub := 3, subs := 1, step := 1, ty := .u8, acc := .ro, set := false, dflt := 0xB1, perInst := false, chk := .any },
  { base := 0x1000, count := 1, sub := 4, subs := 1, step := 1, ty := .u64, acc := .ro, set := false, dflt := 0, perInst := false, chk := .any },
  { base := 0x1000, count := 1, sub := 5, subs := 1, step := 1, ty := .u64, acc := .ro, set := false, dflt := 0, perInst := false, chk := .any },
  { base := 0x1000, count := 1, sub := 6, subs := 1, step := 1, ty := .u8, acc := .ro, set := false, dflt := 1, perInst := false, chk := .any },
  { base := 0x1000, count := 1, sub := 7, subs := 1, step := 1, ty := .u8, acc := .ro, set := false, dflt := 1, perInst := false, chk := .any },
  { base := 0x1010, count := 1, sub := 1, subs := 1, step := 1, ty := .u8, acc := .rw, set := false, dflt := 1, perInst := false, chk := .range 1 254 },
  { base := 0x1010, count := 1, sub := 2, subs := 1, step := 1, ty := .u8, acc := .rw, set := false, dflt := 32, perInst := false, chk := .range 32 255 },
  { base := 0x1010, count := 1, sub := 3, subs := 1, step := 1, ty := .u16, acc := .rw, set := false, dflt := 0x88B5, perInst := false, chk := .range 1536 65535 },
  { base := 0x1010, count := 1, sub := 4, subs := 1, step := 1, ty := .bool, acc := .rw, set := false, dflt := 0, perInst := false, chk := .codes [0, 1] },
  { base := 0x1020, count := 1, sub := 1, subs := 1, step := 1, ty := .u8, acc := .rw, set := false, dflt := 0x3A, perInst := false, chk := .range 8 119 },
  { base := 0x1020, count := 1, sub := 2, subs := 1, step := 1, ty := .u8, acc := .ro, set := false, dflt := 0, perInst := false, chk := .any },
  { base := 0x1020, count := 1, sub := 3, subs := 1, step := 1, ty := .bool, acc := .rw, set := false, dflt := 1, perInst := false, chk := .codes [0, 1] },
  { base := 0x1030, count := 1, sub := 1, subs := 1, step := 1, ty := .u8, acc := .rw, set := false, dflt := 0, perInst := false, chk := .range 0 63 },
  { base := 0x1040, count := 1, sub := 1, subs := 1, step := 1, ty := .u32, acc := .rw, set := false, dflt := 0, perInst := false, chk := .low 7 },
  { base := 0x1040, count := 1, sub := 2, subs := 1, step := 1, ty := .u8, acc := .rw, set := false, dflt := 0, perInst := false, chk := .codes [0, 1, 2, 3] },
  { base := 0x1040, count := 1, sub := 3, subs := 1, step := 1, ty := .u64, acc := .rw, set := false, dflt := 0, perInst := false, chk := .low 48 },
  { base := 0x1040, count := 1, sub := 4, subs := 1, step := 1, ty := .u16, acc := .ro, set := false, dflt := 0, perInst := false, chk := .any },
  { base := 0x1050, count := 1, sub := 1, subs := 1, step := 1, ty := .u32, acc := .ro, set := false, dflt := 0, perInst := false, chk := .any }]

/-- Rows of Table 21-2. -/
def objs2b : List ObjRow := [
  { base := 0x1050, count := 1, sub := 2, subs := 1, step := 1, ty := .u32, acc := .ro, set := false, dflt := 0, perInst := false, chk := .any },
  { base := 0x1050, count := 1, sub := 3, subs := 1, step := 1, ty := .u32, acc := .ro, set := false, dflt := 0, perInst := false, chk := .any },
  { base := 0x1050, count := 1, sub := 4, subs := 1, step := 1, ty := .u32, acc := .ro, set := false, dflt := 0, perInst := false, chk := .any },
  { base := 0x1050, count := 1, sub := 5, subs := 1, step := 1, ty := .u32, acc := .ro, set := false, dflt := 0, perInst := false, chk := .any },
  { base := 0x1050, count := 1, sub := 6, subs := 1, step := 1, ty := .u32, acc := .ro, set := false, dflt := 0, perInst := false, chk := .any },
  { base := 0x1100, count := 1, sub := 1, subs := 1, step := 1, ty := .u64, acc := .ro, set := false, dflt := 0, perInst := false, chk := .any },
  { base := 0x1100, count := 1, sub := 2, subs := 1, step := 1, ty := .u8, acc := .ro, set := false, dflt := 1, perInst := false, chk := .any },
  { base := 0x1100, count := 1, sub := 3, subs := 1, step := 1, ty := .u32, acc := .ro, set := false, dflt := 0, perInst := false, chk := .any },
  { base := 0x1100, count := 1, sub := 4, subs := 1, step := 1, ty := .u32, acc := .ro, set := false, dflt := 0, perInst := false, chk := .any },
  { base := 0x1200, count := 1, sub := 1, subs := 1, step := 1, ty := .u8, acc := .wo, set := false, dflt := 0, perInst := false, chk := .codes [1] },
  { base := 0x1200, count := 1, sub := 2, subs := 1, step := 1, ty := .u32, acc := .rw, set := false, dflt := 1024, perInst := false, chk := .range 16 1048576 },
  { base := 0x1200, count := 1, sub := 3, subs := 1, step := 1, ty := .u8, acc := .ro, set := false, dflt := 0, perInst := false, chk := .any },
  { base := 0x1200, count := 1, sub := 4, subs := 1, step := 1, ty := .u32, acc := .ro, set := false, dflt := 0, perInst := false, chk := .any },
  { base := 0x1200, count := 1, sub := 5, subs := 1, step := 1, ty := .u64, acc := .ro, set := false, dflt := 0, perInst := false, chk := .any },
  { base := 0x1200, count := 1, sub := 6, subs := 1, step := 1, ty := .u32, acc := .ro, set := false, dflt := 0, perInst := false, chk := .any },
  { base := 0x1200, count := 1, sub := 7, subs := 1, step := 1, ty := .u32, acc := .ro, set := false, dflt := 0, perInst := false, chk := .any },
  { base := 0x1200, count := 1, sub := 8, subs := 1, step := 1, ty := .bool, acc := .ro, set := false, dflt := 0, perInst := false, chk := .codes [0, 1] },
  { base := 0x1200, count := 1, sub := 9, subs := 1, step := 1, ty := .u8, acc := .wo, set := false, dflt := 0, perInst := false, chk := .codes [1] }]

/-- Rows of Table 21-3. -/
def objs3 : List ObjRow := [
  { base := 0x2000, count := 1, sub := 1, subs := 1, step := 1, ty := .u8, acc := .ro, set := false, dflt := 1, perInst := false, chk := .any },
  { base := 0x2000, count := 1, sub := 2, subs := 1, step := 1, ty := .u8, acc := .ro, set := false, dflt := 1, perInst := false, chk := .any },
  { base := 0x2000, count := 1, sub := 3, subs := 1, step := 1, ty := .u8, acc := .wo, set := false, dflt := 0, perInst := false, chk := .mood },
  { base := 0x2000, count := 1, sub := 4, subs := 1, step := 1, ty := .u8, acc := .rw, set := true, dflt := 3, perInst := false, chk := .range 2 6 },
  { base := 0x2000, count := 1, sub := 5, subs := 1, step := 1, ty := .u8, acc := .rw, set := true, dflt := 6, perInst := false, chk := .range 3 6 },
  { base := 0x2000, count := 1, sub := 6, subs := 1, step := 1, ty := .u32, acc := .rw, set := true, dflt := 2048, perInst := false, chk := .range 64 1048576 },
  { base := 0x2000, count := 1, sub := 7, subs := 1, step := 1, ty := .u8, acc := .rw, set := true, dflt := 4, perInst := false, chk := .range 4 6 },
  { base := 0x2000, count := 1, sub := 8, subs := 1, step := 1, ty := .u8, acc := .ro, set := false, dflt := 0, perInst := false, chk := .any },
  { base := 0x2000, count := 1, sub := 9, subs := 1, step := 1, ty := .u64, acc := .ro, set := false, dflt := 0, perInst := false, chk := .any },
  { base := 0x2000, count := 1, sub := 10, subs := 1, step := 1, ty := .u8, acc := .ro, set := false, dflt := 0, perInst := false, chk := .any },
  { base := 0x2000, count := 1, sub := 11, subs := 1, step := 1, ty := .u8, acc := .wo, set := false, dflt := 0, perInst := false, chk := .codes [1, 2] },
  { base := 0x2000, count := 1, sub := 12, subs := 1, step := 1, ty := .u8, acc := .ro, set := false, dflt := 0, perInst := false, chk := .any },
  { base := 0x2000, count := 1, sub := 13, subs := 1, step := 1, ty := .u32, acc := .ro, set := false, dflt := 0, perInst := false, chk := .any },
  { base := 0x2000, count := 1, sub := 14, subs := 1, step := 1, ty := .u32, acc := .ro, set := false, dflt := 0, perInst := false, chk := .any },
  { base := 0x2000, count := 1, sub := 15, subs := 1, step := 1, ty := .u32, acc := .ro, set := false, dflt := 0, perInst := false, chk := .any },
  { base := 0x2010, count := 8, sub := 1, subs := 1, step := 1, ty := .bool, acc := .rw, set := true, dflt := 0, perInst := false, chk := .codes [0, 1] },
  { base := 0x2010, count := 8, sub := 2, subs := 1, step := 1, ty := .u64, acc := .rw, set := true, dflt := 0, perInst := false, chk := .any },
  { base := 0x2010, count := 8, sub := 3, subs := 1, step := 1, ty := .u32, acc := .rw, set := true, dflt := 0, perInst := false, chk := .multiple 65536 0x5C00000 },
  { base := 0x2010, count := 8, sub := 4, subs := 1, step := 1, ty := .u64, acc := .rw, set := true, dflt := 0, perInst := false, chk := .any },
  { base := 0x2010, count := 8, sub := 5, subs := 1, step := 1, ty := .u8, acc := .ro, set := false, dflt := 0, perInst := false, chk := .any }]

/-- Rows of Table 21-3. -/
def objs3b : List ObjRow := [
  { base := 0x2100, count := 1, sub := 1, subs := 8, step := 1, ty := .u16, acc := .ro, set := false, dflt := 0, perInst := false, chk := .any },
  { base := 0x2100, count := 1, sub := 9, subs := 1, step := 1, ty := .u16, acc := .ro, set := false, dflt := 0, perInst := false, chk := .any },
  { base := 0x2100, count := 1, sub := 10, subs := 1, step := 1, ty := .u16, acc := .ro, set := false, dflt := 0, perInst := false, chk := .any },
  { base := 0x2100, count := 1, sub := 11, subs := 1, step := 1, ty := .u16, acc := .ro, set := false, dflt := 0, perInst := false, chk := .any },
  { base := 0x2100, count := 1, sub := 12, subs := 1, step := 1, ty := .bool, acc := .ro, set := false, dflt := 0, perInst := false, chk := .codes [0, 1] },
  { base := 0x2110, count := 1, sub := 1, subs := 8, step := 1, ty := .u16, acc := .rw, set := true, dflt := 1800, perInst := false, chk := .range 200 1800 }]

/-- Rows of Table 21-4. -/
def objs4 : List ObjRow := [
  { base := 0x2400, count := 1, sub := 1, subs := 1, step := 1, ty := .u64, acc := .wo, set := false, dflt := 0, perInst := false, chk := .range 1 (2 ^ 40) },
  { base := 0x2400, count := 1, sub := 2, subs := 1, step := 1, ty := .i64, acc := .ro, set := false, dflt := 0, perInst := false, chk := .any },
  { base := 0x2400, count := 1, sub := 3, subs := 1, step := 1, ty := .i64, acc := .ro, set := false, dflt := 0, perInst := false, chk := .any },
  { base := 0x2400, count := 1, sub := 4, subs := 1, step := 1, ty := .i64, acc := .ro, set := false, dflt := 0, perInst := false, chk := .any },
  { base := 0x2400, count := 1, sub := 5, subs := 1, step := 1, ty := .i64, acc := .ro, set := false, dflt := 0, perInst := false, chk := .any },
  { base := 0x2400, count := 1, sub := 6, subs := 1, step := 1, ty := .i64, acc := .ro, set := false, dflt := 0, perInst := false, chk := .any },
  { base := 0x2400, count := 1, sub := 7, subs := 1, step := 1, ty := .i64, acc := .rw, set := false, dflt := 0, perInst := false, chk := .any },
  { base := 0x2400, count := 1, sub := 8, subs := 1, step := 1, ty := .u32, acc := .ro, set := false, dflt := 0, perInst := false, chk := .any },
  { base := 0x2400, count := 1, sub := 9, subs := 1, step := 1, ty := .i64, acc := .rw, set := true, dflt := 50000000, perInst := false, chk := .any },
  { base := 0x2410, count := 16, sub := 1, subs := 1, step := 1, ty := .i64, acc := .wo, set := false, dflt := 0, perInst := false, chk := .magnitude },
  { base := 0x2410, count := 16, sub := 2, subs := 1, step := 1, ty := .i64, acc := .ro, set := false, dflt := 0, perInst := false, chk := .any },
  { base := 0x2410, count := 16, sub := 3, subs := 1, step := 1, ty := .i64, acc := .ro, set := false, dflt := 0, perInst := false, chk := .any },
  { base := 0x2410, count := 16, sub := 4, subs := 1, step := 1, ty := .i64, acc := .ro, set := false, dflt := 0, perInst := false, chk := .any },
  { base := 0x2410, count := 16, sub := 5, subs := 1, step := 1, ty := .u64, acc := .rw, set := true, dflt := 1000000000, perInst := false, chk := .range 1000 (2 ^ 40) },
  { base := 0x2410, count := 16, sub := 6, subs := 1, step := 1, ty := .i64, acc := .rw, set := false, dflt := 0, perInst := false, chk := .any },
  { base := 0x2410, count := 16, sub := 7, subs := 1, step := 1, ty := .i64, acc := .rw, set := true, dflt := 0, perInst := false, chk := .any },
  { base := 0x2410, count := 16, sub := 8, subs := 1, step := 1, ty := .u64, acc := .rw, set := true, dflt := 0, perInst := false, chk := .range 0 (2 ^ 40) },
  { base := 0x2410, count := 16, sub := 9, subs := 1, step := 1, ty := .u32, acc := .ro, set := false, dflt := 0, perInst := false, chk := .any },
  { base := 0x2410, count := 16, sub := 10, subs := 1, step := 1, ty := .u64, acc := .rw, set := false, dflt := 0, perInst := false, chk := .any },
  { base := 0x2410, count := 16, sub := 11, subs := 1, step := 1, ty := .u64, acc := .rw, set := false, dflt := 0, perInst := false, chk := .any }]

/-- Rows of Table 21-4. -/
def objs4b : List ObjRow := [
  { base := 0x2410, count := 16, sub := 12, subs := 1, step := 1, ty := .u32, acc := .ro, set := false, dflt := 0, perInst := false, chk := .any },
  { base := 0x2420, count := 1, sub := 1, subs := 1, step := 1, ty := .u16, acc := .rw, set := false, dflt := 0, perInst := false, chk := .range 0 10000 },
  { base := 0x2420, count := 1, sub := 2, subs := 1, step := 1, ty := .u32, acc := .rw, set := false, dflt := 0, perInst := false, chk := .any },
  { base := 0x2420, count := 1, sub := 3, subs := 1, step := 1, ty := .u32, acc := .rw, set := false, dflt := 0, perInst := false, chk := .any },
  { base := 0x2420, count := 1, sub := 4, subs := 1, step := 1, ty := .u32, acc := .rw, set := false, dflt := 0, perInst := false, chk := .any },
  { base := 0x2420, count := 1, sub := 5, subs := 1, step := 1, ty := .u64, acc := .ro, set := false, dflt := 0, perInst := false, chk := .any },
  { base := 0x2420, count := 1, sub := 6, subs := 1, step := 1, ty := .u32, acc := .rw, set := true, dflt := 150, perInst := false, chk := .range 10 2000 },
  { base := 0x2420, count := 1, sub := 7, subs := 1, step := 1, ty := .u16, acc := .rw, set := true, dflt := 500, perInst := false, chk := .range 1 1000 },
  { base := 0x2420, count := 1, sub := 8, subs := 1, step := 1, ty := .u16, acc := .rw, set := true, dflt := 880, perInst := false, chk := .range 500 1000 },
  { base := 0x2420, count := 1, sub := 9, subs := 1, step := 1, ty := .u32, acc := .rw, set := true, dflt := 4500, perInst := false, chk := .any },
  { base := 0x2420, count := 1, sub := 10, subs := 1, step := 1, ty := .u16, acc := .rw, set := true, dflt := 2000, perInst := false, chk := .any },
  { base := 0x2420, count := 1, sub := 11, subs := 1, step := 1, ty := .bool, acc := .ro, set := false, dflt := 1, perInst := false, chk := .codes [0, 1] },
  { base := 0x2420, count := 1, sub := 12, subs := 1, step := 1, ty := .u8, acc := .rw, set := true, dflt := 0, perInst := false, chk := .codes [0, 1] },
  { base := 0x2420, count := 1, sub := 13, subs := 1, step := 1, ty := .u32, acc := .rw, set := true, dflt := 62500, perInst := false, chk := .any },
  { base := 0x2430, count := 1, sub := 1, subs := 1, step := 1, ty := .u8, acc := .rw, set := true, dflt := 3, perInst := false, chk := .range 0 5 },
  { base := 0x2430, count := 1, sub := 2, subs := 1, step := 1, ty := .u64, acc := .ro, set := false, dflt := 0, perInst := false, chk := .any },
  { base := 0x2430, count := 1, sub := 3, subs := 1, step := 1, ty := .u8, acc := .ro, set := false, dflt := 0, perInst := false, chk := .any },
  { base := 0x2430, count := 1, sub := 4, subs := 1, step := 1, ty := .u32, acc := .ro, set := false, dflt := 0, perInst := false, chk := .any },
  { base := 0x2430, count := 1, sub := 5, subs := 1, step := 1, ty := .u32, acc := .ro, set := false, dflt := 0, perInst := false, chk := .any },
  { base := 0x2500, count := 1, sub := 1, subs := 1, step := 1, ty := .f32, acc := .rw, set := true, dflt := 0x42BE0000, perInst := false, chk := .any }]

/-- Rows of Table 21-4. -/
def objs4c : List ObjRow := [
  { base := 0x2500, count := 1, sub := 2, subs := 1, step := 1, ty := .f32, acc := .rw, set := true, dflt := 0x3EB33333, perInst := false, chk := .any },
  { base := 0x2500, count := 1, sub := 3, subs := 1, step := 1, ty := .f32, acc := .rw, set := true, dflt := 0x3FC00000, perInst := false, chk := .any },
  { base := 0x2500, count := 1, sub := 4, subs := 1, step := 1, ty := .f32, acc := .rw, set := true, dflt := 0x3FE66666, perInst := false, chk := .any },
  { base := 0x2500, count := 1, sub := 5, subs := 1, step := 1, ty := .f32, acc := .rw, set := true, dflt := 0x41F00000, perInst := false, chk := .any },
  { base := 0x2500, count := 1, sub := 6, subs := 1, step := 1, ty := .f32, acc := .rw, set := false, dflt := 0x420C0000, perInst := false, chk := .any },
  { base := 0x2500, count := 1, sub := 7, subs := 1, step := 1, ty := .f32, acc := .ro, set := false, dflt := 0x0, perInst := false, chk := .any },
  { base := 0x2500, count := 1, sub := 8, subs := 1, step := 1, ty := .f32, acc := .ro, set := false, dflt := 0x420C0000, perInst := false, chk := .any },
  { base := 0x2500, count := 1, sub := 9, subs := 1, step := 1, ty := .f32, acc := .ro, set := false, dflt := 0x0, perInst := false, chk := .any },
  { base := 0x2500, count := 1, sub := 10, subs := 1, step := 1, ty := .f32, acc := .rw, set := true, dflt := 0x42DC0000, perInst := false, chk := .range 0x42BE0000 0x42E60000 },
  { base := 0x2500, count := 1, sub := 11, subs := 1, step := 1, ty := .f32, acc := .rw, set := true, dflt := 0x42C80000, perInst := false, chk := .range 0x42AA0000 0x42D20000 },
  { base := 0x2500, count := 1, sub := 12, subs := 1, step := 1, ty := .bool, acc := .ro, set := false, dflt := 0, perInst := false, chk := .codes [0, 1] },
  { base := 0x2500, count := 1, sub := 13, subs := 1, step := 1, ty := .u32, acc := .ro, set := false, dflt := 0, perInst := false, chk := .any },
  { base := 0x2510, count := 12, sub := 1, subs := 1, step := 1, ty := .f32, acc := .ro, set := false, dflt := 0x0, perInst := false, chk := .any },
  { base := 0x2600, count := 1, sub := 1, subs := 1, step := 1, ty := .u8, acc := .ro, set := false, dflt := 0, perInst := false, chk := .any },
  { base := 0x2600, count := 1, sub := 2, subs := 1, step := 1, ty := .u8, acc := .ro, set := false, dflt := 0, perInst := false, chk := .any },
  { base := 0x2610, count := 8, sub := 1, subs := 1, step := 1, ty := .u16, acc := .ro, set := false, dflt := 0, perInst := false, chk := .any },
  { base := 0x2610, count := 8, sub := 2, subs := 1, step := 1, ty := .u8, acc := .ro, set := false, dflt := 0, perInst := false, chk := .any },
  { base := 0x2610, count := 8, sub := 3, subs := 1, step := 1, ty := .u16, acc := .ro, set := false, dflt := 0xFFFF, perInst := false, chk := .any },
  { base := 0x2610, count := 8, sub := 4, subs := 1, step := 1, ty := .u32, acc := .ro, set := false, dflt := 0, perInst := false, chk := .any },
  { base := 0x2610, count := 8, sub := 5, subs := 1, step := 1, ty := .u32, acc := .ro, set := false, dflt := 0, perInst := false, chk := .any }]

/-- Rows of Table 21-5. -/
def objs5 : List ObjRow := [
  { base := 0x3000, count := 1, sub := 1, subs := 1, step := 1, ty := .u16, acc := .ro, set := false, dflt := 0, perInst := false, chk := .any },
  { base := 0x3000, count := 1, sub := 2, subs := 1, step := 1, ty := .u32, acc := .ro, set := false, dflt := 0, perInst := false, chk := .any },
  { base := 0x3010, count := 16, sub := 1, subs := 1, step := 1, ty := .bool, acc := .rw, set := true, dflt := 0, perInst := false, chk := .codes [0, 1] },
  { base := 0x3010, count := 16, sub := 2, subs := 1, step := 1, ty := .u64, acc := .rw, set := true, dflt := 0, perInst := false, chk := .any },
  { base := 0x3010, count := 16, sub := 3, subs := 1, step := 1, ty := .u8, acc := .rw, set := true, dflt := 0xFF, perInst := false, chk := .codes [0, 1, 2, 3, 4, 5, 6, 7, 8, 9, 10, 11, 12, 13, 14, 15, 255] },
  { base := 0x3010, count := 16, sub := 4, subs := 1, step := 1, ty := .u8, acc := .rw, set := true, dflt := 0, perInst := false, chk := .codes [0, 1] },
  { base := 0x3010, count := 16, sub := 5, subs := 1, step := 1, ty := .u8, acc := .ro, set := false, dflt := 0, perInst := false, chk := .any },
  { base := 0x3010, count := 16, sub := 6, subs := 1, step := 1, ty := .u8, acc := .wo, set := false, dflt := 0, perInst := false, chk := .codes [1] },
  { base := 0x3010, count := 16, sub := 7, subs := 1, step := 1, ty := .u32, acc := .ro, set := false, dflt := 0, perInst := false, chk := .any },
  { base := 0x3010, count := 16, sub := 8, subs := 1, step := 1, ty := .u32, acc := .ro, set := false, dflt := 0, perInst := false, chk := .any },
  { base := 0x3010, count := 16, sub := 9, subs := 1, step := 1, ty := .u32, acc := .ro, set := false, dflt := 0, perInst := false, chk := .any },
  { base := 0x3010, count := 16, sub := 10, subs := 1, step := 1, ty := .u8, acc := .ro, set := false, dflt := 0, perInst := false, chk := .any },
  { base := 0x3020, count := 16, sub := 1, subs := 1, step := 1, ty := .u32, acc := .ro, set := false, dflt := 0, perInst := false, chk := .any },
  { base := 0x3020, count := 16, sub := 2, subs := 1, step := 1, ty := .u64, acc := .ro, set := false, dflt := 0, perInst := false, chk := .any },
  { base := 0x3020, count := 16, sub := 3, subs := 1, step := 1, ty := .domain 2480, acc := .ro, set := false, dflt := 0, perInst := false, chk := .any },
  { base := 0x3020, count := 16, sub := 4, subs := 1, step := 1, ty := .u16, acc := .ro, set := false, dflt := 0, perInst := false, chk := .any },
  { base := 0x3100, count := 1, sub := 1, subs := 1, step := 1, ty := .domain 512, acc := .rw, set := true, dflt := 0, perInst := false, chk := .any },
  { base := 0x3100, count := 1, sub := 2, subs := 1, step := 1, ty := .domain 2048, acc := .rw, set := true, dflt := 0, perInst := false, chk := .any },
  { base := 0x3100, count := 1, sub := 3, subs := 1, step := 1, ty := .u32, acc := .rw, set := false, dflt := 0, perInst := false, chk := .range 0 131071 },
  { base := 0x3100, count := 1, sub := 4, subs := 1, step := 1, ty := .u32, acc := .rw, set := false, dflt := 0, perInst := false, chk := .any }]

/-- Rows of Table 21-5. -/
def objs5b : List ObjRow := [
  { base := 0x3100, count := 1, sub := 5, subs := 1, step := 1, ty := .u32, acc := .ro, set := false, dflt := 0, perInst := false, chk := .any },
  { base := 0x3100, count := 1, sub := 6, subs := 1, step := 1, ty := .u32, acc := .ro, set := false, dflt := 0, perInst := false, chk := .any },
  { base := 0x3100, count := 1, sub := 7, subs := 1, step := 1, ty := .u64, acc := .ro, set := false, dflt := 0, perInst := false, chk := .any }]

/-- Rows of Table 21-6. -/
def objs6 : List ObjRow := [
  { base := 0x4000, count := 1, sub := 1, subs := 1, step := 1, ty := .u64, acc := .ro, set := false, dflt := 0x6000000, perInst := false, chk := .any },
  { base := 0x4000, count := 1, sub := 2, subs := 1, step := 1, ty := .u64, acc := .ro, set := false, dflt := 0x400000000, perInst := false, chk := .any },
  { base := 0x4000, count := 1, sub := 3, subs := 1, step := 1, ty := .u32, acc := .ro, set := false, dflt := 0, perInst := false, chk := .any },
  { base := 0x4010, count := 1, sub := 1, subs := 1, step := 1, ty := .u32, acc := .rw, set := true, dflt := 4194304, perInst := false, chk := .range 1048576 268435456 },
  { base := 0x4010, count := 1, sub := 2, subs := 1, step := 1, ty := .u32, acc := .rw, set := true, dflt := 1073741824, perInst := false, chk := .range 268435456 4294967295 },
  { base := 0x4010, count := 1, sub := 3, subs := 1, step := 1, ty := .u32, acc := .ro, set := false, dflt := 0, perInst := false, chk := .any },
  { base := 0x4010, count := 1, sub := 4, subs := 1, step := 1, ty := .u32, acc := .ro, set := false, dflt := 0, perInst := false, chk := .any },
  { base := 0x4010, count := 1, sub := 5, subs := 1, step := 1, ty := .u32, acc := .ro, set := false, dflt := 0, perInst := false, chk := .any },
  { base := 0x4010, count := 1, sub := 6, subs := 1, step := 1, ty := .u32, acc := .ro, set := false, dflt := 0, perInst := false, chk := .any },
  { base := 0x4010, count := 1, sub := 7, subs := 1, step := 1, ty := .u64, acc := .ro, set := false, dflt := 0, perInst := false, chk := .any },
  { base := 0x4010, count := 1, sub := 8, subs := 1, step := 1, ty := .u32, acc := .ro, set := false, dflt := 0, perInst := false, chk := .any },
  { base := 0x4020, count := 1, sub := 1, subs := 1, step := 1, ty := .u32, acc := .ro, set := false, dflt := 0, perInst := false, chk := .any },
  { base := 0x4020, count := 1, sub := 2, subs := 1, step := 1, ty := .u32, acc := .ro, set := false, dflt := 0, perInst := false, chk := .any },
  { base := 0x4020, count := 1, sub := 3, subs := 1, step := 1, ty := .u32, acc := .ro, set := false, dflt := 0, perInst := false, chk := .any },
  { base := 0x4020, count := 1, sub := 4, subs := 1, step := 1, ty := .u32, acc := .ro, set := false, dflt := 0, perInst := false, chk := .any },
  { base := 0x4030, count := 1, sub := 1, subs := 1, step := 1, ty := .u64, acc := .rw, set := false, dflt := 0, perInst := false, chk := .peekAddress },
  { base := 0x4030, count := 1, sub := 2, subs := 1, step := 1, ty := .u16, acc := .rw, set := false, dflt := 8, perInst := false, chk := .peekLength },
  { base := 0x4030, count := 1, sub := 3, subs := 1, step := 1, ty := .domain 8192, acc := .ro, set := false, dflt := 0, perInst := false, chk := .any },
  { base := 0x4030, count := 1, sub := 4, subs := 1, step := 1, ty := .domain 128, acc := .ro, set := false, dflt := 0, perInst := false, chk := .any },
  { base := 0x4030, count := 1, sub := 5, subs := 1, step := 1, ty := .domain 8192, acc := .wo, set := false, dflt := 0, perInst := false, chk := .any }]

/-- Rows of Table 21-6. -/
def objs6b : List ObjRow := [
  { base := 0x4100, count := 16, sub := 1, subs := 8, step := 3, ty := .u64, acc := .rw, set := true, dflt := 0, perInst := false, chk := .any },
  { base := 0x4100, count := 16, sub := 2, subs := 8, step := 3, ty := .u64, acc := .rw, set := true, dflt := 0, perInst := false, chk := .any },
  { base := 0x4100, count := 16, sub := 3, subs := 8, step := 3, ty := .u8, acc := .rw, set := true, dflt := 0, perInst := false, chk := .low 3 }]

/-- Rows of Table 21-7. -/
def objs7 : List ObjRow := [
  { base := 0x5000, count := 1, sub := 1, subs := 1, step := 1, ty := .u8, acc := .ro, set := false, dflt := 16, perInst := false, chk := .any },
  { base := 0x5000, count := 1, sub := 2, subs := 1, step := 1, ty := .u32, acc := .ro, set := false, dflt := 0, perInst := false, chk := .any },
  { base := 0x5010, count := 64, sub := 1, subs := 1, step := 1, ty := .u8, acc := .ro, set := false, dflt := 0, perInst := false, chk := .any },
  { base := 0x5010, count := 64, sub := 2, subs := 1, step := 1, ty := .u32, acc := .ro, set := false, dflt := 0, perInst := false, chk := .any },
  { base := 0x5010, count := 64, sub := 3, subs := 1, step := 1, ty := .u8, acc := .wo, set := false, dflt := 0, perInst := false, chk := .codes [1, 2, 3] },
  { base := 0x5010, count := 64, sub := 4, subs := 1, step := 1, ty := .u8, acc := .ro, set := false, dflt := 0, perInst := false, chk := .any },
  { base := 0x5010, count := 64, sub := 5, subs := 1, step := 1, ty := .domain 48, acc := .ro, set := false, dflt := 0, perInst := false, chk := .any },
  { base := 0x5010, count := 64, sub := 6, subs := 1, step := 1, ty := .domain 48, acc := .ro, set := false, dflt := 0, perInst := false, chk := .any },
  { base := 0x5010, count := 64, sub := 7, subs := 1, step := 1, ty := .domain 1024, acc := .ro, set := false, dflt := 0, perInst := false, chk := .any },
  { base := 0x5010, count := 64, sub := 8, subs := 1, step := 1, ty := .u8, acc := .ro, set := false, dflt := 0, perInst := false, chk := .any },
  { base := 0x5010, count := 64, sub := 9, subs := 1, step := 1, ty := .u32, acc := .ro, set := false, dflt := 0, perInst := false, chk := .any },
  { base := 0x5010, count := 64, sub := 10, subs := 1, step := 1, ty := .u32, acc := .ro, set := false, dflt := 0, perInst := false, chk := .any },
  { base := 0x5010, count := 64, sub := 11, subs := 1, step := 1, ty := .u64, acc := .ro, set := false, dflt := 0, perInst := false, chk := .any },
  { base := 0x5010, count := 64, sub := 12, subs := 1, step := 1, ty := .u32, acc := .rw, set := true, dflt := 1, perInst := true, chk := .range 1 4294967295 },
  { base := 0x5010, count := 64, sub := 13, subs := 1, step := 1, ty := .u32, acc := .ro, set := false, dflt := 1, perInst := true, chk := .any },
  { base := 0x5050, count := 16, sub := 1, subs := 1, step := 1, ty := .u8, acc := .wo, set := false, dflt := 0, perInst := false, chk := .codes [1, 2, 3] },
  { base := 0x5050, count := 16, sub := 2, subs := 1, step := 1, ty := .u8, acc := .ro, set := false, dflt := 0, perInst := false, chk := .any },
  { base := 0x5400, count := 16, sub := 1, subs := 1, step := 1, ty := .u8, acc := .ro, set := false, dflt := 0, perInst := false, chk := .any },
  { base := 0x5400, count := 16, sub := 2, subs := 1, step := 1, ty := .u64, acc := .ro, set := false, dflt := 0, perInst := false, chk := .any },
  { base := 0x5400, count := 16, sub := 3, subs := 1, step := 1, ty := .u64, acc := .ro, set := false, dflt := 0, perInst := false, chk := .any }]

/-- Rows of Table 21-7. -/
def objs7b : List ObjRow := [
  { base := 0x5400, count := 16, sub := 4, subs := 1, step := 1, ty := .u64, acc := .ro, set := false, dflt := 0, perInst := false, chk := .any },
  { base := 0x5400, count := 16, sub := 5, subs := 1, step := 1, ty := .u64, acc := .ro, set := false, dflt := 0xFFFFFFFFFFFFFFFF, perInst := false, chk := .any },
  { base := 0x5400, count := 16, sub := 6, subs := 1, step := 1, ty := .u16, acc := .ro, set := false, dflt := 0, perInst := false, chk := .any },
  { base := 0x5400, count := 16, sub := 7, subs := 1, step := 1, ty := .u64, acc := .ro, set := false, dflt := 0, perInst := false, chk := .any },
  { base := 0x5400, count := 16, sub := 8, subs := 1, step := 1, ty := .u32, acc := .ro, set := false, dflt := 0, perInst := false, chk := .any },
  { base := 0x5400, count := 16, sub := 9, subs := 1, step := 1, ty := .u64, acc := .ro, set := false, dflt := 0, perInst := false, chk := .any },
  { base := 0x5400, count := 16, sub := 10, subs := 1, step := 1, ty := .u64, acc := .ro, set := false, dflt := 0, perInst := false, chk := .any },
  { base := 0x5810, count := 16, sub := 1, subs := 1, step := 1, ty := .u64, acc := .rw, set := true, dflt := 0, perInst := false, chk := .any },
  { base := 0x5810, count := 16, sub := 2, subs := 1, step := 1, ty := .u32, acc := .rw, set := true, dflt := 4096, perInst := false, chk := .pow2 512 131072 },
  { base := 0x5810, count := 16, sub := 3, subs := 1, step := 1, ty := .bool, acc := .rw, set := true, dflt := 0, perInst := false, chk := .codes [0, 1] },
  { base := 0x5810, count := 16, sub := 4, subs := 1, step := 1, ty := .u64, acc := .rw, set := true, dflt := 0, perInst := false, chk := .any },
  { base := 0x5810, count := 16, sub := 5, subs := 1, step := 1, ty := .u32, acc := .rw, set := true, dflt := 1024, perInst := false, chk := .pow2 64 65536 },
  { base := 0x5810, count := 16, sub := 6, subs := 1, step := 1, ty := .bool, acc := .rw, set := true, dflt := 0, perInst := false, chk := .codes [0, 1] },
  { base := 0x5810, count := 16, sub := 7, subs := 1, step := 1, ty := .u8, acc := .rw, set := true, dflt := 0xFF, perInst := false, chk := .vector },
  { base := 0x5810, count := 16, sub := 8, subs := 1, step := 1, ty := .u32, acc := .ro, set := false, dflt := 0, perInst := false, chk := .any },
  { base := 0x5810, count := 16, sub := 9, subs := 1, step := 1, ty := .u32, acc := .ro, set := false, dflt := 0, perInst := false, chk := .any },
  { base := 0x5810, count := 16, sub := 10, subs := 1, step := 1, ty := .u32, acc := .ro, set := false, dflt := 0, perInst := false, chk := .any },
  { base := 0x5810, count := 16, sub := 11, subs := 1, step := 1, ty := .u16, acc := .ro, set := false, dflt := 0, perInst := false, chk := .any },
  { base := 0x5810, count := 16, sub := 12, subs := 1, step := 1, ty := .u32, acc := .ro, set := false, dflt := 0, perInst := false, chk := .any },
  { base := 0x5810, count := 16, sub := 13, subs := 1, step := 1, ty := .u32, acc := .ro, set := false, dflt := 0, perInst := false, chk := .any }]

/-- Rows of Table 21-7. -/
def objs7c : List ObjRow := [
  { base := 0x5810, count := 16, sub := 14, subs := 1, step := 1, ty := .u32, acc := .ro, set := false, dflt := 0, perInst := false, chk := .any },
  { base := 0x5810, count := 16, sub := 15, subs := 1, step := 1, ty := .u64, acc := .ro, set := false, dflt := 0, perInst := false, chk := .any },
  { base := 0x5880, count := 64, sub := 1, subs := 1, step := 1, ty := .u64, acc := .rw, set := true, dflt := 0, perInst := false, chk := .any },
  { base := 0x5880, count := 64, sub := 2, subs := 1, step := 1, ty := .u32, acc := .rw, set := true, dflt := 4096, perInst := false, chk := .pow2 512 131072 },
  { base := 0x5880, count := 64, sub := 3, subs := 1, step := 1, ty := .bool, acc := .rw, set := true, dflt := 0, perInst := false, chk := .codes [0, 1] },
  { base := 0x5880, count := 64, sub := 4, subs := 1, step := 1, ty := .u32, acc := .ro, set := false, dflt := 0, perInst := false, chk := .any },
  { base := 0x5440, count := 64, sub := 1, subs := 1, step := 1, ty := .u8, acc := .ro, set := false, dflt := 0, perInst := false, chk := .any },
  { base := 0x5440, count := 64, sub := 2, subs := 1, step := 1, ty := .u64, acc := .ro, set := false, dflt := 0, perInst := false, chk := .any },
  { base := 0x5440, count := 64, sub := 3, subs := 1, step := 1, ty := .u64, acc := .ro, set := false, dflt := 0, perInst := false, chk := .any },
  { base := 0x5440, count := 64, sub := 4, subs := 1, step := 1, ty := .u64, acc := .ro, set := false, dflt := 0, perInst := false, chk := .any },
  { base := 0x5440, count := 64, sub := 5, subs := 1, step := 1, ty := .u64, acc := .ro, set := false, dflt := 0xFFFFFFFFFFFFFFFF, perInst := false, chk := .any },
  { base := 0x5440, count := 64, sub := 6, subs := 1, step := 1, ty := .u16, acc := .ro, set := false, dflt := 0, perInst := false, chk := .any },
  { base := 0x5440, count := 64, sub := 7, subs := 1, step := 1, ty := .u64, acc := .ro, set := false, dflt := 0, perInst := false, chk := .any },
  { base := 0x5440, count := 64, sub := 8, subs := 1, step := 1, ty := .u32, acc := .ro, set := false, dflt := 0, perInst := false, chk := .any },
  { base := 0x5440, count := 64, sub := 9, subs := 1, step := 1, ty := .u64, acc := .ro, set := false, dflt := 0, perInst := false, chk := .any },
  { base := 0x5440, count := 64, sub := 10, subs := 1, step := 1, ty := .u64, acc := .ro, set := false, dflt := 0, perInst := false, chk := .any }]

/-- Rows of Table 21-8. -/
def objs8 : List ObjRow := [
  { base := 0x6000, count := 1, sub := 1, subs := 1, step := 1, ty := .u32, acc := .rw, set := true, dflt := 123361, perInst := false, chk := .range 20972 1048576 },
  { base := 0x6000, count := 1, sub := 2, subs := 1, step := 1, ty := .u8, acc := .ro, set := false, dflt := 16, perInst := false, chk := .any },
  { base := 0x6000, count := 1, sub := 3, subs := 1, step := 1, ty := .u64, acc := .ro, set := false, dflt := 0, perInst := false, chk := .any },
  { base := 0x6000, count := 1, sub := 4, subs := 1, step := 1, ty := .u32, acc := .ro, set := false, dflt := 0, perInst := false, chk := .any },
  { base := 0x6000, count := 1, sub := 5, subs := 1, step := 1, ty := .u32, acc := .ro, set := false, dflt := 0, perInst := false, chk := .any },
  { base := 0x6000, count := 1, sub := 6, subs := 1, step := 1, ty := .domain 36, acc := .ro, set := false, dflt := 0, perInst := false, chk := .any },
  { base := 0x6000, count := 1, sub := 7, subs := 1, step := 1, ty := .domain 36, acc := .ro, set := false, dflt := 0, perInst := false, chk := .any },
  { base := 0x6010, count := 8, sub := 1, subs := 1, step := 1, ty := .bool, acc := .rw, set := true, dflt := 0, perInst := false, chk := .codes [0, 1] },
  { base := 0x6010, count := 8, sub := 2, subs := 1, step := 1, ty := .u8, acc := .ro, set := false, dflt := 0, perInst := false, chk := .any },
  { base := 0x6010, count := 8, sub := 3, subs := 1, step := 1, ty := .domain 34, acc := .ro, set := false, dflt := 0, perInst := false, chk := .any },
  { base := 0x6010, count := 8, sub := 4, subs := 1, step := 1, ty := .domain 32, acc := .ro, set := false, dflt := 0, perInst := false, chk := .any },
  { base := 0x6010, count := 8, sub := 5, subs := 1, step := 1, ty := .domain 68, acc := .ro, set := false, dflt := 0, perInst := false, chk := .any },
  { base := 0x6010, count := 8, sub := 6, subs := 1, step := 1, ty := .domain 204, acc := .ro, set := false, dflt := 0, perInst := false, chk := .any },
  { base := 0x6010, count := 8, sub := 7, subs := 1, step := 1, ty := .domain 204, acc := .ro, set := false, dflt := 0, perInst := false, chk := .any },
  { base := 0x6010, count := 8, sub := 8, subs := 1, step := 1, ty := .u32, acc := .ro, set := false, dflt := 0, perInst := false, chk := .any },
  { base := 0x6100, count := 1, sub := 1, subs := 1, step := 1, ty := .u64, acc := .rw, set := true, dflt := 0, perInst := false, chk := .low 48 },
  { base := 0x6100, count := 1, sub := 2, subs := 1, step := 1, ty := .u8, acc := .rw, set := true, dflt := 0, perInst := false, chk := .range 0 7 },
  { base := 0x6100, count := 1, sub := 3, subs := 1, step := 1, ty := .u8, acc := .ro, set := false, dflt := 0, perInst := false, chk := .any },
  { base := 0x6100, count := 1, sub := 4, subs := 1, step := 1, ty := .u8, acc := .ro, set := false, dflt := 0, perInst := false, chk := .any },
  { base := 0x6100, count := 1, sub := 5, subs := 1, step := 1, ty := .u16, acc := .rw, set := true, dflt := 150, perInst := false, chk := .range 50 1000 }]

/-- Rows of Table 21-8. -/
def objs8b : List ObjRow := [
  { base := 0x6100, count := 1, sub := 6, subs := 1, step := 1, ty := .u16, acc := .rw, set := true, dflt := 300, perInst := false, chk := .range 100 2000 },
  { base := 0x6100, count := 1, sub := 7, subs := 1, step := 1, ty := .u32, acc := .rw, set := true, dflt := 4194304, perInst := false, chk := .range 1048576 16777216 },
  { base := 0x6100, count := 1, sub := 8, subs := 1, step := 1, ty := .u32, acc := .rw, set := true, dflt := 167764, perInst := false, chk := .range 0 4194304 },
  { base := 0x6100, count := 1, sub := 9, subs := 1, step := 1, ty := .u64, acc := .ro, set := false, dflt := 0, perInst := false, chk := .any },
  { base := 0x6100, count := 1, sub := 10, subs := 1, step := 1, ty := .u32, acc := .ro, set := false, dflt := 0, perInst := false, chk := .any },
  { base := 0x6100, count := 1, sub := 11, subs := 1, step := 1, ty := .u32, acc := .ro, set := false, dflt := 0, perInst := false, chk := .any },
  { base := 0x6100, count := 1, sub := 12, subs := 1, step := 1, ty := .u8, acc := .wo, set := false, dflt := 0, perInst := false, chk := .codes [1] },
  { base := 0x6100, count := 1, sub := 13, subs := 1, step := 1, ty := .u64, acc := .ro, set := false, dflt := 0, perInst := false, chk := .any }]

/-- Rows of Table 21-9. -/
def objs9 : List ObjRow := [
  { base := 0x6400, count := 1, sub := 1, subs := 1, step := 1, ty := .u16, acc := .rw, set := true, dflt := 0, perInst := false, chk := .low 12 },
  { base := 0x6400, count := 1, sub := 2, subs := 1, step := 1, ty := .u8, acc := .rw, set := true, dflt := 1, perInst := false, chk := .range 1 16 },
  { base := 0x6400, count := 1, sub := 3, subs := 1, step := 1, ty := .u8, acc := .rw, set := true, dflt := 1, perInst := false, chk := .range 1 16 },
  { base := 0x6400, count := 1, sub := 4, subs := 1, step := 1, ty := .u8, acc := .rw, set := true, dflt := 1, perInst := false, chk := .range 1 16 },
  { base := 0x6400, count := 1, sub := 5, subs := 1, step := 1, ty := .u8, acc := .rw, set := true, dflt := 0, perInst := false, chk := .codes [0, 1, 2, 3] },
  { base := 0x6400, count := 1, sub := 6, subs := 1, step := 1, ty := .u32, acc := .rw, set := true, dflt := 1048576, perInst := false, chk := .range 65536 16777216 },
  { base := 0x6400, count := 1, sub := 7, subs := 1, step := 1, ty := .u32, acc := .rw, set := true, dflt := 1048576, perInst := false, chk := .range 4096 16777216 },
  { base := 0x6400, count := 1, sub := 8, subs := 1, step := 1, ty := .u16, acc := .ro, set := false, dflt := 0, perInst := false, chk := .any },
  { base := 0x6400, count := 1, sub := 9, subs := 1, step := 1, ty := .u32, acc := .ro, set := false, dflt := 0, perInst := false, chk := .any },
  { base := 0x6400, count := 1, sub := 10, subs := 1, step := 1, ty := .u32, acc := .ro, set := false, dflt := 0, perInst := false, chk := .any },
  { base := 0x6400, count := 1, sub := 11, subs := 1, step := 1, ty := .u32, acc := .ro, set := false, dflt := 0, perInst := false, chk := .any },
  { base := 0x6400, count := 1, sub := 12, subs := 1, step := 1, ty := .u32, acc := .ro, set := false, dflt := 0, perInst := false, chk := .any },
  { base := 0x6400, count := 1, sub := 13, subs := 1, step := 1, ty := .u16, acc := .ro, set := false, dflt := 0, perInst := false, chk := .any },
  { base := 0x6410, count := 8, sub := 1, subs := 1, step := 1, ty := .u16, acc := .ro, set := false, dflt := 0xFFFF, perInst := false, chk := .any },
  { base := 0x6410, count := 8, sub := 2, subs := 1, step := 1, ty := .u8, acc := .ro, set := false, dflt := 0, perInst := false, chk := .any },
  { base := 0x6410, count := 8, sub := 3, subs := 1, step := 1, ty := .u64, acc := .ro, set := false, dflt := 0, perInst := false, chk := .any },
  { base := 0x6410, count := 8, sub := 4, subs := 1, step := 1, ty := .u64, acc := .ro, set := false, dflt := 0, perInst := false, chk := .any },
  { base := 0x6410, count := 8, sub := 5, subs := 1, step := 1, ty := .u32, acc := .ro, set := false, dflt := 0, perInst := false, chk := .any },
  { base := 0x6410, count := 8, sub := 6, subs := 1, step := 1, ty := .u32, acc := .ro, set := false, dflt := 0, perInst := false, chk := .any },
  { base := 0x6410, count := 8, sub := 7, subs := 1, step := 1, ty := .u32, acc := .ro, set := false, dflt := 0, perInst := false, chk := .any }]

/-- Rows of Table 21-9. -/
def objs9b : List ObjRow := [
  { base := 0x6410, count := 8, sub := 8, subs := 1, step := 1, ty := .u32, acc := .ro, set := false, dflt := 0, perInst := false, chk := .any },
  { base := 0x6800, count := 1, sub := 1, subs := 1, step := 1, ty := .bool, acc := .rw, set := true, dflt := 0, perInst := false, chk := .codes [0, 1] },
  { base := 0x6800, count := 1, sub := 2, subs := 1, step := 1, ty := .u8, acc := .ro, set := false, dflt := 0, perInst := false, chk := .any },
  { base := 0x6800, count := 1, sub := 3, subs := 1, step := 1, ty := .u8, acc := .ro, set := false, dflt := 0, perInst := false, chk := .any },
  { base := 0x6800, count := 1, sub := 4, subs := 1, step := 1, ty := .u8, acc := .rw, set := true, dflt := 0, perInst := false, chk := .codes [0, 1] },
  { base := 0x6800, count := 1, sub := 5, subs := 1, step := 1, ty := .u32, acc := .rw, set := true, dflt := 1024, perInst := false, chk := .range 256 65536 },
  { base := 0x6800, count := 1, sub := 6, subs := 1, step := 1, ty := .f32, acc := .rw, set := true, dflt := 0x3F000000, perInst := false, chk := .range 0x3DCCCCCD 0x40800000 },
  { base := 0x6800, count := 1, sub := 7, subs := 1, step := 1, ty := .u32, acc := .rw, set := true, dflt := 64, perInst := false, chk := .range 0 65536 },
  { base := 0x6800, count := 1, sub := 8, subs := 1, step := 1, ty := .u64, acc := .ro, set := false, dflt := 0, perInst := false, chk := .any },
  { base := 0x6800, count := 1, sub := 9, subs := 1, step := 1, ty := .u32, acc := .ro, set := false, dflt := 0, perInst := false, chk := .any },
  { base := 0x6800, count := 1, sub := 10, subs := 1, step := 1, ty := .u32, acc := .ro, set := false, dflt := 0, perInst := false, chk := .any },
  { base := 0x6800, count := 1, sub := 11, subs := 1, step := 1, ty := .u64, acc := .ro, set := false, dflt := 0, perInst := false, chk := .any },
  { base := 0x6800, count := 1, sub := 12, subs := 1, step := 1, ty := .u32, acc := .ro, set := false, dflt := 0, perInst := false, chk := .any },
  { base := 0x6800, count := 1, sub := 13, subs := 1, step := 1, ty := .f32, acc := .ro, set := false, dflt := 0x0, perInst := false, chk := .any },
  { base := 0x6800, count := 1, sub := 14, subs := 1, step := 1, ty := .u8, acc := .ro, set := false, dflt := 0xFF, perInst := false, chk := .any },
  { base := 0x6800, count := 1, sub := 15, subs := 1, step := 1, ty := .domain 256, acc := .ro, set := false, dflt := 0, perInst := false, chk := .any },
  { base := 0x6800, count := 1, sub := 16, subs := 1, step := 1, ty := .domain 8192, acc := .ro, set := false, dflt := 0, perInst := false, chk := .any },
  { base := 0x6800, count := 1, sub := 17, subs := 1, step := 1, ty := .u32, acc := .ro, set := false, dflt := 0, perInst := false, chk := .any },
  { base := 0x6808, count := 8, sub := 1, subs := 1, step := 1, ty := .bool, acc := .rw, set := true, dflt := 0, perInst := false, chk := .codes [0, 1] },
  { base := 0x6808, count := 8, sub := 2, subs := 1, step := 1, ty := .domain 4096, acc := .rw, set := true, dflt := 0, perInst := false, chk := .any }]

/-- Rows of Table 21-9. -/
def objs9c : List ObjRow := [
  { base := 0x6810, count := 16, sub := 1, subs := 1, step := 1, ty := .u8, acc := .rw, set := true, dflt := 0, perInst := false, chk := .codes [0, 1, 2] },
  { base := 0x6810, count := 16, sub := 2, subs := 1, step := 1, ty := .u64, acc := .rw, set := true, dflt := 0, perInst := false, chk := .any },
  { base := 0x6810, count := 16, sub := 3, subs := 1, step := 1, ty := .u64, acc := .rw, set := true, dflt := 0, perInst := false, chk := .any },
  { base := 0x6810, count := 16, sub := 4, subs := 1, step := 1, ty := .domain 256, acc := .ro, set := false, dflt := 0, perInst := false, chk := .any }]

/-- Rows of Table 21-10. -/
def objs10 : List ObjRow := [
  { base := 0x7000, count := 1, sub := 1, subs := 1, step := 1, ty := .u32, acc := .rw, set := true, dflt := 65536, perInst := false, chk := .range 1024 1048576 },
  { base := 0x7000, count := 1, sub := 2, subs := 1, step := 1, ty := .u8, acc := .rw, set := true, dflt := 2, perInst := false, chk := .range 0 7 },
  { base := 0x7010, count := 4, sub := 1, subs := 1, step := 1, ty := .bool, acc := .rw, set := true, dflt := 0, perInst := false, chk := .codes [0, 1] },
  { base := 0x7010, count := 4, sub := 2, subs := 1, step := 1, ty := .u64, acc := .rw, set := true, dflt := 0, perInst := false, chk := .any },
  { base := 0x7010, count := 4, sub := 3, subs := 1, step := 1, ty := .u8, acc := .rw, set := true, dflt := 0x10, perInst := false, chk := .any },
  { base := 0x7010, count := 4, sub := 4, subs := 1, step := 1, ty := .u8, acc := .rw, set := true, dflt := 16, perInst := false, chk := .range 1 64 },
  { base := 0x7010, count := 4, sub := 5, subs := 1, step := 1, ty := .u8, acc := .ro, set := false, dflt := 0, perInst := false, chk := .any },
  { base := 0x7010, count := 4, sub := 6, subs := 1, step := 1, ty := .u64, acc := .ro, set := false, dflt := 0, perInst := false, chk := .any },
  { base := 0x7010, count := 4, sub := 7, subs := 1, step := 1, ty := .u64, acc := .ro, set := false, dflt := 0, perInst := false, chk := .any },
  { base := 0x7010, count := 4, sub := 8, subs := 1, step := 1, ty := .u32, acc := .ro, set := false, dflt := 0, perInst := false, chk := .any },
  { base := 0x7010, count := 4, sub := 9, subs := 1, step := 1, ty := .u32, acc := .ro, set := false, dflt := 0, perInst := false, chk := .any },
  { base := 0x7010, count := 4, sub := 10, subs := 1, step := 1, ty := .u32, acc := .ro, set := false, dflt := 0, perInst := false, chk := .any },
  { base := 0x7010, count := 4, sub := 11, subs := 1, step := 1, ty := .u32, acc := .ro, set := false, dflt := 0, perInst := false, chk := .any },
  { base := 0x7010, count := 4, sub := 12, subs := 1, step := 1, ty := .u32, acc := .ro, set := false, dflt := 0, perInst := false, chk := .any },
  { base := 0x7010, count := 4, sub := 13, subs := 1, step := 1, ty := .u16, acc := .ro, set := false, dflt := 0, perInst := false, chk := .any }]

/-- Rows of Table 21-11. -/
def objs11 : List ObjRow := [
  { base := 0x7800, count := 1, sub := 1, subs := 1, step := 1, ty := .domain 8192, acc := .ro, set := false, dflt := 0, perInst := false, chk := .any },
  { base := 0x7800, count := 1, sub := 2, subs := 1, step := 1, ty := .u32, acc := .ro, set := false, dflt := 0, perInst := false, chk := .any },
  { base := 0x7800, count := 1, sub := 3, subs := 1, step := 1, ty := .u32, acc := .ro, set := false, dflt := 0, perInst := false, chk := .any },
  { base := 0x7800, count := 1, sub := 4, subs := 1, step := 1, ty := .u8, acc := .rw, set := false, dflt := 0xFF, perInst := false, chk := .vector },
  { base := 0x7800, count := 1, sub := 5, subs := 1, step := 1, ty := .u8, acc := .rw, set := false, dflt := 2, perInst := false, chk := .range 0 3 },
  { base := 0x7810, count := 16, sub := 1, subs := 1, step := 1, ty := .u64, acc := .ro, set := false, dflt := 0, perInst := false, chk := .any },
  { base := 0x7810, count := 16, sub := 2, subs := 1, step := 1, ty := .u64, acc := .ro, set := false, dflt := 0, perInst := false, chk := .any },
  { base := 0x7810, count := 16, sub := 3, subs := 1, step := 1, ty := .u64, acc := .ro, set := false, dflt := 0, perInst := false, chk := .any },
  { base := 0x7810, count := 16, sub := 4, subs := 1, step := 1, ty := .u32, acc := .ro, set := false, dflt := 0, perInst := false, chk := .any },
  { base := 0x7810, count := 16, sub := 5, subs := 1, step := 1, ty := .u8, acc := .wo, set := false, dflt := 0, perInst := false, chk := .codes [1] },
  { base := 0x7810, count := 16, sub := 6, subs := 1, step := 1, ty := .domain 2048, acc := .ro, set := false, dflt := 0, perInst := false, chk := .any },
  { base := 0x7840, count := 1, sub := 1, subs := 1, step := 1, ty := .u64, acc := .ro, set := false, dflt := 0, perInst := false, chk := .any },
  { base := 0x7840, count := 1, sub := 2, subs := 1, step := 1, ty := .u16, acc := .ro, set := false, dflt := 0, perInst := false, chk := .any },
  { base := 0x7840, count := 1, sub := 3, subs := 1, step := 1, ty := .u32, acc := .ro, set := false, dflt := 0, perInst := false, chk := .any },
  { base := 0x7840, count := 1, sub := 4, subs := 1, step := 1, ty := .i64, acc := .ro, set := false, dflt := 0, perInst := false, chk := .any },
  { base := 0x7840, count := 1, sub := 5, subs := 1, step := 1, ty := .i64, acc := .ro, set := false, dflt := 0, perInst := false, chk := .any },
  { base := 0x7C00, count := 1, sub := 1, subs := 1, step := 1, ty := .u8, acc := .rw, set := false, dflt := 0, perInst := false, chk := .range 0 79 },
  { base := 0x7C00, count := 1, sub := 2, subs := 1, step := 1, ty := .domain 672, acc := .ro, set := false, dflt := 0, perInst := false, chk := .any },
  { base := 0x7C00, count := 1, sub := 3, subs := 1, step := 1, ty := .u32, acc := .rw, set := false, dflt := 0, perInst := false, chk := .privAddress },
  { base := 0x7C00, count := 1, sub := 4, subs := 1, step := 1, ty := .u16, acc := .rw, set := false, dflt := 8, perInst := false, chk := .privLength }]

/-- Rows of Table 21-11. -/
def objs11b : List ObjRow := [
  { base := 0x7C00, count := 1, sub := 5, subs := 1, step := 1, ty := .domain 8192, acc := .ro, set := false, dflt := 0, perInst := false, chk := .any },
  { base := 0x7C00, count := 1, sub := 6, subs := 1, step := 1, ty := .u64, acc := .rw, set := false, dflt := 0, perInst := false, chk := .digestAddress },
  { base := 0x7C00, count := 1, sub := 7, subs := 1, step := 1, ty := .u32, acc := .rw, set := false, dflt := 8, perInst := false, chk := .digestLength },
  { base := 0x7C00, count := 1, sub := 8, subs := 1, step := 1, ty := .u64, acc := .ro, set := false, dflt := 0, perInst := false, chk := .any },
  { base := 0x7C00, count := 1, sub := 9, subs := 1, step := 1, ty := .u32, acc := .ro, set := false, dflt := 0, perInst := false, chk := .any },
  { base := 0x7C10, count := 16, sub := 1, subs := 1, step := 1, ty := .bool, acc := .rw, set := true, dflt := 0, perInst := false, chk := .codes [0, 1] },
  { base := 0x7C10, count := 16, sub := 2, subs := 1, step := 1, ty := .u64, acc := .rw, set := false, dflt := 0, perInst := false, chk := .any },
  { base := 0x7C10, count := 16, sub := 3, subs := 1, step := 1, ty := .u8, acc := .ro, set := false, dflt := 0, perInst := false, chk := .any }]

/-- Rows of Table 21-12. -/
def objs12 : List ObjRow := [
  { base := 0x8000, count := 1, sub := 1, subs := 1, step := 1, ty := .u64, acc := .ro, set := false, dflt := 0, perInst := false, chk := .any },
  { base := 0x8000, count := 1, sub := 2, subs := 1, step := 1, ty := .u64, acc := .ro, set := false, dflt := 0, perInst := false, chk := .any },
  { base := 0x8000, count := 1, sub := 3, subs := 1, step := 1, ty := .u64, acc := .ro, set := false, dflt := 0, perInst := false, chk := .any },
  { base := 0x8000, count := 1, sub := 4, subs := 1, step := 1, ty := .u64, acc := .ro, set := false, dflt := 0, perInst := false, chk := .any },
  { base := 0x8000, count := 1, sub := 5, subs := 1, step := 1, ty := .u64, acc := .ro, set := false, dflt := 0, perInst := false, chk := .any },
  { base := 0x8010, count := 16, sub := 1, subs := 1, step := 1, ty := .u64, acc := .ro, set := false, dflt := 0, perInst := false, chk := .any },
  { base := 0x8010, count := 16, sub := 2, subs := 1, step := 1, ty := .u64, acc := .ro, set := false, dflt := 0, perInst := false, chk := .any },
  { base := 0x8010, count := 16, sub := 3, subs := 1, step := 1, ty := .u64, acc := .ro, set := false, dflt := 0, perInst := false, chk := .any },
  { base := 0x8800, count := 16, sub := 1, subs := 1, step := 1, ty := .u32, acc := .rw, set := true, dflt := 0, perInst := false, chk := .low 24 },
  { base := 0x8800, count := 16, sub := 2, subs := 1, step := 1, ty := .u64, acc := .rw, set := true, dflt := 0, perInst := false, chk := .any },
  { base := 0x8800, count := 16, sub := 3, subs := 1, step := 1, ty := .bool, acc := .rw, set := true, dflt := 0, perInst := false, chk := .codes [0, 1] }]

/-- Every object of the device (R683). -/
def objTable : List ObjRow :=
  objs2 ++ objs2b ++ objs3 ++ objs3b ++ objs4 ++ objs4b ++ objs4c ++ objs5 ++ objs5b ++ objs6 ++ objs6b ++ objs7 ++ objs7b ++ objs7c ++ objs8 ++ objs8b ++ objs9 ++ objs9b ++ objs9c ++ objs10 ++ objs11 ++ objs11b ++ objs12

/-- VENDOR_ID, 0x1000:01. -/
abbrev K.vendorId : Nat := key 0x1000 1
/-- PRODUCT_CODE, 0x1000:02. -/
abbrev K.productCode : Nat := key 0x1000 2
/-- STEPPING, 0x1000:03. -/
abbrev K.stepping : Nat := key 0x1000 3
/-- SERIAL, 0x1000:04. -/
abbrev K.serial : Nat := key 0x1000 4
/-- MAC_ADDRESS, 0x1000:05. -/
abbrev K.macAddress : Nat := key 0x1000 5
/-- BUILD, 0x1000:06. -/
abbrev K.build : Nat := key 0x1000 6
/-- RHOTRE_VERSION, 0x1000:07. -/
abbrev K.rhotreVersion : Nat := key 0x1000 7
/-- T1S_NODE_ID, 0x1010:01. -/
abbrev K.t1sNodeId : Nat := key 0x1010 1
/-- T1S_TO_TIMER, 0x1010:02. -/
abbrev K.t1sToTimer : Nat := key 0x1010 2
/-- T1S_ETHERTYPE, 0x1010:03. -/
abbrev K.t1sEthertype : Nat := key 0x1010 3
/-- T1S_ENABLE, 0x1010:04. -/
abbrev K.t1sEnable : Nat := key 0x1010 4
/-- I3C_STATIC_ADDR, 0x1020:01. -/
abbrev K.i3cStaticAddr : Nat := key 0x1020 1
/-- I3C_DYN_ADDR, 0x1020:02. -/
abbrev K.i3cDynAddr : Nat := key 0x1020 2
/-- I3C_ENABLE, 0x1020:03. -/
abbrev K.i3cEnable : Nat := key 0x1020 3
/-- MBOX_VECTOR, 0x1030:01. -/
abbrev K.mboxVector : Nat := key 0x1030 1
/-- NOTIFY_ENABLE, 0x1040:01. -/
abbrev K.notifyEnable : Nat := key 0x1040 1
/-- NOTIFY_TRANSPORT, 0x1040:02. -/
abbrev K.notifyTransport : Nat := key 0x1040 2
/-- NOTIFY_MAC, 0x1040:03. -/
abbrev K.notifyMac : Nat := key 0x1040 3
/-- NOTIFY_SEQ, 0x1040:04. -/
abbrev K.notifySeq : Nat := key 0x1040 4
/-- RX_DROPPED, 0x1050:01. -/
abbrev K.rxDropped : Nat := key 0x1050 1
/-- CHECK_FAILED, 0x1050:02. -/
abbrev K.checkFailed : Nat := key 0x1050 2
/-- DUPLICATES, 0x1050:03. -/
abbrev K.duplicates : Nat := key 0x1050 3
/-- NOTIFY_DROPPED, 0x1050:04. -/
abbrev K.notifyDropped : Nat := key 0x1050 4
/-- SEG_ABANDONED, 0x1050:05. -/
abbrev K.segAbandoned : Nat := key 0x1050 5
/-- MBOX_IGNORED, 0x1050:06. -/
abbrev K.mboxIgnored : Nat := key 0x1050 6
/-- TICK_COUNT, 0x1100:01. -/
abbrev K.tickCount : Nat := key 0x1100 1
/-- TICK_LOCK, 0x1100:02. -/
abbrev K.tickLock : Nat := key 0x1100 2
/-- CRYSTAL_LOSS_COUNT, 0x1100:03. -/
abbrev K.crystalLossCount : Nat := key 0x1100 3
/-- LATE_SAMPLE_COUNT, 0x1100:04. -/
abbrev K.lateSampleCount : Nat := key 0x1100 4
/-- SWAP_REQUEST, 0x1200:01. -/
abbrev K.swapRequest : Nat := key 0x1200 1
/-- SWAP_DEADLINE, 0x1200:02. -/
abbrev K.swapDeadline : Nat := key 0x1200 2
/-- SWAP_STATUS, 0x1200:03. -/
abbrev K.swapStatus : Nat := key 0x1200 3
/-- SWAP_COUNT, 0x1200:04. -/
abbrev K.swapCount : Nat := key 0x1200 4
/-- SWAP_LAST_TICK, 0x1200:05. -/
abbrev K.swapLastTick : Nat := key 0x1200 5
/-- SWAP_FORCED_COUNT, 0x1200:06. -/
abbrev K.swapForcedCount : Nat := key 0x1200 6
/-- SWAP_FAULT_OBJECT, 0x1200:07. -/
abbrev K.swapFaultObject : Nat := key 0x1200 7
/-- SHADOW_DIRTY, 0x1200:08. -/
abbrev K.shadowDirty : Nat := key 0x1200 8
/-- SHADOW_REVERT, 0x1200:09. -/
abbrev K.shadowRevert : Nat := key 0x1200 9
/-- CURRENT_MOOD, 0x2000:01. -/
abbrev K.currentMood : Nat := key 0x2000 1
/-- TARGET_MOOD, 0x2000:02. -/
abbrev K.targetMood : Nat := key 0x2000 2
/-- MOOD_REQUEST, 0x2000:03. -/
abbrev K.moodRequest : Nat := key 0x2000 3
/-- MOOD_FLOOR, 0x2000:04. -/
abbrev K.moodFloor : Nat := key 0x2000 4
/-- MOOD_CEILING, 0x2000:05. -/
abbrev K.moodCeiling : Nat := key 0x2000 5
/-- LINGER, 0x2000:06. -/
abbrev K.linger : Nat := key 0x2000 6
/-- WAKE_TARGET, 0x2000:07. -/
abbrev K.wakeTarget : Nat := key 0x2000 7
/-- RETURN_MOOD, 0x2000:08. -/
abbrev K.returnMood : Nat := key 0x2000 8
/-- MOOD_ENTRY_TICK, 0x2000:09. -/
abbrev K.moodEntryTick : Nat := key 0x2000 9
/-- TRANSITION_PHASE, 0x2000:0A. -/
abbrev K.transitionPhase : Nat := key 0x2000 10
/-- RESET_COMMAND, 0x2000:0B. -/
abbrev K.resetCommand : Nat := key 0x2000 11
/-- LAST_RESET_CAUSE, 0x2000:0C. -/
abbrev K.lastResetCause : Nat := key 0x2000 12
/-- DEMAND_HELD, 0x2000:0D. -/
abbrev K.demandHeld : Nat := key 0x2000 13
/-- MOOD_CHANGE_COUNT, 0x2000:0E. -/
abbrev K.moodChangeCount : Nat := key 0x2000 14
/-- BRACE_COUNT, 0x2000:0F. -/
abbrev K.braceCount : Nat := key 0x2000 15
/-- SPILL_ENABLE, 0x2010 + e:01. -/
abbrev K.spillEnable (e : Nat) : Nat := key (0x2010 + e) 1
/-- SPILL_NEAR, 0x2010 + e:02. -/
abbrev K.spillNear (e : Nat) : Nat := key (0x2010 + e) 2
/-- SPILL_LENGTH, 0x2010 + e:03. -/
abbrev K.spillLength (e : Nat) : Nat := key (0x2010 + e) 3
/-- SPILL_DEEP, 0x2010 + e:04. -/
abbrev K.spillDeep (e : Nat) : Nat := key (0x2010 + e) 4
/-- SPILL_STATE, 0x2010 + e:05. -/
abbrev K.spillState (e : Nat) : Nat := key (0x2010 + e) 5
/-- CLUSTER_CLOCK, 0x2100:01 to 0x2100:08. -/
abbrev K.clusterClock (j : Nat) : Nat := key 0x2100 (1 + 1 * j)
/-- STORE_CLOCK, 0x2100:09. -/
abbrev K.storeClock : Nat := key 0x2100 9
/-- CONTROL_CLOCK, 0x2100:0A. -/
abbrev K.controlClock : Nat := key 0x2100 10
/-- LISTEN_CLOCK, 0x2100:0B. -/
abbrev K.listenClock : Nat := key 0x2100 11
/-- SURGE_ACTIVE, 0x2100:0C. -/
abbrev K.surgeActive : Nat := key 0x2100 12
/-- CLUSTER_CLOCK_CAP, 0x2110:01 to 0x2110:08. -/
abbrev K.clusterClockCap (j : Nat) : Nat := key 0x2110 (1 + 1 * j)
/-- DEPOSIT, 0x2400:01. -/
abbrev K.deposit : Nat := key 0x2400 1
/-- POOL_BALANCE, 0x2400:02. -/
abbrev K.poolBalance : Nat := key 0x2400 2
/-- TOTAL_DEPOSITS, 0x2400:03. -/
abbrev K.totalDeposits : Nat := key 0x2400 3
/-- POOL_SPENT, 0x2400:04. -/
abbrev K.poolSpent : Nat := key 0x2400 4
/-- TOTAL_RESERVED, 0x2400:05. -/
abbrev K.totalReserved : Nat := key 0x2400 5
/-- TOTAL_SPENT, 0x2400:06. -/
abbrev K.totalSpent : Nat := key 0x2400 6
/-- POOL_LOW_MARK, 0x2400:07. -/
abbrev K.poolLowMark : Nat := key 0x2400 7
/-- GRANT_REFUSED, 0x2400:08. -/
abbrev K.grantRefused : Nat := key 0x2400 8
/-- SURGE_POOL_MIN, 0x2400:09. -/
abbrev K.surgePoolMin : Nat := key 0x2400 9
/-- GRANT, 0x2410 + p:01. -/
abbrev K.grant (p : Nat) : Nat := key (0x2410 + p) 1
/-- BALANCE, 0x2410 + p:02. -/
abbrev K.balance (p : Nat) : Nat := key (0x2410 + p) 2
/-- RESERVED, 0x2410 + p:03. -/
abbrev K.reserved (p : Nat) : Nat := key (0x2410 + p) 3
/-- SPENT, 0x2410 + p:04. -/
abbrev K.spent (p : Nat) : Nat := key (0x2410 + p) 4
/-- RESERVE_CAP, 0x2410 + p:05. -/
abbrev K.reserveCap (p : Nat) : Nat := key (0x2410 + p) 5
/-- LOW_MARK, 0x2410 + p:06. -/
abbrev K.lowMark (p : Nat) : Nat := key (0x2410 + p) 6
/-- AUTO_FLOOR, 0x2410 + p:07. -/
abbrev K.autoFloor (p : Nat) : Nat := key (0x2410 + p) 7
/-- AUTO_STEP, 0x2410 + p:08. -/
abbrev K.autoStep (p : Nat) : Nat := key (0x2410 + p) 8
/-- ENERGY_WAITS, 0x2410 + p:09. -/
abbrev K.energyWaits (p : Nat) : Nat := key (0x2410 + p) 9
/-- DEADLINE_TICK, 0x2410 + p:0A. -/
abbrev K.deadlineTick (p : Nat) : Nat := key (0x2410 + p) 10
/-- DEADLINE_CYCLES, 0x2410 + p:0B. -/
abbrev K.deadlineCycles (p : Nat) : Nat := key (0x2410 + p) 11
/-- DEADLINE_MISSED, 0x2410 + p:0C. -/
abbrev K.deadlineMissed (p : Nat) : Nat := key (0x2410 + p) 12
/-- BATTERY_SOC, 0x2420:01. -/
abbrev K.batterySoc : Nat := key 0x2420 1
/-- PACK_VOLTAGE, 0x2420:02. -/
abbrev K.packVoltage : Nat := key 0x2420 2
/-- PACK_RESISTANCE, 0x2420:03. -/
abbrev K.packResistance : Nat := key 0x2420 3
/-- PACK_MAX_CURRENT, 0x2420:04. -/
abbrev K.packMaxCurrent : Nat := key 0x2420 4
/-- BATTERY_TICK, 0x2420:05. -/
abbrev K.batteryTick : Nat := key 0x2420 5
/-- SAG_MARGIN, 0x2420:06. -/
abbrev K.sagMargin : Nat := key 0x2420 6
/-- PACK_SHARE, 0x2420:07. -/
abbrev K.packShare : Nat := key 0x2420 7
/-- CONVERSION_EFFICIENCY, 0x2420:08. -/
abbrev K.conversionEfficiency : Nat := key 0x2420 8
/-- STALE_POWER_CAP, 0x2420:09. -/
abbrev K.stalePowerCap : Nat := key 0x2420 9
/-- SURGE_MIN_SOC, 0x2420:0A. -/
abbrev K.surgeMinSoc : Nat := key 0x2420 10
/-- BATTERY_STALE, 0x2420:0B. -/
abbrev K.batteryStale : Nat := key 0x2420 11
/-- POWER_SOURCE, 0x2420:0C. -/
abbrev K.powerSource : Nat := key 0x2420 12
/-- FIXED_POWER_CAP, 0x2420:0D. -/
abbrev K.fixedPowerCap : Nat := key 0x2420 13
/-- DEFAULT_POINT, 0x2430:01. -/
abbrev K.defaultPoint : Nat := key 0x2430 1
/-- PLANNER_LAST_TICK, 0x2430:02. -/
abbrev K.plannerLastTick : Nat := key 0x2430 2
/-- PLANNER_LIMIT_CAUSE, 0x2430:03. -/
abbrev K.plannerLimitCause : Nat := key 0x2430 3
/-- PREDICTED_POWER, 0x2430:04. -/
abbrev K.predictedPower : Nat := key 0x2430 4
/-- METERED_POWER, 0x2430:05. -/
abbrev K.meteredPower : Nat := key 0x2430 5
/-- THERMAL_LIMIT, 0x2500:01. -/
abbrev K.thermalLimit : Nat := key 0x2500 1
/-- THETA_JN, 0x2500:02. -/
abbrev K.thetaJn : Nat := key 0x2500 2
/-- CAP_J, 0x2500:03. -/
abbrev K.capJ : Nat := key 0x2500 3
/-- THETA_NA, 0x2500:04. -/
abbrev K.thetaNa : Nat := key 0x2500 4
/-- CAP_N, 0x2500:05. -/
abbrev K.capN : Nat := key 0x2500 5
/-- AMBIENT, 0x2500:06. -/
abbrev K.ambient : Nat := key 0x2500 6
/-- JUNCTION, 0x2500:07. -/
abbrev K.junction : Nat := key 0x2500 7
/-- NODE_ESTIMATE, 0x2500:08. -/
abbrev K.nodeEstimate : Nat := key 0x2500 8
/-- PREDICTED_PEAK, 0x2500:09. -/
abbrev K.predictedPeak : Nat := key 0x2500 9
/-- TRIP_LEVEL, 0x2500:0A. -/
abbrev K.tripLevel : Nat := key 0x2500 10
/-- TRIP_LEVEL_DEEP, 0x2500:0B. -/
abbrev K.tripLevelDeep : Nat := key 0x2500 11
/-- TRIP_ACTIVE, 0x2500:0C. -/
abbrev K.tripActive : Nat := key 0x2500 12
/-- TRIP_COUNT, 0x2500:0D. -/
abbrev K.tripCount : Nat := key 0x2500 13
/-- SENSOR_TEMP, 0x2510 + n:01. -/
abbrev K.sensorTemp (n : Nat) : Nat := key (0x2510 + n) 1
/-- RAIL_ENABLES, 0x2600:01. -/
abbrev K.railEnables : Nat := key 0x2600 1
/-- RAIL_GOOD, 0x2600:02. -/
abbrev K.railGood : Nat := key 0x2600 2
/-- SUPPLY_MV, 0x2610 + n:01. -/
abbrev K.supplyMv (n : Nat) : Nat := key (0x2610 + n) 1
/-- SUPPLY_STATE, 0x2610 + n:02. -/
abbrev K.supplyState (n : Nat) : Nat := key (0x2610 + n) 2
/-- SUPPLY_MIN_MV, 0x2610 + n:03. -/
abbrev K.supplyMinMv (n : Nat) : Nat := key (0x2610 + n) 3
/-- WARNING_COUNT, 0x2610 + n:04. -/
abbrev K.warningCount (n : Nat) : Nat := key (0x2610 + n) 4
/-- RESET_COUNT, 0x2610 + n:05. -/
abbrev K.resetCount (n : Nat) : Nat := key (0x2610 + n) 5
/-- PARTITIONS_ENABLED, 0x3000:01. -/
abbrev K.partitionsEnabled : Nat := key 0x3000 1
/-- PART_ABANDONED, 0x3000:02. -/
abbrev K.partAbandoned : Nat := key 0x3000 2
/-- PART_ENABLE, 0x3010 + p:01. -/
abbrev K.partEnable (p : Nat) : Nat := key (0x3010 + p) 1
/-- CORE_MASK, 0x3010 + p:02. -/
abbrev K.coreMask (p : Nat) : Nat := key (0x3010 + p) 2
/-- CONTROL_CORE, 0x3010 + p:03. -/
abbrev K.controlCore (p : Nat) : Nat := key (0x3010 + p) 3
/-- PROGRAM_MODE, 0x3010 + p:04. -/
abbrev K.programMode (p : Nat) : Nat := key (0x3010 + p) 4
/-- PART_STATE, 0x3010 + p:05. -/
abbrev K.partState (p : Nat) : Nat := key (0x3010 + p) 5
/-- PART_RESET, 0x3010 + p:06. -/
abbrev K.partReset (p : Nat) : Nat := key (0x3010 + p) 6
/-- PART_RESET_COUNT, 0x3010 + p:07. -/
abbrev K.partResetCount (p : Nat) : Nat := key (0x3010 + p) 7
/-- DESC_FAULTS, 0x3010 + p:08. -/
abbrev K.descFaults (p : Nat) : Nat := key (0x3010 + p) 8
/-- LAST_DESC_FAULT, 0x3010 + p:09. -/
abbrev K.lastDescFault (p : Nat) : Nat := key (0x3010 + p) 9
/-- THREAD_COUNT, 0x3010 + p:0A. -/
abbrev K.threadCount (p : Nat) : Nat := key (0x3010 + p) 10
/-- STALEMATE_COUNT, 0x3020 + p:01. -/
abbrev K.stalemateCount (p : Nat) : Nat := key (0x3020 + p) 1
/-- STALEMATE_TICK, 0x3020 + p:02. -/
abbrev K.stalemateTick (p : Nat) : Nat := key (0x3020 + p) 2
/-- WAIT_GRAPH, 0x3020 + p:03. -/
abbrev K.waitGraph (p : Nat) : Nat := key (0x3020 + p) 3
/-- QUIET_TICKS, 0x3020 + p:04. -/
abbrev K.quietTicks (p : Nat) : Nat := key (0x3020 + p) 4
/-- CONJ_OWNER, 0x3100:01. -/
abbrev K.conjOwner : Nat := key 0x3100 1
/-- CONJ_SHARE, 0x3100:02. -/
abbrev K.conjShare : Nat := key 0x3100 2
/-- CONJ_SELECT, 0x3100:03. -/
abbrev K.conjSelect : Nat := key 0x3100 3
/-- CONJ_VALUE, 0x3100:04. -/
abbrev K.conjValue : Nat := key 0x3100 4
/-- CONJ_SATURATED, 0x3100:05. -/
abbrev K.conjSaturated : Nat := key 0x3100 5
/-- CONJ_RIGHTS_FAULTS, 0x3100:06. -/
abbrev K.conjRightsFaults : Nat := key 0x3100 6
/-- CONJ_SIGNALS_APPLIED, 0x3100:07. -/
abbrev K.conjSignalsApplied : Nat := key 0x3100 7
/-- NEAR_SIZE, 0x4000:01. -/
abbrev K.nearSize : Nat := key 0x4000 1
/-- DEEP_SIZE, 0x4000:02. -/
abbrev K.deepSize : Nat := key 0x4000 2
/-- ADDRESS_FAULTS, 0x4000:03. -/
abbrev K.addressFaults : Nat := key 0x4000 3
/-- SCRUB_NEAR_PERIOD, 0x4010:01. -/
abbrev K.scrubNearPeriod : Nat := key 0x4010 1
/-- SCRUB_DEEP_PERIOD, 0x4010:02. -/
abbrev K.scrubDeepPeriod : Nat := key 0x4010 2
/-- CORRECTED_NEAR, 0x4010:03. -/
abbrev K.correctedNear : Nat := key 0x4010 3
/-- CORRECTED_DEEP, 0x4010:04. -/
abbrev K.correctedDeep : Nat := key 0x4010 4
/-- UNCORRECTED_NEAR, 0x4010:05. -/
abbrev K.uncorrectedNear : Nat := key 0x4010 5
/-- UNCORRECTED_DEEP, 0x4010:06. -/
abbrev K.uncorrectedDeep : Nat := key 0x4010 6
/-- LAST_ERROR_ADDRESS, 0x4010:07. -/
abbrev K.lastErrorAddress : Nat := key 0x4010 7
/-- BACKGROUND_OVERDUE, 0x4010:08. -/
abbrev K.backgroundOverdue : Nat := key 0x4010 8
/-- FORWARDED, 0x4020:01. -/
abbrev K.forwarded : Nat := key 0x4020 1
/-- OVERLAP_WAITS, 0x4020:02. -/
abbrev K.overlapWaits : Nat := key 0x4020 2
/-- COMMIT_WAITS, 0x4020:03. -/
abbrev K.commitWaits : Nat := key 0x4020 3
/-- GUARD_DROPS, 0x4020:04. -/
abbrev K.guardDrops : Nat := key 0x4020 4
/-- PEEK_ADDRESS, 0x4030:01. -/
abbrev K.peekAddress : Nat := key 0x4030 1
/-- PEEK_LENGTH, 0x4030:02. -/
abbrev K.peekLength : Nat := key 0x4030 2
/-- PEEK_DATA, 0x4030:03. -/
abbrev K.peekData : Nat := key 0x4030 3
/-- PEEK_POISON, 0x4030:04. -/
abbrev K.peekPoison : Nat := key 0x4030 4
/-- POKE_DATA, 0x4030:05. -/
abbrev K.pokeData : Nat := key 0x4030 5
/-- WINDOW_BASE, 0x4100 + p:3k + 1. -/
abbrev K.windowBase (p : Nat) (j : Nat) : Nat := key (0x4100 + p) (1 + 3 * j)
/-- WINDOW_LENGTH, 0x4100 + p:3k + 2. -/
abbrev K.windowLength (p : Nat) (j : Nat) : Nat := key (0x4100 + p) (2 + 3 * j)
/-- WINDOW_RIGHTS, 0x4100 + p:3k + 3. -/
abbrev K.windowRights (p : Nat) (j : Nat) : Nat := key (0x4100 + p) (3 + 3 * j)
/-- QUEUE_DEPTH, 0x5000:01. -/
abbrev K.queueDepth : Nat := key 0x5000 1
/-- FLUSH_ABANDONED, 0x5000:02. -/
abbrev K.flushAbandoned : Nat := key 0x5000 2
/-- QUEUE_USED, 0x5010 + c:01. -/
abbrev K.queueUsed (c : Nat) : Nat := key (0x5010 + c) 1
/-- QUEUE_WAITS, 0x5010 + c:02. -/
abbrev K.queueWaits (c : Nat) : Nat := key (0x5010 + c) 2
/-- FLUSH, 0x5010 + c:03. -/
abbrev K.flush (c : Nat) : Nat := key (0x5010 + c) 3
/-- FLUSH_STATE, 0x5010 + c:04. -/
abbrev K.flushState (c : Nat) : Nat := key (0x5010 + c) 4
/-- CHAIN_ACTIVE, 0x5010 + c:05. -/
abbrev K.chainActive (c : Nat) : Nat := key (0x5010 + c) 5
/-- CHAIN_SHADOW, 0x5010 + c:06. -/
abbrev K.chainShadow (c : Nat) : Nat := key (0x5010 + c) 6
/-- WALKER_SETS, 0x5010 + c:07. -/
abbrev K.walkerSets (c : Nat) : Nat := key (0x5010 + c) 7
/-- CHAIN_STATE, 0x5010 + c:08. -/
abbrev K.chainState (c : Nat) : Nat := key (0x5010 + c) 8
/-- TILES_DONE, 0x5010 + c:09. -/
abbrev K.tilesDone (c : Nat) : Nat := key (0x5010 + c) 9
/-- PREEMPTIONS, 0x5010 + c:0A. -/
abbrev K.preemptions (c : Nat) : Nat := key (0x5010 + c) 10
/-- VERBS_RETIRED, 0x5010 + c:0B. -/
abbrev K.verbsRetired (c : Nat) : Nat := key (0x5010 + c) 11
/-- LFSR_SEED, 0x5010 + c:0C. -/
abbrev K.lfsrSeed (c : Nat) : Nat := key (0x5010 + c) 12
/-- LFSR_STATE, 0x5010 + c:0D. -/
abbrev K.lfsrState (c : Nat) : Nat := key (0x5010 + c) 13
/-- FLUSH, 0x5050 + k:01. -/
abbrev K.ctlFlush (k : Nat) : Nat := key (0x5050 + k) 1
/-- FLUSH_STATE, 0x5050 + k:02. -/
abbrev K.ctlFlushState (k : Nat) : Nat := key (0x5050 + k) 2
/-- THREAD_STATE, 0x5400 + k:01. -/
abbrev K.threadState (k : Nat) : Nat := key (0x5400 + k) 1
/-- THREAD_PC, 0x5400 + k:02. -/
abbrev K.threadPc (k : Nat) : Nat := key (0x5400 + k) 2
/-- THREAD_FETCH, 0x5400 + k:03. -/
abbrev K.threadFetch (k : Nat) : Nat := key (0x5400 + k) 3
/-- THREAD_RETIRE, 0x5400 + k:04. -/
abbrev K.threadRetire (k : Nat) : Nat := key (0x5400 + k) 4
/-- THREAD_HOLD, 0x5400 + k:05. -/
abbrev K.threadHold (k : Nat) : Nat := key (0x5400 + k) 5
/-- THREAD_FAULT, 0x5400 + k:06. -/
abbrev K.threadFault (k : Nat) : Nat := key (0x5400 + k) 6
/-- THREAD_FAULT_ADDRESS, 0x5400 + k:07. -/
abbrev K.threadFaultAddress (k : Nat) : Nat := key (0x5400 + k) 7
/-- PUSH_REJECTED, 0x5400 + k:08. -/
abbrev K.pushRejected (k : Nat) : Nat := key (0x5400 + k) 8
/-- CLAUSES_RETIRED, 0x5400 + k:09. -/
abbrev K.clausesRetired (k : Nat) : Nat := key (0x5400 + k) 9
/-- VERBS_PUSHED, 0x5400 + k:0A. -/
abbrev K.verbsPushed (k : Nat) : Nat := key (0x5400 + k) 10
/-- FEED_BASE, 0x5810 + p:01. -/
abbrev K.feedBase (p : Nat) : Nat := key (0x5810 + p) 1
/-- FEED_WORDS, 0x5810 + p:02. -/
abbrev K.feedWords (p : Nat) : Nat := key (0x5810 + p) 2
/-- FEED_ENABLE, 0x5810 + p:03. -/
abbrev K.feedEnable (p : Nat) : Nat := key (0x5810 + p) 3
/-- COMPL_BASE, 0x5810 + p:04. -/
abbrev K.complBase (p : Nat) : Nat := key (0x5810 + p) 4
/-- COMPL_ENTRIES, 0x5810 + p:05. -/
abbrev K.complEntries (p : Nat) : Nat := key (0x5810 + p) 5
/-- COMPL_ENABLE, 0x5810 + p:06. -/
abbrev K.complEnable (p : Nat) : Nat := key (0x5810 + p) 6
/-- COMPL_VECTOR, 0x5810 + p:07. -/
abbrev K.complVector (p : Nat) : Nat := key (0x5810 + p) 7
/-- FEED_REJECTED, 0x5810 + p:08. -/
abbrev K.feedRejected (p : Nat) : Nat := key (0x5810 + p) 8
/-- COMPL_REJECTED, 0x5810 + p:09. -/
abbrev K.complRejected (p : Nat) : Nat := key (0x5810 + p) 9
/-- COMPLETION_STALLS, 0x5810 + p:0A. -/
abbrev K.completionStalls (p : Nat) : Nat := key (0x5810 + p) 10
/-- SB_ENTRIES_USED, 0x5810 + p:0B. -/
abbrev K.sbEntriesUsed (p : Nat) : Nat := key (0x5810 + p) 11
/-- SB_FULL_WAITS, 0x5810 + p:0C. -/
abbrev K.sbFullWaits (p : Nat) : Nat := key (0x5810 + p) 12
/-- SB_HAZARD_WAITS, 0x5810 + p:0D. -/
abbrev K.sbHazardWaits (p : Nat) : Nat := key (0x5810 + p) 13
/-- TORN_MARKED, 0x5810 + p:0E. -/
abbrev K.tornMarked (p : Nat) : Nat := key (0x5810 + p) 14
/-- TICKET, 0x5810 + p:0F. -/
abbrev K.ticket (p : Nat) : Nat := key (0x5810 + p) 15
/-- RING_BASE, 0x5880 + c:01. -/
abbrev K.ringBase (c : Nat) : Nat := key (0x5880 + c) 1
/-- RING_WORDS, 0x5880 + c:02. -/
abbrev K.ringWords (c : Nat) : Nat := key (0x5880 + c) 2
/-- RING_ENABLE, 0x5880 + c:03. -/
abbrev K.ringEnable (c : Nat) : Nat := key (0x5880 + c) 3
/-- RING_REJECTED, 0x5880 + c:04. -/
abbrev K.ringRejected (c : Nat) : Nat := key (0x5880 + c) 4
/-- ROT_PERIOD, 0x6000:01. -/
abbrev K.rotPeriod : Nat := key 0x6000 1
/-- SPARE_LINE, 0x6000:02. -/
abbrev K.spareLine : Nat := key 0x6000 2
/-- ROTATION_MOVES, 0x6000:03. -/
abbrev K.rotationMoves : Nat := key 0x6000 3
/-- MISLOCKS, 0x6000:04. -/
abbrev K.mislocks : Nat := key 0x6000 4
/-- CAL_OVERDUE, 0x6000:05. -/
abbrev K.calOverdue : Nat := key 0x6000 5
/-- MON_A_READING, 0x6000:06. -/
abbrev K.monAReading : Nat := key 0x6000 6
/-- MON_A_REFERENCE, 0x6000:07. -/
abbrev K.monAReference : Nat := key 0x6000 7
/-- PORT_ENABLE, 0x6010 + q:01. -/
abbrev K.portEnable (q : Nat) : Nat := key (0x6010 + q) 1
/-- PORT_STATE, 0x6010 + q:02. -/
abbrev K.portState (q : Nat) : Nat := key (0x6010 + q) 2
/-- RING_STATE, 0x6010 + q:03. -/
abbrev K.ringState (q : Nat) : Nat := key (0x6010 + q) 3
/-- SLOT_MAP, 0x6010 + q:04. -/
abbrev K.slotMap (q : Nat) : Nat := key (0x6010 + q) 4
/-- HEATER_CODES, 0x6010 + q:05. -/
abbrev K.heaterCodes (q : Nat) : Nat := key (0x6010 + q) 5
/-- MON_READING, 0x6010 + q:06. -/
abbrev K.monReading (q : Nat) : Nat := key (0x6010 + q) 6
/-- MON_REFERENCE, 0x6010 + q:07. -/
abbrev K.monReference (q : Nat) : Nat := key (0x6010 + q) 7
/-- LOSS_LOCATION, 0x6010 + q:08. -/
abbrev K.lossLocation (q : Nat) : Nat := key (0x6010 + q) 8
/-- LASER_MAC, 0x6100:01. -/
abbrev K.laserMac : Nat := key 0x6100 1
/-- LASER_GROUP, 0x6100:02. -/
abbrev K.laserGroup : Nat := key 0x6100 2
/-- LASER_LINK_STATE, 0x6100:03. -/
abbrev K.laserLinkState : Nat := key 0x6100 3
/-- FADE_STATE, 0x6100:04. -/
abbrev K.fadeState : Nat := key 0x6100 4
/-- FADE_THRESHOLD, 0x6100:05. -/
abbrev K.fadeThreshold : Nat := key 0x6100 5
/-- MARGIN_FLOOR, 0x6100:06. -/
abbrev K.marginFloor : Nat := key 0x6100 6
/-- WARM_TIME, 0x6100:07. -/
abbrev K.warmTime : Nat := key 0x6100 7
/-- HANDOVER_GUARD, 0x6100:08. -/
abbrev K.handoverGuard : Nat := key 0x6100 8
/-- FLOOR_PREDICTION, 0x6100:09. -/
abbrev K.floorPrediction : Nat := key 0x6100 9
/-- HANDOVERS, 0x6100:0A. -/
abbrev K.handovers : Nat := key 0x6100 10
/-- MODULE_REQUESTS_FAILED, 0x6100:0B. -/
abbrev K.moduleRequestsFailed : Nat := key 0x6100 11
/-- COMMISSION, 0x6100:0C. -/
abbrev K.commission : Nat := key 0x6100 12
/-- COMMISSION_TICK, 0x6100:0D. -/
abbrev K.commissionTick : Nat := key 0x6100 13
/-- DEVICE_NUMBER, 0x6400:01. -/
abbrev K.deviceNumber : Nat := key 0x6400 1
/-- FABRIC_SIZE_X, 0x6400:02. -/
abbrev K.fabricSizeX : Nat := key 0x6400 2
/-- FABRIC_SIZE_Y, 0x6400:03. -/
abbrev K.fabricSizeY : Nat := key 0x6400 3
/-- FABRIC_SIZE_Z, 0x6400:04. -/
abbrev K.fabricSizeZ : Nat := key 0x6400 4
/-- EXPRESS_DIM, 0x6400:05. -/
abbrev K.expressDim : Nat := key 0x6400 5
/-- REMOTE_TIMEOUT, 0x6400:06. -/
abbrev K.remoteTimeout : Nat := key 0x6400 6
/-- LINK_DOWN_LIMIT, 0x6400:07. -/
abbrev K.linkDownLimit : Nat := key 0x6400 7
/-- REMOTE_OUTSTANDING, 0x6400:08. -/
abbrev K.remoteOutstanding : Nat := key 0x6400 8
/-- REMOTE_ERRORS, 0x6400:09. -/
abbrev K.remoteErrors : Nat := key 0x6400 9
/-- LAST_REMOTE_ERROR, 0x6400:0A. -/
abbrev K.lastRemoteError : Nat := key 0x6400 10
/-- LATE_RESPONSES, 0x6400:0B. -/
abbrev K.lateResponses : Nat := key 0x6400 11
/-- FLITS_DISCARDED, 0x6400:0C. -/
abbrev K.flitsDiscarded : Nat := key 0x6400 12
/-- WAIT_REGS_USED, 0x6400:0D. -/
abbrev K.waitRegsUsed : Nat := key 0x6400 13
/-- FAR_DEVICE, 0x6410 + q:01. -/
abbrev K.farDevice (q : Nat) : Nat := key (0x6410 + q) 1
/-- LINK_FAULT, 0x6410 + q:02. -/
abbrev K.linkFault (q : Nat) : Nat := key (0x6410 + q) 2
/-- FLITS_TX, 0x6410 + q:03. -/
abbrev K.flitsTx (q : Nat) : Nat := key (0x6410 + q) 3
/-- FLITS_RX, 0x6410 + q:04. -/
abbrev K.flitsRx (q : Nat) : Nat := key (0x6410 + q) 4
/-- CRC_ERRORS, 0x6410 + q:05. -/
abbrev K.crcErrors (q : Nat) : Nat := key (0x6410 + q) 5
/-- RESENDS, 0x6410 + q:06. -/
abbrev K.resends (q : Nat) : Nat := key (0x6410 + q) 6
/-- RETRAINS, 0x6410 + q:07. -/
abbrev K.retrains (q : Nat) : Nat := key (0x6410 + q) 7
/-- SESSIONS, 0x6410 + q:08. -/
abbrev K.sessions (q : Nat) : Nat := key (0x6410 + q) 8
/-- MESH_ENABLE, 0x6800:01. -/
abbrev K.meshEnable : Nat := key 0x6800 1
/-- MESH_STATE, 0x6800:02. -/
abbrev K.meshState : Nat := key 0x6800 2
/-- MESH_LOADED_SLOT, 0x6800:03. -/
abbrev K.meshLoadedSlot : Nat := key 0x6800 3
/-- MESH_STALE_POLICY, 0x6800:04. -/
abbrev K.meshStalePolicy : Nat := key 0x6800 4
/-- MESH_CAL_INTERVAL, 0x6800:05. -/
abbrev K.meshCalInterval : Nat := key 0x6800 5
/-- MESH_TEMP_STEP, 0x6800:06. -/
abbrev K.meshTempStep : Nat := key 0x6800 6
/-- SLOT_HOLD, 0x6800:07. -/
abbrev K.slotHold : Nat := key 0x6800 7
/-- MESH_TILES, 0x6800:08. -/
abbrev K.meshTiles : Nat := key 0x6800 8
/-- MESH_STALE_TILES, 0x6800:09. -/
abbrev K.meshStaleTiles : Nat := key 0x6800 9
/-- SLOT_LOADS, 0x6800:0A. -/
abbrev K.slotLoads : Nat := key 0x6800 10
/-- CAL_STEPS, 0x6800:0B. -/
abbrev K.calSteps : Nat := key 0x6800 11
/-- MESH_CAL_OVERDUE, 0x6800:0C. -/
abbrev K.meshCalOverdue : Nat := key 0x6800 12
/-- MESH_ERROR_EST, 0x6800:0D. -/
abbrev K.meshErrorEst : Nat := key 0x6800 13
/-- MESH_FAILED_INPUT, 0x6800:0E. -/
abbrev K.meshFailedInput : Nat := key 0x6800 14
/-- INPUT_AGE, 0x6800:0F. -/
abbrev K.inputAge : Nat := key 0x6800 15
/-- MESH_OFFSETS, 0x6800:10. -/
abbrev K.meshOffsets : Nat := key 0x6800 16
/-- MESH_LAST_ERROR, 0x6800:11. -/
abbrev K.meshLastError : Nat := key 0x6800 17
/-- SLOT_VALID, 0x6808 + s:01. -/
abbrev K.slotValid (s : Nat) : Nat := key (0x6808 + s) 1
/-- SLOT_CODES, 0x6808 + s:02. -/
abbrev K.slotCodes (s : Nat) : Nat := key (0x6808 + s) 2
/-- MESH_LOG_MODE, 0x6810 + p:01. -/
abbrev K.meshLogMode (p : Nat) : Nat := key (0x6810 + p) 1
/-- MESH_LOG_BASE, 0x6810 + p:02. -/
abbrev K.meshLogBase (p : Nat) : Nat := key (0x6810 + p) 2
/-- MESH_LOG_LENGTH, 0x6810 + p:03. -/
abbrev K.meshLogLength (p : Nat) : Nat := key (0x6810 + p) 3
/-- MESH_LOG_COUNTS, 0x6810 + p:04. -/
abbrev K.meshLogCounts (p : Nat) : Nat := key (0x6810 + p) 4
/-- TAP_WAIT_LIMIT, 0x7000:01. -/
abbrev K.tapWaitLimit : Nat := key 0x7000 1
/-- TAP_RETRY_LIMIT, 0x7000:02. -/
abbrev K.tapRetryLimit : Nat := key 0x7000 2
/-- TAP_ENABLE, 0x7010 + c:01. -/
abbrev K.tapEnable (c : Nat) : Nat := key (0x7010 + c) 1
/-- TAP_CORE_MASK, 0x7010 + c:02. -/
abbrev K.tapCoreMask (c : Nat) : Nat := key (0x7010 + c) 2
/-- TAP_FORMAT, 0x7010 + c:03. -/
abbrev K.tapFormat (c : Nat) : Nat := key (0x7010 + c) 3
/-- TAP_BANKS, 0x7010 + c:04. -/
abbrev K.tapBanks (c : Nat) : Nat := key (0x7010 + c) 4
/-- TAP_LINK, 0x7010 + c:05. -/
abbrev K.tapLink (c : Nat) : Nat := key (0x7010 + c) 5
/-- TAP_HELD, 0x7010 + c:06. -/
abbrev K.tapHeld (c : Nat) : Nat := key (0x7010 + c) 6
/-- TAP_BURSTS, 0x7010 + c:07. -/
abbrev K.tapBursts (c : Nat) : Nat := key (0x7010 + c) 7
/-- TAP_CORRECTED, 0x7010 + c:08. -/
abbrev K.tapCorrected (c : Nat) : Nat := key (0x7010 + c) 8
/-- TAP_RETRIES, 0x7010 + c:09. -/
abbrev K.tapRetries (c : Nat) : Nat := key (0x7010 + c) 9
/-- TAP_ABORTS, 0x7010 + c:0A. -/
abbrev K.tapAborts (c : Nat) : Nat := key (0x7010 + c) 10
/-- TAP_OFFERS_REJECTED, 0x7010 + c:0B. -/
abbrev K.tapOffersRejected (c : Nat) : Nat := key (0x7010 + c) 11
/-- TAP_LAST_ERROR, 0x7010 + c:0C. -/
abbrev K.tapLastError (c : Nat) : Nat := key (0x7010 + c) 12
/-- TAP_CLOCK, 0x7010 + c:0D. -/
abbrev K.tapClock (c : Nat) : Nat := key (0x7010 + c) 13
/-- EVENT_LOG, 0x7800:01. -/
abbrev K.eventLog : Nat := key 0x7800 1
/-- EVENT_LOG_HEAD, 0x7800:02. -/
abbrev K.eventLogHead : Nat := key 0x7800 2
/-- EVENT_LOG_LOST, 0x7800:03. -/
abbrev K.eventLogLost : Nat := key 0x7800 3
/-- EVENT_VECTOR, 0x7800:04. -/
abbrev K.eventVector : Nat := key 0x7800 4
/-- EVENT_MIN_SEVERITY, 0x7800:05. -/
abbrev K.eventMinSeverity : Nat := key 0x7800 5
/-- PART_FAULT, 0x7810 + p:01. -/
abbrev K.partFault (p : Nat) : Nat := key (0x7810 + p) 1
/-- PART_FAULT_ADDRESS, 0x7810 + p:02. -/
abbrev K.partFaultAddress (p : Nat) : Nat := key (0x7810 + p) 2
/-- PART_FAULT_TICK, 0x7810 + p:03. -/
abbrev K.partFaultTick (p : Nat) : Nat := key (0x7810 + p) 3
/-- PART_FAULTS, 0x7810 + p:04. -/
abbrev K.partFaults (p : Nat) : Nat := key (0x7810 + p) 4
/-- PART_RELEASE, 0x7810 + p:05. -/
abbrev K.partRelease (p : Nat) : Nat := key (0x7810 + p) 5
/-- TORN_LIST, 0x7810 + p:06. -/
abbrev K.tornList (p : Nat) : Nat := key (0x7810 + p) 6
/-- AUDIT_LAST_TICK, 0x7840:01. -/
abbrev K.auditLastTick : Nat := key 0x7840 1
/-- BROKEN_IDENTITY, 0x7840:02. -/
abbrev K.brokenIdentity : Nat := key 0x7840 2
/-- AUDIT_DETAIL, 0x7840:03. -/
abbrev K.auditDetail : Nat := key 0x7840 3
/-- AUDIT_EXPECTED, 0x7840:04. -/
abbrev K.auditExpected : Nat := key 0x7840 4
/-- AUDIT_FOUND, 0x7840:05. -/
abbrev K.auditFound : Nat := key 0x7840 5
/-- SNAP_THREAD, 0x7C00:01. -/
abbrev K.snapThread : Nat := key 0x7C00 1
/-- SNAP_REGS, 0x7C00:02. -/
abbrev K.snapRegs : Nat := key 0x7C00 2
/-- SNAP_PRIV_ADDRESS, 0x7C00:03. -/
abbrev K.snapPrivAddress : Nat := key 0x7C00 3
/-- SNAP_PRIV_LENGTH, 0x7C00:04. -/
abbrev K.snapPrivLength : Nat := key 0x7C00 4
/-- SNAP_PRIV_DATA, 0x7C00:05. -/
abbrev K.snapPrivData : Nat := key 0x7C00 5
/-- DIGEST_ADDRESS, 0x7C00:06. -/
abbrev K.digestAddress : Nat := key 0x7C00 6
/-- DIGEST_LENGTH, 0x7C00:07. -/
abbrev K.digestLength : Nat := key 0x7C00 7
/-- DIGEST, 0x7C00:08. -/
abbrev K.digest : Nat := key 0x7C00 8
/-- DIGEST_POISONED, 0x7C00:09. -/
abbrev K.digestPoisoned : Nat := key 0x7C00 9
/-- REPLAY_ENABLE, 0x7C10 + p:01. -/
abbrev K.replayEnable (p : Nat) : Nat := key (0x7C10 + p) 1
/-- STOP_AFTER, 0x7C10 + p:02. -/
abbrev K.stopAfter (p : Nat) : Nat := key (0x7C10 + p) 2
/-- STOP_STATE, 0x7C10 + p:03. -/
abbrev K.stopState (p : Nat) : Nat := key (0x7C10 + p) 3
/-- TEL_VERBS, 0x8000:01. -/
abbrev K.telVerbs : Nat := key 0x8000 1
/-- TEL_TILES, 0x8000:02. -/
abbrev K.telTiles : Nat := key 0x8000 2
/-- TEL_NEAR_LINES, 0x8000:03. -/
abbrev K.telNearLines : Nat := key 0x8000 3
/-- TEL_DEEP_LINES, 0x8000:04. -/
abbrev K.telDeepLines : Nat := key 0x8000 4
/-- TEL_RECORDS, 0x8000:05. -/
abbrev K.telRecords : Nat := key 0x8000 5
/-- TEL_PART_VERBS, 0x8010 + p:01. -/
abbrev K.telPartVerbs (p : Nat) : Nat := key (0x8010 + p) 1
/-- TEL_PART_TILES, 0x8010 + p:02. -/
abbrev K.telPartTiles (p : Nat) : Nat := key (0x8010 + p) 2
/-- TEL_PART_CYCLES, 0x8010 + p:03. -/
abbrev K.telPartCycles (p : Nat) : Nat := key (0x8010 + p) 3
/-- TEL_WATCH, 0x8800 + t:01. -/
abbrev K.telWatch (t : Nat) : Nat := key (0x8800 + t) 1
/-- TEL_LEVEL, 0x8800 + t:02. -/
abbrev K.telLevel (t : Nat) : Nat := key (0x8800 + t) 2
/-- TEL_ARMED, 0x8800 + t:03. -/
abbrev K.telArmed (t : Nat) : Nat := key (0x8800 + t) 3


/-- Does row `r` hold index:sub? -/
def ObjRow.has (r : ObjRow) (idx sub : Nat) : Bool :=
  decide (r.base ≤ idx) && decide (idx < r.base + r.count) && decide (r.sub ≤ sub) &&
    decide ((sub - r.sub) % r.step = 0) && decide ((sub - r.sub) / r.step < r.subs)

/-- Is the index implemented (R683)? -/
def idxKnown (idx : Nat) : Bool :=
  objTable.any (fun r => decide (r.base ≤ idx) && decide (idx < r.base + r.count))

/-- The row of an object, subindex 0x00 apart. -/
def findObj (idx sub : Nat) : Option ObjRow := objTable.find? (fun r => r.has idx sub)

/-- The highest subindex implemented at an index (R45). -/
def maxSub (idx : Nat) : Nat :=
  objTable.foldl (fun m r => if r.base ≤ idx ∧ idx < r.base + r.count then max m (r.sub + r.step * (r.subs - 1)) else m) 0

/-- The default of a scalar object by key, in the laptop build (R49); 0 for a key that names no object. -/
def objDflt (k : Nat) : Nat :=
  match findObj (k / 256) (k % 256) with
  | some r => if r.perInst then r.dflt + (k / 256 - r.base) else r.dflt
  | none => 0

/-- The default bytes of a DOMAIN object by key (Tables 21-5 to 21-11). -/
def domDflt (k : Nat) : List Byte :=
  let i := k / 256
  let j := k % 256
  if i = 0x3100 ∧ j = 1 then List.replicate 512 255
  else if i = 0x3100 ∧ j = 2 then List.replicate 2048 0
  else if i = 0x6000 ∧ (j = 6 ∨ j = 7) then List.replicate 36 0
  else if 0x6010 ≤ i ∧ i < 0x6018 ∧ (j = 6 ∨ j = 7) then List.replicate 204 0
  else if i = 0x6800 ∧ j = 16 then List.replicate 8192 0
  else if 0x6808 ≤ i ∧ i < 0x6810 ∧ j = 2 then List.replicate 4096 0
  else if 0x6810 ≤ i ∧ i < 0x6820 ∧ j = 4 then List.replicate 256 0
  else []

/-- The bytes a type takes (Table 3-1). -/
def Ty.size : Ty → Nat
  | .bool | .u8 => 1
  | .u16 => 2
  | .u32 | .f32 => 4
  | .u64 | .i64 => 8
  | .domain m => m

/-- The type code of Table 3-1. -/
def Ty.code : Ty → Nat
  | .bool => 0x01 | .u8 => 0x02 | .u16 => 0x03 | .u32 => 0x04 | .u64 => 0x05
  | .i64 => 0x09 | .f32 => 0x0A | .domain _ => 0x0C

/-- The access code of DESCRIBE (Table 3-5). -/
def Access.code : Access → Nat
  | .ro => 0 | .rw => 1 | .wo => 2

end Sys2Proof.Machine
end

