-- ==== Sys2Proof/Machine/State.lean ====
section
/-!
DEFINITION. The state of the SV-64A: everything the spec gives the machine, grouped by the unit that owns it, as plain
data. Objects of the dictionary that are configuration or plain counters are held by key in `Dict`; objects that show
an engine's own state are computed from that state when they are read (Machine/Dictionary.lean).
-/
namespace Sys2Proof.Machine

/-- Scalar object values by key; an unlisted key holds its default. -/
abbrev KV := SMap Nat
/-- DOMAIN object values by key. -/
abbrev Doms := SMap (List Byte)

/-- The object dictionary (R49 to R52): the active and the shadow copies of the set objects, the single objects, and
the same for DOMAIN objects. -/
structure Dict where
  act : KV
  shd : KV
  sgl : KV
  dact : Doms
  dshd : Doms
  dsgl : Doms
  deriving DecidableEq, Repr

/-- The moods of Table 4-2. -/
inductive Mood where
  | off | cold | hush | dormant | listen | brisk | full | brace | quiesce | fault
  deriving DecidableEq, Repr

/-- A transition in progress other than Quiesce (R100, R107, R112): the mood it left, the mood it enters, and the
phases still to complete, the running one first. `tripped`: a thermal trip was sampled, so the wake ends after the
running phase (R107); `waiting`: the next phase waits for Brace to exit (R128). -/
structure Trans where
  start : Mood
  dest : Mood
  left : List Nat
  tripped : Bool
  waiting : Bool
  deriving DecidableEq, Repr

/-- The mood machine (chapter 4). `ret` is RETURN_MOOD, off for none; `before` the mood whose islands Brace, Quiesce and
Fault keep; `exitCnt` and `lingerCnt` the counts of the Brace exit and linger timers; `heldReq` the request that R110 holds;
`heldItems` the demands counted in DEMAND_HELD (R114); `wakeHeld` a WAKE_N assertion that Quiesce holds (R134); `started` the
tick in which a transition has started, until the next boundary (R106), and `wiped` whether a core-domain reset has been
applied in this tick (R41); `rstAsserted` is the level of RST_N, and `drainTick` the tick in which Quiesce began to drain (Table
4-6, step 3). -/
structure MoodSt where
  cur : Mood
  target : Mood
  ret : Mood
  entryTick : Nat
  phase : Nat
  trans : Option Trans
  configured : Bool
  heldReq : Option Mood
  exitCnt : Nat
  lingerCnt : Nat
  heldItems : List Nat
  rstAsserted : Bool
  wakeAsserted : Bool
  wakeHeld : Bool
  started : Option Nat
  wiped : Bool
  tapWake : Bool
  before : Mood
  halved : Bool
  drainTick : Nat
  deriving DecidableEq, Repr

/-- One supply monitor (Table 20-5, R664 to R666). `sumMv` and `samples` form the mean of SUPPLY_MV. -/
structure Mon where
  active : Bool
  state : Nat
  mv : Nat
  sumMv : Nat
  samples : Nat
  minMv : Nat
  deriving DecidableEq, Repr

/-- Thermal sensing and trip (R172, R673, R674). `cool` counts the ticks since any sensor stood less than 5 °C below its trip
level. -/
structure Thermal where
  sensors : Vector W32 12
  tripActive : Bool
  cool : Nat
  tn : W32
  junction : W32
  peak : W32
  deriving DecidableEq, Repr

/-- Clock points and clocks (R115, R155, R179): the point of each cluster, whether its clock is stopped, for how many
ticks none of its cores had work, whether one had in this planner period (R180), and SURGE_ACTIVE; `dip` and `dipSurge` are
the points and Surge held before the dip, while the device is in Brace (R129, R179). -/
structure Clocks where
  points : Vector Nat 8
  dip : Vector Nat 8
  dipSurge : Bool
  stopped : Vector Bool 8
  idle : Vector Nat 8
  ran : Vector Bool 8
  surge : Bool
  deriving DecidableEq, Repr

/-- One event-log record (Table 19-4). -/
structure LogRec where
  tick : Nat
  seq : Nat
  source : Nat
  severity : Nat
  part : Nat
  a : Nat
  b : Nat
  deriving DecidableEq, Repr

/-- The event log (R632) and the one-message-per-tick rule of R635. -/
structure Log where
  recs : List LogRec
  seq : Nat
  msixSent : Bool
  deriving DecidableEq, Repr

/-- The always-on island, the dictionary and ledger apart. `lock` is TICK_LOCK (R27 to R32); `node` and `sled` are the
straps (R56, R670); `railEn`, `railGood` are the rail control pins (Table 20-2), `railTick` when each enable last rose
(R657); `relocking` since crystal edges returned in holdover (R32); `audit` holds AUDIT_EXPECTED and
AUDIT_FOUND (R614); `low` says which accounts were below their low marks when last sampled (R153); `above` which
telemetry thresholds (R652); `stale` is BATTERY_STALE (R169); `swapAsked` the tick in which the swap pending was asked for
(R95). -/
structure Aon where
  tick : Nat
  lock : Nat
  node : BitVec 3
  sled : Bool
  mood : MoodSt
  mons : Vector Mon 8
  thermal : Thermal
  clocks : Clocks
  railEn : BitVec 5
  railGood : BitVec 4
  railTick : Vector Nat 4
  relocking : Bool
  log : Log
  low : Vector Bool 17
  above : Vector Bool 16
  stale : Bool
  auditExpected : Int
  auditFound : Int
  swapStatus : Nat
  swapTick : Nat
  swapAsked : Nat
  held : List Event
  deriving DecidableEq, Repr

/-- One sub-ledger (R146), in nJ. -/
structure Sub where
  balance : Int
  reserved : Int
  spent : Int
  deriving DecidableEq, Repr

/-- The ledger (R146, R147), in nJ; `residue` is the sub-nanojoule remainder of settled verbs, in pJ (R162). -/
structure Ledger where
  deposits : Int
  pool : Int
  poolSpent : Int
  totalReserved : Int
  totalSpent : Int
  subs : Vector Sub 16
  residue : Nat
  deriving DecidableEq, Repr

/-- A PDU in a receive buffer (R75), with its requester and the tick in which it was sampled, once it has been (R30, R41). -/
structure RxPdu where
  req : Requester
  bytes : List Byte
  tick : Option Nat
  deriving DecidableEq, Repr

/-- The record R80 keeps of a requester's last request. -/
structure Dup where
  req : Requester
  txn : Byte
  check : BitVec 16
  resp : List Byte
  tick : Nat
  deriving DecidableEq, Repr

/-- A segmented transfer (R82 to R86). `buf` is the captured copy of a read, or the bytes a write has brought; `ackStatus`
and `ackData` are the acknowledgement of the last segment, which R84 resends, also when that segment has `closed` the
transfer. -/
structure Seg where
  owner : Requester
  write : Bool
  obj : ObjRef
  total : Nat
  buf : List Byte
  next : Nat
  torn : Bool
  tick : Nat
  closed : Bool
  ackStatus : Nat
  ackData : List Byte
  deriving DecidableEq, Repr

/-- A queued notification (Table 3-7); `offered` once the in-band interrupt of R61 has been raised for it. -/
structure Notify where
  seq : BitVec 16
  dropped : Bool
  tick : Nat
  idx : BitVec 16
  sub : Byte
  value : Nat
  offered : Bool
  deriving DecidableEq, Repr

/-- The host mailbox (R64 to R67, R694). `req` is MBOX_REQ, `waiting` are responses that wait for RSP_READY to clear, and
`vector` the value of MBOX_VECTOR that takes effect once the response that waits is handed over (R53). -/
structure Mbox where
  req : List Byte
  vector : Option Nat
  busy : Bool
  rspReady : Bool
  ntfReady : Bool
  rsp : List Byte
  ntf : List Byte
  waiting : List (List Byte)
  restore : Bool
  deriving DecidableEq, Repr

/-- The I3C target (R59 to R63): pending responses, in-band interrupts enabled, the dynamic
address, the selection of RSTACT for the next target reset pattern, the maximum write and read lengths, and the notification
that a private read has cut short (R60). -/
structure I3c where
  cut : Option (List Byte)
  rsp : List (List Byte)
  ibi : Bool
  dyn : BitVec 7
  rstact : Option Bool
  mwl : BitVec 16
  mrl : BitVec 16
  deriving DecidableEq, Repr

/-- A BAR2 request that waits: held by a demand above the ceiling, by Quiesce, or for the wake that it raised
(R114, R132, R237). -/
inductive HeldBar2 where
  | read (off : Nat) (len : Nat)
  | write (off : Nat) (data : List Byte)
  | atomic (code w off opnd cmp : Nat)
  deriving DecidableEq, Repr

/-- The link header of a flit that the device sends (Table 16-3), and the credits it returns. -/
structure FlitHead where
  seq : BitVec 16
  ack : BitVec 16
  channel : Nat
  nak : Bool
  switch : Option Nat
  credits : List Nat
  deriving DecidableEq, Repr

/-- Everything the device sends (the model's own record; notes/assumptions/4.md). A flit without a message is a null
flit. -/
inductive Output where
  | pdu (dest : Requester) (bytes : List Byte)
  | i3cByte (bytes : List Byte)
  | i3cNack
  | i3cAck
  | ibi (mdb : Byte)
  | t1sFrame (bytes : List Byte)
  | msix (vector : Nat)
  | bar2Data (bytes : List Byte) (poisoned : Bool)
  | bar2Unsupported
  | flit (q : PortId) (h : FlitHead) (m : Option Msg)
  | mgmt (q : PortId) (kind : Nat) (arg : Nat)
  | tapGnt (ch : ChanId)
  | tapErr (ch : ChanId)
  | tapRet (ch : ChanId) (bank : Nat)
  | moduleReq (txn : Byte) (write : Bool) (sub : Nat) (value : Nat)
  deriving DecidableEq, Repr

/-- The transports and the host interface. `rx` holds the PDUs of the three receive buffers in arrival order, and `segs` is
indexed by transport (0 mailbox, 1 I3C, 2 10BASE-T1S);
`doorbells` holds the last accepted value of each doorbell register (R321); `t1sTx` the frames that wait for a
transmit opportunity (R79); `readTick` is the tick in which the request being executed was sampled, where that is an earlier
one (R30). -/
structure Link where
  readTick : Option Nat
  rx : List RxPdu
  dups : List Dup
  segs : Vector (Option Seg) 3
  notifyQ : List Notify
  notifySeq : BitVec 16
  notifyLost : Bool
  t1sTx : List (List Byte)
  mbox : Mbox
  i3c : I3c
  doorbells : Vector W32 96
  msixTable : Vector (BitVec 128) 64
  msixPba : BitVec 64
  bar2 : List (HeldBar2 × Bool)
  out : List Output
  deriving DecidableEq, Repr

/-- A request to the store (Request credits): the row of Table 6-3 whose credit it holds, the holder's number in that row,
the bank (0 to 63) or deep channel (64 on) it goes to, and the store-clock cycle in which it arrived there. -/
structure StoreReq where
  cls : Nat
  holder : Nat
  unit : Nat
  since : Nat
  deriving DecidableEq, Repr

/-- Request credits and arbitration (R198 to R201, R617, R227): the free credits at each holder, the requests queued or in
service, oldest first, the credits in return, the store-clock cycles counted while requests are served, the holder last
served in turn at each bank or channel, where the last grant went to an aged request, and how many grants each has made
since its last background one. -/
structure Traffic where
  free : SMap Nat
  queue : List StoreReq
  back : List StoreReq
  cycle : Nat
  turn : SMap Nat
  aged : List Nat
  slots : SMap Nat
  deriving DecidableEq, Repr

/-- The central store (chapter 6): bytes by local offset (near tier, descriptor tables, deep tier), the poisoned words, the
words that hold a single-bit (`single`) or an uncorrectable (`latent`) error that no read has found yet (R222, R223),
the conjunction counters, the signal counts of R361, which arrays of each spill entry are spilled (listen part, store
part, R121), the scrub positions, with the one held for near arrays that are not live (R226), the deep channels in
self-refresh and the tick of each one's last access (R197), the units with an overdue background request (R227), and the
requests on their way. -/
structure Store where
  mem : Memory
  poison : List Nat
  single : List Nat
  latent : List Nat
  conj : SMap Nat
  sigAccepted : Nat
  sigApplied : Nat
  spilled : Vector (Bool × Bool) 8
  scrubNear : Nat
  scrubHeld : Option Nat
  scrubDeep : Nat
  selfRefresh : Vector Bool 16
  chanUse : Vector Nat 16
  overdue : List BgUnit
  traffic : Traffic
  deriving DecidableEq, Repr

/-- One scoreboard entry (R338). -/
structure SbEntry where
  ticket : Nat
  core : Nat
  write : Bool
  lo : Nat
  hi : Nat
  torn : Bool
  deriving DecidableEq, Repr

/-- A signal in the history of R625. -/
structure SigRec where
  ref : Nat
  value : Nat
  dev : Nat
  part : Nat
  kind : Nat
  tick : Nat
  deriving DecidableEq, Repr

/-- A SIGNAL_AT_RETIRE that waits for verbs of its clause (R290): the tickets that still have to reach step 5, whether
its clause may still push (`opened`), and whether one of its verbs was abandoned. -/
structure PendSig where
  thread : Nat
  ref : W64
  value : W32
  tickets : List Nat
  opened : Bool
  dropped : Bool
  deriving DecidableEq, Repr

/-- A partition (chapter 7): PART_STATE, its ticket and scoreboard, the counts of its completion ring, the order of
energy admission (R158), pending signals, the signal history, the stalemate count, and what a halt or a reset in
progress waits for. -/
structure Part where
  state : Nat
  ticket : Nat
  sb : List SbEntry
  produced : W32
  consumed : W32
  energyQ : List Nat
  energyWait : Bool
  sigs : List PendSig
  hist : List SigRec
  quiet : Nat
  rang : Bool
  halting : Bool
  faulted : Bool
  stopped : Bool
  resetTick : Nat
  deadlineSeen : Bool
  deriving DecidableEq, Repr

/-- The counts of a feed or clause ring (R321 to R326, Feed-ring fetch): tail, retire pointer, fetch pointer, program
counter and hold point. -/
structure RingPos where
  tail : W32
  retire : W32
  fetch : W32
  pc : W32
  hold : Option W32
  deriving DecidableEq, Repr

/-- A push that waits for room (R289): a verb slot with its place in the clause, adverb and immediate, or an
address-stream op. -/
inductive PushOp where
  | verb (second : Bool) (slot : BitVec 128) (adv : W32) (imm : Option W64)
  | stream (slot : W64)
  deriving DecidableEq, Repr

/-- Why a thread waits inside a clause (R292). A wait on a remote counter keeps the tag of its registration, whether the
holding device has it, and the tick it was sent (R572). A memo wait of an instruction that came outside a clause keeps
the instruction's word. -/
inductive Wait where
  | none
  | conj (ref : W64) (value : W32) (registered : Bool) (tag : BitVec 16) (tick : Nat)
  | push (o : PushOp)
  | memo (k : MReg) (row : Option W32)
  | fence
  | remote (tag : BitVec 16)
  deriving DecidableEq, Repr

/-- Where a thread stands in its clause: the step of Table 8-10 it takes next, the instruction or push within the
step, the branch taken, the hold-point change that step 7 applies, and the verbs of the clause that were pushed. -/
structure ClauseSt where
  active : Bool
  parcels : List W32
  words : Nat
  step : Nat
  sub : Nat
  redirect : Option Int
  mark : Option Bool
  pushed : List Nat
  deriving DecidableEq, Repr

/-- A thread (chapter 8): a control core (64 + k) or the ring state of a core. A core's thread uses `m`, `pend`, `l`
and the ring positions only. `run` is 5 once a thread fault has stopped it, else 0 (THREAD_STATE follows from the partition and the wait). -/
structure Thread where
  run : Nat
  s : Vector W64 64
  p : Vector Bool 8
  m : Vector W64 16
  pend : Vector Nat 16
  l : Vector (BitVec 24) 4
  priv : Memory
  fetchq : List (W32 × List W32)
  cl : ClauseSt
  wait : Wait
  holding : Bool
  faultWord : BitVec 16
  faultAddr : W64
  pushRejected : Nat
  clausesRetired : Nat
  verbsPushed : Nat
  flush : Nat
  deriving DecidableEq, Repr

/-- Where a verb stands between its push and its retirement. -/
inductive VStage where
  | queued | recorded | energyWait | admitted | running | preempted | retiring
  deriving DecidableEq, Repr

/-- Partial summaries of a verb (Table 10-9). -/
structure Sums where
  active : Nat
  streamed : Nat
  saturated : Nat
  nanOut : Nat
  infOut : Nat
  emptyLines : Nat
  maxMag : W64
  last : W64
  deriving DecidableEq, Repr

/-- The reduction and stream state that a verb carries at tile boundaries (R405): accumulators, row states, active
counts, and the compress or expand stream position. Accumulators hold binary32 patterns, or int64 in the int32 path. -/
structure RedSt where
  acc : List W64
  rs0 : List W32
  rs1 : List W32
  aux : List W32
  cnt : List Nat
  pos : List Nat
  stream : Nat
  deriving DecidableEq, Repr

/-- What a verb carried as it took an input tile whose output has not begun to commit, to which preemption goes back (R404,
R405): the tile, the reduction state and summaries, the rounding generator, the cursor of the core's mesh log, and how many
streamed addresses the tile takes. -/
structure Keep where
  tile : Nat
  red : RedSt
  sums : Sums
  lfsr : W32
  cursor : Nat
  rows : Nat
  deriving DecidableEq, Repr

/-- An address-stream op in an engine queue (R283, R284): its mode and the register values it captured. -/
structure Stream where
  part : Nat
  thread : Nat
  mode : Nat
  rb : W64
  rs : W64
  isize : Nat
  shift : Nat
  count : Nat
  used : Nat
  deriving DecidableEq, Repr

/-- A verb: the slot, adverb and values captured at its push (R279, R280), the descriptors and configuration of its
recording and admission (R266, R374, R376), its reservation and metered energy (in pJ), and the context R405 names.
`awaited` is the tick since which it awaits a tap tile (R502), `topWait` an energy wait for a top-up (R168), `waits6` the
wait at step 6 (R331), `keeps` what it carried into each tile since the last complete one, and `rnd` the rounding state of
a preempted verb (R405, R422). -/
structure Verb where
  slot : BitVec 128
  adv : W32
  k : Option W64
  imm : Option W64
  caps : Vector (Option (Vector W64 16)) 4
  descs : Vector (Option (BitVec 512)) 4
  ticket : Nat
  part : Nat
  thread : Nat
  clause : W64
  second : Bool
  stage : VStage
  cfg : BitVec 384
  res : Nat
  scale : Nat
  metered : Nat
  tiles : Nat
  done : Nat
  red : RedSt
  sums : Sums
  topWait : Bool
  resumed : Bool
  awaited : Nat
  waits6 : Bool
  energy : Nat
  fullCounted : Bool
  hazCounted : Bool
  keeps : List Keep
  rnd : Option W32
  deriving DecidableEq, Repr

/-- One entry of an engine queue (R327). -/
inductive QEnt where
  | verb (v : Verb)
  | stream (s : Stream)
  deriving DecidableEq, Repr

/-- One byte that an output tile writes: its global address, its value, the bits of it that are written, and the row of the
tile that it belongs to. -/
structure OutByte where
  addr : W64
  val : Byte
  mask : Byte
  row : Nat
  deriving DecidableEq, Repr

/-- An output tile in a core's write buffer (R202): the verb it belongs to, the input tile it comes from, and its bytes,
which all lie on one device. `remote` is 0 while its commit has not been asked for, else 1 + the tag of its tile
transaction (R569); `begun` once a part of the same output has begun to commit. A tile whose verb has been abandoned has
ticket 0. -/
structure OutTile where
  ticket : Nat
  part : Nat
  tile : Nat
  bytes : List OutByte
  remote : Nat
  begun : Bool
  deriving DecidableEq, Repr

/-- A core: walker sets, engine queue, the verb that streams, the verbs that have left the chain and retire in start
order, the preempted verb, the write buffer, the rounding generator, the two chain configurations, a pending
FLUSH with the tickets it waits for (R695), the bytes that have arrived for its tile from other devices, and the lines of
its tile counted as held by an overlap (R213). -/
structure CoreSt where
  walkers : Vector (Vector W64 16) 8
  queue : List QEnt
  active : Option Verb
  retiring : List Verb
  pre : Option Verb
  wbuf : List OutTile
  lfsr : W32
  cfgA : BitVec 384
  cfgS : BitVec 384
  retired : Nat
  preemptReq : Bool
  flush : Nat
  flushFor : List Nat
  meshCursor : Nat
  rdata : List (Nat × List Byte)
  heldReads : List Nat
  deriving DecidableEq, Repr

/-- A burst on a tap channel's bus (R484, R487): `tries` resends so far; `wanted` until the verb it was granted for is
abandoned, after which its data is discarded. -/
structure Burst where
  bank : Nat
  dest : Nat
  tick : Nat
  tries : Nat
  wanted : Bool
  deriving DecidableEq, Repr

/-- An offer that the matrix side holds on a channel (R486). -/
structure Offer where
  bank : Nat
  fmt : Nat
  dest : Nat
  deriving DecidableEq, Repr

/-- A tap channel (chapter 14): its link signals, the offer pending, the burst on the bus, the tile buffers in use,
the banks held (TAP_HELD) and the clock. -/
structure TapCh where
  linkM : Bool
  linkV : Bool
  training : Bool
  offer : Option Offer
  bus : Option Burst
  bufs : List (Nat × List W32)
  heldBanks : BitVec 64
  clock : Nat
  deriving DecidableEq, Repr

/-- The session and buffers of one link (R553, R558, R559). A flit of the retry buffer stands with its SEQ, its channel, its
message and the credits that it returns. -/
structure Session where
  kept : Bool
  txSeq : BitVec 16
  rxSeq : BitVec 16
  retry : List (BitVec 16 × Nat × Msg × List Nat)
  rxBuf : List (Nat × Msg)
  credits : Vector Nat 5
  ret : Vector Nat 5
  naks : Nat
  deriving DecidableEq, Repr

/-- The driver of a ring modulator (Table 15-5): its range, 0 for 0.6 V, 1 for 0.9 V, 2 for 1.2 V, its four 6-bit codes, and
for how many ns it was held at mid-code before them (R517). -/
structure RingDrive where
  swing : Nat
  levels : List Nat
  blank : Nat
  deriving DecidableEq, Repr

/-- A Filver port (chapters 15 and 16). Rings are numbered 0 to 16 for transmit and 17 to 33 for receive. `codes` are the
heater codes, `points` the set points of the lock loops (R525), and `drive` the drivers of the transmit rings. -/
structure Port where
  state : Nat
  rings : Vector Nat 34
  codes : Vector (BitVec 16) 34
  points : Vector (BitVec 16) 34
  drive : Vector RingDrive 17
  stored : Vector (Option (BitVec 16)) 34
  slotsTx : Vector Nat 16
  slotsRx : Vector Nat 16
  searched : Bool × Bool
  calibrated : Bool × Bool
  moving : Option (Nat × Nat × Nat)
  idTick : Vector Nat 34
  since : Nat
  retraining : Bool
  far : BitVec 16
  fault : Nat
  sess : Session
  calFar : Bool
  calTx : Bool
  deriving DecidableEq, Repr

/-- A request of the device to its laser module (R510, R512). -/
structure ModReq where
  txn : Byte
  write : Bool
  sub : Nat
  value : Nat
  tick : Nat
  resends : Nat
  failed : Bool
  deriving DecidableEq, Repr

/-- A mislock move in progress (R528, R529): the port and ring concerned, the tick of its announcement, whether the ring
carries a slot that has to move first, whether the ring is relocked afterwards (not when the far device asked), and whether
that relock fails (R526). -/
structure Mislock where
  port : PortId
  ring : LineId
  tick : Nat
  moves : Bool
  relock : Bool
  fails : Bool
  deriving DecidableEq, Repr

/-- Light, rotation and fade (chapter 15). `announce` is the tick in which a rotation move was announced, `moveTick` that
of the last move (R531, R532); `lineSource` is LINE_SOURCE as the module holds it and `switching` the bit being switched
(R541); `sources` tells whether the primary and the spare source report ready; `samples` are the losses of R537, oldest
first; `lit` while the photonic island is powered. -/
structure Photonics where
  lit : Bool
  spareLine : Nat
  announce : Option Nat
  moveTick : Nat
  mislock : Option Mislock
  req : Option ModReq
  queue : List (Bool × Nat × Nat)
  txn : Byte
  linkState : Nat
  lineSource : BitVec 18
  sources : Bool × Bool
  fade : Nat
  samples : List (List Int)
  warmTick : Nat
  stepTick : Nat
  switching : Option Nat
  prediction : Nat
  deriving DecidableEq, Repr

/-- A remote request that awaits its answer (R570). -/
structure RemReq where
  tag : BitVec 16
  type : Byte
  part : Nat
  thread : Nat
  core : Nat
  dev : Nat
  tick : Nat
  addr : W64
  dst : Nat
  ticket : Nat
  deriving DecidableEq, Repr

/-- A remote commit buffer (R569): the transaction it holds and the bytes received. -/
structure CommitBuf where
  dev : Nat
  part : Nat
  tag : BitVec 16
  flits : Nat
  bytes : List OutByte
  deriving DecidableEq, Repr

/-- A wait registration held for another device (R572). -/
structure WaitReg where
  dev : Nat
  part : Nat
  thread : Nat
  tag : BitVec 16
  index : Nat
  value : W32
  deriving DecidableEq, Repr

/-- The fabric (chapter 16): requests outstanding, messages that wait for injection, commit buffers, registrations, the
remote service queue, the flit counts of R561, and the tags of requests that timed out (R571). -/
structure Fabric where
  outstanding : List RemReq
  inject : List Msg
  service : List Msg
  commits : Vector (Option CommitBuf) 16
  regs : List WaitReg
  nextTag : BitVec 16
  received : Nat
  injected : Nat
  sent : Nat
  ejected : Nat
  discarded : Nat
  late : List (BitVec 16)
  deriving DecidableEq, Repr

/-- An input step that is due (R589): its input, the tick in which it fell due, and whether it was counted overdue. -/
structure DueStep where
  input : Fin 64
  tick : Nat
  late : Bool
  deriving DecidableEq, Repr

/-- The Filver mesh (chapter 17): its state (4 and 5 of Table 17-4 are both held as 4), the loaded slot and when its
shifters have settled, the temperature last sampled, when each input's last step completed and at what temperature, the
steps that are due, the tick in which the first round of R604 began, the input that falls due next in turn, failed
verifications in a row, the core last served, the DAC resolution of the last grant, the state a source change returns to,
the tiles that wait, the grant in the mesh, whether every input was fresh at that grant and the ns for which its first vector
was held dark (R517, R584, R585), and the grants since the last background step (R590). -/
structure Mesh where
  state : Nat
  loaded : Nat
  settle : Nat
  temp : W32
  stepTick : Vector (Option Nat) 64
  stepTemp : Vector W32 64
  gainDue : Bool
  gainFell : Nat
  gainLate : Bool
  gainMon : Int
  due : List DueStep
  dueTick : Nat
  roundTick : Nat
  turn : Fin 64
  fails : Vector Nat 64
  lastCore : Nat
  res : Nat
  before : Nat
  waiting : List (Nat × Nat)
  granted : Option Nat
  fresh : Bool
  blank : Nat
  grants : Nat
  deriving DecidableEq, Repr

/-- The whole machine. `freeCtr` is the model's own counter behind its free values (notes/assumptions/3.md), and
`pending` its queue of commands, first in, first out. -/
structure State where
  aon : Aon
  dict : Dict
  ledger : Ledger
  link : Link
  store : Store
  parts : Vector Part 16
  rings : Vector RingPos 80
  threads : Vector Thread 80
  cores : Vector CoreSt 64
  tap : Vector TapCh 4
  ports : Vector Port 8
  pho : Photonics
  fab : Fabric
  mesh : Mesh
  freeCtr : Nat
  pending : List Instr
  deriving DecidableEq, Repr

/-- Reasons the model can stop with a fault. The spec's faults are all states of the device (a partition fault, a
thread fault, the mood Fault), which the meanings take as next states, so none of these is raised by a command that
the spec gives an effect. -/
inductive Fault where
  /-- Raised by no meaning: kept so that the type is not empty. Safe. -/
  | unreachable
  deriving DecidableEq, Repr

/-- Reasons the model refuses a command. -/
inductive Refusal where
  /-- Raised by Machine/Dispatch.lean for a command that has no meaning yet, with the command's mnemonic. Safe. -/
  | notModelled (mnemonic : String)
  deriving DecidableEq, Repr

/-- The dictionary with every object at its default (R49). -/
def Dict.reset : Dict := { act := [], shd := [], sgl := [], dact := [], dshd := [], dsgl := [] }

/-- The mood machine in Cold, as R144 leaves it. -/
def MoodSt.reset : MoodSt :=
  { cur := .cold, target := .cold, ret := .off, entryTick := 0, phase := 0, trans := none, configured := false,
    heldReq := none, exitCnt := 0, lingerCnt := 0, heldItems := [], rstAsserted := false,
    wakeAsserted := false, wakeHeld := false, started := none, wiped := false, tapWake := false, before := .cold, halved := false,
    drainTick := 0 }

/-- A supply monitor that has sampled nothing; monitor 7 watches VDD_IO and is always active (R666). -/
def Mon.reset (n : Fin 8) : Mon :=
  { active := decide (n.val = 7), state := if n.val = 7 then 1 else 0, mv := 0, sumMv := 0, samples := 0,
    minMv := 0xFFFF }

/-- Thermal state at its object defaults: JUNCTION 0.0, NODE_ESTIMATE 35.0 (Table 5-7). -/
def Thermal.reset : Thermal :=
  { sensors := Vector.replicate 12 0, tripActive := false, cool := 0, tn := 0x420C0000, junction := 0, peak := 0 }

/-- Clocks with nothing running. -/
def Clocks.reset : Clocks :=
  { points := Vector.replicate 8 0, dip := Vector.replicate 8 0, dipSurge := false, stopped := Vector.replicate 8 false, idle := Vector.replicate 8 0,
    ran := Vector.replicate 8 false, surge := false }

/-- The always-on island right after its release (R144): before tick 0, TICK_LOCK 1, every rail off. -/
def Aon.reset (node : BitVec 3) (sled : Bool) : Aon :=
  { tick := 0, lock := 1, node := node, sled := sled, mood := MoodSt.reset, mons := Vector.ofFn Mon.reset,
    thermal := Thermal.reset, clocks := Clocks.reset, railEn := 0, railGood := 0, railTick := Vector.replicate 4 0, relocking := false,
    log := { recs := [], seq := 0, msixSent := false }, low := Vector.replicate 17 false,
    above := Vector.replicate 16 false, stale := true, auditExpected := 0, auditFound := 0, swapStatus := 0,
    swapTick := 0, swapAsked := 0, held := [] }

/-- A ledger of zeros. -/
def Ledger.reset : Ledger :=
  { deposits := 0, pool := 0, poolSpent := 0, totalReserved := 0, totalSpent := 0,
    subs := Vector.replicate 16 { balance := 0, reserved := 0, spent := 0 }, residue := 0 }

/-- The mailbox after reset (Table 3-3). -/
def Mbox.reset : Mbox :=
  { req := List.replicate 256 0, vector := none, busy := false, rspReady := false, ntfReady := false, rsp := List.replicate 256 0, ntf := List.replicate 256 0,
    waiting := [], restore := false }

/-- The I3C target after reset: no dynamic address, in-band interrupts enabled (notes/assumptions/38.md). -/
def I3c.reset : I3c :=
  { cut := none, rsp := [], ibi := true, dyn := 0, rstact := none, mwl := 256, mrl := 256 }

/-- The host interface and the transports, empty. The MSI-X table stands as a host leaves it that has unmasked every vector
(notes/assumptions/58.md). -/
def Link.reset : Link :=
  { readTick := none, rx := [], dups := [], segs := Vector.replicate 3 none, notifyQ := [], notifySeq := 0,
    notifyLost := false, t1sTx := [], mbox := Mbox.reset, i3c := I3c.reset, doorbells := Vector.replicate 96 0,
    msixTable := Vector.replicate 64 0, msixPba := 0, bar2 := [], out := [] }

/-- Every credit at its holder and nothing queued (R611). -/
def Traffic.reset : Traffic :=
  { free := [], queue := [], back := [], cycle := 0, turn := [], aged := [], slots := [] }

/-- The central store with nothing listed. -/
def Store.reset : Store :=
  { mem := [], poison := [], single := [], latent := [], conj := [], sigAccepted := 0, sigApplied := 0,
    spilled := Vector.replicate 8 (false, false), scrubNear := 0, scrubHeld := none, scrubDeep := 0,
    selfRefresh := Vector.replicate 16 false, chanUse := Vector.replicate 16 0, overdue := [], traffic := Traffic.reset }

/-- A disabled partition. -/
def Part.reset : Part :=
  { state := 0, ticket := 0, sb := [], produced := 0, consumed := 0, energyQ := [], energyWait := false, sigs := [], hist := [], quiet := 0, rang := false, halting := false, faulted := false, stopped := false,
    resetTick := 0, deadlineSeen := false }

/-- Ring counts of zero and no hold point (R323). -/
def RingPos.reset : RingPos := { tail := 0, retire := 0, fetch := 0, pc := 0, hold := none }

/-- No clause open. -/
def ClauseSt.reset : ClauseSt :=
  { active := false, parcels := [], words := 0, step := 1, sub := 0, redirect := none, mark := none, pushed := [] }

/-- A thread with every register zero (R298, R310); p0 reads as 1 through its accessor. -/
def Thread.reset : Thread :=
  { run := 0, s := Vector.replicate 64 0, p := Vector.replicate 8 false, m := Vector.replicate 16 0,
    pend := Vector.replicate 16 0, l := Vector.replicate 4 0, priv := [], fetchq := [], cl := ClauseSt.reset,
    wait := .none, holding := false, faultWord := 0, faultAddr := 0, pushRejected := 0, clausesRetired := 0,
    verbsPushed := 0, flush := 0 }

/-- A core with walker sets and configurations zero and its rounding generator at seed `seed` (Table 7-3, R421). -/
def CoreSt.reset (seed : W32) : CoreSt :=
  { walkers := Vector.replicate 8 (Vector.replicate 16 0), queue := [], active := none, retiring := [], pre := none,
    wbuf := [], lfsr := seed, cfgA := 0, cfgS := 0, retired := 0, preemptReq := false, flush := 0,
    flushFor := [], meshCursor := 0, rdata := [], heldReads := [] }

/-- A tap channel that is down: the matrix side holds every token (R482). -/
def TapCh.reset : TapCh :=
  { linkM := false, linkV := false, training := false, offer := none, bus := none, bufs := [], heldBanks := 0,
    clock := 0 }

/-- A link with no session: every credit full, every SEQ 0 (R553, Table 16-4). -/
def Session.reset : Session :=
  { kept := false, txSeq := 0, rxSeq := 0, retry := [], rxBuf := [], credits := #v[64, 64, 64, 64, 8],
    ret := Vector.replicate 5 0, naks := 0 }

/-- A driver at its rest code (Table 15-5). -/
def RingDrive.rest : RingDrive := { swing := 0, levels := [32, 32, 32, 32], blank := 0 }

/-- A port that is off. -/
def Port.reset : Port :=
  { state := 0, rings := Vector.replicate 34 0, codes := Vector.replicate 34 0, points := Vector.replicate 34 0,
    drive := Vector.replicate 17 RingDrive.rest, stored := Vector.replicate 34 none,
    slotsTx := Vector.replicate 16 0, slotsRx := Vector.replicate 16 0, searched := (false, false),
    calibrated := (false, false), moving := none, idTick := Vector.replicate 34 0, since := 0, retraining := false,
    far := 0xFFFF, fault := 0, sess := Session.reset, calFar := false, calTx := false }

/-- Light, rotation and fade at their defaults: SPARE_LINE 16 (Table 15-10). -/
def Photonics.reset : Photonics :=
  { lit := false, spareLine := 16, announce := none, moveTick := 0, mislock := none, req := none, queue := [], txn := 0, linkState := 0,
    lineSource := 0, sources := (false, false), fade := 0, samples := [], warmTick := 0, stepTick := 0,
    switching := none, prediction := 0 }

/-- The fabric with nothing outstanding. -/
def Fabric.reset : Fabric :=
  { outstanding := [], inject := [], service := [], commits := Vector.replicate 16 none, regs := [], nextTag := 0,
    received := 0, injected := 0, sent := 0, ejected := 0, discarded := 0, late := [] }

/-- The mesh, off. -/
def Mesh.reset : Mesh :=
  { state := 0, loaded := 0, settle := 0, temp := 0, stepTick := Vector.replicate 64 none,
    stepTemp := Vector.replicate 64 0, gainDue := false, gainFell := 0, gainLate := false, gainMon := 0, due := [],
    dueTick := 0, roundTick := 0, turn := 0, fails := Vector.replicate 64 0, lastCore := 63, res := 8, before := 0, waiting := [],
    granted := none, fresh := false, blank := 0, grants := 256 }

/-- The device after the always-on island is released with the straps given (R144). -/
def State.powerOn (node : BitVec 3) (sled : Bool) : State :=
  { aon := Aon.reset node sled, dict := Dict.reset, ledger := Ledger.reset, link := Link.reset, store := Store.reset,
    parts := Vector.replicate 16 Part.reset, rings := Vector.replicate 80 RingPos.reset,
    threads := Vector.replicate 80 Thread.reset,
    cores := Vector.ofFn (fun c => CoreSt.reset (BitVec.ofNat 32 (c.val + 1))), tap := Vector.replicate 4 TapCh.reset,
    ports := Vector.replicate 8 Port.reset, pho := Photonics.reset, fab := Fabric.reset, mesh := Mesh.reset,
    freeCtr := 0, pending := [] }

/-- The device right after always-on power-on (R144): Cold, defaults loaded, straps sampled, before tick 0. The straps
are those of their pull-downs: laptop package, T1S_NODE 0 (notes/assumptions/5.md). -/
def State.reset : State := State.powerOn 0 false

end Sys2Proof.Machine
end

