-- ==== Sys2Proof/Machine/Ops.lean ====
section
/-!
DEFINITION. The named operations every meaning is written in: changing one unit of the state, reading and counting
dictionary objects, the event log with its MSI-X message (R632 to R635), notifications (R88, R89), what the mood powers
(Tables 4-1 and 4-2), and the windows that tell set objects from single ones.
-/
namespace Sys2Proof.Machine

/-! One unit of the state. -/

/-- Change the always-on island. -/
def State.onAon (s : State) (f : Aon → Aon) : State := { s with aon := f s.aon }
/-- Change the mood machine. -/
def State.onMood (s : State) (f : MoodSt → MoodSt) : State := s.onAon (fun a => { a with mood := f a.mood })
/-- Change the dictionary. -/
def State.onDict (s : State) (f : Dict → Dict) : State := { s with dict := f s.dict }
/-- Change the ledger. -/
def State.onLedger (s : State) (f : Ledger → Ledger) : State := { s with ledger := f s.ledger }
/-- Change the transports and the host interface. -/
def State.onLink (s : State) (f : Link → Link) : State := { s with link := f s.link }
/-- Change the central store. -/
def State.onStore (s : State) (f : Store → Store) : State := { s with store := f s.store }
/-- Change partition `p`. -/
def State.onPart (s : State) (p : PartId) (f : Part → Part) : State := { s with parts := vmod s.parts p f }
/-- Change the ring counts of thread or feed ring `r`. -/
def State.onRing (s : State) (r : Fin 80) (f : RingPos → RingPos) : State := { s with rings := vmod s.rings r f }
/-- Change thread `t`. -/
def State.onThread (s : State) (t : ThreadId) (f : Thread → Thread) : State := { s with threads := vmod s.threads t f }
/-- Change core `c`. -/
def State.onCore (s : State) (c : CoreId) (f : CoreSt → CoreSt) : State := { s with cores := vmod s.cores c f }
/-- Change tap channel `h`. -/
def State.onTap (s : State) (h : ChanId) (f : TapCh → TapCh) : State := { s with tap := vmod s.tap h f }
/-- Change port `q`. -/
def State.onPort (s : State) (q : PortId) (f : Port → Port) : State := { s with ports := vmod s.ports q f }
/-- Change light, rotation and fade. -/
def State.onPho (s : State) (f : Photonics → Photonics) : State := { s with pho := f s.pho }
/-- Change the fabric. -/
def State.onFab (s : State) (f : Fabric → Fabric) : State := { s with fab := f s.fab }
/-- Change the mesh. -/
def State.onMesh (s : State) (f : Mesh → Mesh) : State := { s with mesh := f s.mesh }

/-- A unit number from a natural number, modulo the count of such units. -/
def pid (n : Nat) : PartId := Fin.ofNat 16 n
/-- See `pid`. -/
def cid (n : Nat) : CoreId := Fin.ofNat 64 n
/-- See `pid`. -/
def tid (n : Nat) : ThreadId := Fin.ofNat 80 n
/-- See `pid`. -/
def qid (n : Nat) : PortId := Fin.ofNat 8 n

/-- Do `f` at each element of a list, in order. -/
def State.forEach {α : Type} (s : State) (l : List α) (f : State → α → State) : State := l.foldl f s

/-- Take a free value: advance the counter behind the free values (notes/assumptions/3.md). -/
def State.tickFree (s : State) : State := { s with freeCtr := s.freeCtr + 1 }

/-! Objects. -/

/-- The value of a set object in the active set (R52). -/
def State.act (s : State) (k : Nat) : Nat := SMap.get objDflt s.dict.act k
/-- The value of a set object in the shadow set (R52). -/
def State.shd (s : State) (k : Nat) : Nat := SMap.get objDflt s.dict.shd k
/-- The value of an object whose set flag is No and that is held as plain data. -/
def State.sgl (s : State) (k : Nat) : Nat := SMap.get objDflt s.dict.sgl k
/-- The bytes of a set DOMAIN object in the active set. -/
def State.dact (s : State) (k : Nat) : List Byte := SMap.get domDflt s.dict.dact k
/-- The bytes of a set DOMAIN object in the shadow set. -/
def State.dshd (s : State) (k : Nat) : List Byte := SMap.get domDflt s.dict.dshd k
/-- The bytes of a DOMAIN object whose set flag is No. -/
def State.dsgl (s : State) (k : Nat) : List Byte := SMap.get domDflt s.dict.dsgl k

/-- Set a single object. -/
def State.setSgl (s : State) (k v : Nat) : State :=
  s.onDict (fun d => { d with sgl := SMap.set objDflt d.sgl k v })
/-- Set a set object in the active set: what only loading defaults, a swap and the switch of a source do. -/
def State.setAct (s : State) (k v : Nat) : State :=
  s.onDict (fun d => { d with act := SMap.set objDflt d.act k v })
/-- Set a set object in the shadow set. -/
def State.setShd (s : State) (k v : Nat) : State :=
  s.onDict (fun d => { d with shd := SMap.set objDflt d.shd k v })
/-- Set a single DOMAIN object. -/
def State.setDom (s : State) (k : Nat) (v : List Byte) : State :=
  s.onDict (fun d => { d with dsgl := SMap.set domDflt d.dsgl k v })
/-- Set a set DOMAIN object in the shadow set. -/
def State.setDomShd (s : State) (k : Nat) (v : List Byte) : State :=
  s.onDict (fun d => { d with dshd := SMap.set domDflt d.dshd k v })

/-- Add to a saturating 32-bit counter. -/
def State.addSat (s : State) (k n : Nat) : State := s.setSgl k (sat32 (s.sgl k + n))
/-- Increment a saturating 32-bit counter. -/
def State.bump (s : State) (k : Nat) : State := s.addSat k 1
/-- Increment a 32-bit counter that wraps. -/
def State.bump32 (s : State) (k : Nat) : State := s.setSgl k (wrap32 (s.sgl k + 1))
/-- Add to a 64-bit counter that wraps. -/
def State.add64 (s : State) (k n : Nat) : State := s.setSgl k (wrap64 (s.sgl k + n))

/-- A write of MBOX_VECTOR that came over the mailbox takes effect once its response has been handed over (R53). -/
def State.takeVector (s : State) : State :=
  match s.link.mbox.vector with
  | some v => (s.setSgl K.mboxVector v).onLink (fun l => { l with mbox := { l.mbox with vector := none } })
  | none => s

/-! Moods and islands. -/

/-- The code of a mood (Table 4-2). -/
def Mood.code : Mood → Nat
  | .off => 0 | .cold => 1 | .hush => 2 | .dormant => 3 | .listen => 4
  | .brisk => 5 | .full => 6 | .brace => 7 | .quiesce => 8 | .fault => 9

/-- The mood of a code of Table 4-2. -/
def Mood.ofCode : Nat → Mood
  | 1 => .cold | 2 => .hush | 3 => .dormant | 4 => .listen | 5 => .brisk
  | 6 => .full | 7 => .brace | 8 => .quiesce | 9 => .fault | _ => .off

/-- The number of the current tick; 0 until the tick oscillator first locks (R30, R143). -/
def State.tick (s : State) : Nat := s.aon.tick
/-- The current mood. -/
def State.mood (s : State) : Mood := s.aon.mood.cur
/-- The mood whose islands are powered: in Brace, Quiesce and Fault that of the mood left, and in the last step of Quiesce
that of its target (Table 4-2). -/
def MoodSt.eff (m : MoodSt) : Mood :=
  match m.cur with
  | .quiesce => if m.phase = 21 then m.target else m.before
  | .brace | .fault => m.before
  | c => c
/-- Its code, which orders Dormant < Listen < Brisk < Full. -/
def State.lvl (s : State) : Nat := s.aon.mood.eff.code
/-- Is the device in Fault? -/
def State.inFault (s : State) : Bool := decide (s.mood = .fault)
/-- Is Quiesce in its last step, in which the islands power down (R104, Table 4-6)? -/
def State.lastQuiesce (s : State) : Bool := decide (s.mood = .quiesce) && decide (s.aon.mood.phase = 21)
/-- Is a transition other than Quiesce in progress? -/
def State.inTransition (s : State) : Bool := s.aon.mood.trans.isSome
/-- Are the host mailbox, BAR0 and BAR2 reachable (R104)? -/
def State.hostUp (s : State) : Bool := decide (4 ≤ s.lvl) && !s.lastQuiesce
/-- Is core `c` powered (Table 4-1: core 0 in the listen island, the others in their clusters)? -/
def State.coreUp (s : State) (c : Nat) : Bool :=
  if c = 0 then decide (4 ≤ s.lvl) else if c < 16 then decide (5 ≤ s.lvl) else decide (6 ≤ s.lvl)
/-- Is control core `k` powered (Table 4-1)? -/
def State.ctlUp (s : State) (k : Nat) : Bool :=
  if k = 0 then decide (4 ≤ s.lvl) else if k < 4 then decide (5 ≤ s.lvl) else decide (6 ≤ s.lvl)
/-- Do cores and control cores run? In Fault every clock but the store clock is stopped, and nothing retires, settles
or is fetched (R137). -/
def State.runs (s : State) : Bool := !s.inFault && decide (4 ≤ s.lvl)
/-- Is the store island powered, so that all of the near tier is live (Table 4-2)? -/
def State.storeUp (s : State) : Bool := decide (5 ≤ s.lvl)
/-- Is the sled build selected (BUILD, Table 20-12)? -/
def State.sled (s : State) : Bool := s.aon.sled

/-! Outputs, MSI-X and the event log. -/

/-- Append to the record of what the device sends. -/
def State.output (s : State) (o : Output) : State := s.onLink (fun l => { l with out := l.out ++ [o] })

/-- Send an MSI-X message on a vector: a masked vector sets its pending bit instead (Table 9-1, PCI Express). -/
def State.msix (s : State) (v : Nat) : State :=
  let i : Fin 64 := Fin.ofNat 64 v
  if s.link.msixTable[i].getLsbD 96 then
    s.onLink (fun l => { l with msixPba := l.msixPba ||| BitVec.ofNat 64 (2 ^ i.val) })
  else s.output (.msix i.val)

/-- Queue one notification for source bit `src` of Table 3-8 (R88, R89). -/
def State.notify (s : State) (src k value : Nat) : State :=
  if s.sgl K.notifyTransport = 0 ∨ bit (s.sgl K.notifyEnable) src = false then s
  else if 16 ≤ s.link.notifyQ.length then
    (s.onLink (fun l => { l with notifyLost := true })).bump K.notifyDropped
  else
    s.onLink (fun l =>
      { l with
        notifySeq := l.notifySeq + 1, notifyLost := false,
        notifyQ := l.notifyQ ++ [{ seq := l.notifySeq + 1, dropped := l.notifyLost, tick := s.tick,
                                   idx := BitVec.ofNat 16 (k / 256), sub := BitVec.ofNat 8 k, value := value, offered := false }] })

/-- Put a record into the log; a full log loses its oldest (R632). -/
def Log.push (l : Log) (r : LogRec) : Log :=
  { l with recs := (if 256 ≤ l.recs.length then l.recs.drop 1 else l.recs) ++ [r], seq := r.seq }

/-- Write an event-log record (R632 to R635): the record, its counts, the MSI-X message, of which a tick sends at most
one, and the notification of Table 3-8, bit 0. -/
def State.logRec (s : State) (src sev part a b : Nat) : State :=
  let seq := wrap32 (s.aon.log.seq + 1)
  let full := decide (256 ≤ s.aon.log.recs.length)
  let r : LogRec := { tick := s.tick, seq := seq, source := src, severity := sev, part := part, a := a, b := b }
  let s1 := s.onAon (fun n => { n with log := n.log.push r })
  let s2 := if full then s1.bump K.eventLogLost else s1
  let s3 := s2.add64 K.telRecords 1
  let ev := s3.sgl K.eventVector
  let s4 :=
    if s3.sgl K.eventMinSeverity ≤ sev ∧ ev ≠ 0xFF ∧ s3.hostUp = true ∧ s3.aon.log.msixSent = false then
      (s3.onAon (fun n => { n with log := { n.log with msixSent := true } })).msix ev
    else s3
  s4.notify 0 K.eventLogHead seq

/-- No partition, in a record's PARTITION field (Table 19-4). -/
abbrev noPart : Nat := 0xFF

/-! Partitions, threads and cores. -/

/-- Is partition `p` enabled in the active set (Table 7-8)? -/
def State.enabled (s : State) (p : Nat) : Bool := decide (s.act (K.partEnable p) = 1)
/-- CORE_MASK of `p` in the active set. -/
def State.coreMask (s : State) (p : Nat) : Nat := s.act (K.coreMask p)
/-- Is `p` in autonomous mode (R307)? -/
def State.auto (s : State) (p : Nat) : Bool := decide (s.act (K.programMode p) = 1)
/-- The partition to which core `c` is assigned, if any. -/
def State.corePart (s : State) (c : Nat) : Option PartId :=
  (List.finRange 16).find? (fun p => s.enabled p.val && bit (s.coreMask p.val) c)
/-- The partition to which control core `k` is assigned, if any. -/
def State.ctlPart (s : State) (k : Nat) : Option PartId :=
  (List.finRange 16).find? (fun p => s.enabled p.val && decide (s.act (K.controlCore p.val) = k))
/-- The partition of a thread. -/
def State.threadPart (s : State) (t : ThreadId) : Option PartId :=
  if t.val < 64 then s.corePart t.val else s.ctlPart (t.val - 64)
/-- Is a thread's island powered? -/
def State.threadUp (s : State) (t : ThreadId) : Bool :=
  if t.val < 64 then s.coreUp t.val else s.ctlUp (t.val - 64)
/-- The cores of partition `p`, rising. -/
def State.coresOf (s : State) (p : Nat) : List CoreId :=
  (List.finRange 64).filter (fun c => bit (s.coreMask p) c.val)
/-- The control core's thread of partition `p`, if one is assigned. -/
def State.ctlThread (s : State) (p : Nat) : List ThreadId :=
  if s.act (K.controlCore p) < 16 then [tid (64 + s.act (K.controlCore p))] else []
/-- The threads of partition `p` (chapter 7): in directed mode its control core, in autonomous mode each of its cores,
and its control core when one is assigned. -/
def State.threadsOf (s : State) (p : Nat) : List ThreadId :=
  (if s.auto p then (s.coresOf p).map (fun c => tid c.val) else []) ++ s.ctlThread p

end Sys2Proof.Machine
end

