-- ==== Sys2Proof/Machine/Credits.lean ====
section
/-!
DEFINITION. Banks, channels and request credits of the central store (chapter 6): the interleave (R194, R195), the slots of
Table 6-3 with the credits that requests hold (R198, R199), the order in which a bank or deep channel grants them (R200,
R217, R227, R617), and the audit of R201. The requests of a command are issued, granted and completed within the command
(notes/assumptions/53.md).
-/
namespace Sys2Proof.Machine

/-! Interleave. -/

/-- The bank of a near-tier offset (R194). -/
def bankOf (off : Nat) : Nat := bits off 12 7 ^^^ bits off 18 13
/-- The sub-array of a near-tier offset in its bank (R194). -/
def subArrayOf (off : Nat) : Nat := bits off 26 22
/-- The deep channel of an offset (R195). -/
def chanOf (off : Nat) : Nat := bits off 11 8 ^^^ bits off 19 16
/-- The bank group of a near bank (R194). -/
def bankGroup (b : Nat) : Nat := bits b 5 3
/-- The bank group of a deep channel (R195). -/
def chanGroup (c : Nat) : Nat := bits c 3 1

/-- The unit that serves a line: 0 to 63 the near banks, 64 to 79 the deep channels. -/
def unitOf (deep : Bool) (off : Nat) : Nat := if deep then 64 + chanOf off else bankOf off
/-- The bank group of a unit. -/
def groupOf (u : Nat) : Nat := if u < 64 then bankGroup u else chanGroup (u - 64)

/-! Slots (Table 6-3). -/

/-- Slots of one holder of a class row: general, write-back, control, host, fabric ejection, fabric injection, background.
-/
def slotsPer (cls : Nat) : Nat := at! 0 [4, 1, 2, 16, 16, 8, 4] cls
/-- Holders of a class row: the cores, the control cores, or the one named. -/
def holdersOf (cls : Nat) : Nat := at! 0 [64, 64, 16, 1, 1, 1, 1] cls

/-- The key of a holder's credits of one class in one bank group. -/
def creditKey (group cls holder : Nat) : Nat := (group * 7 + cls) * 64 + holder
/-- The credits that a holder has when none is out. -/
def creditDflt (k : Nat) : Nat := slotsPer (k / 64 % 7)

/-- Free credits at a holder. -/
def Traffic.credits (t : Traffic) (group cls holder : Nat) : Nat := SMap.get creditDflt t.free (creditKey group cls holder)

/-- Set them. -/
def Traffic.setCredits (t : Traffic) (group cls holder n : Nat) : Traffic :=
  { t with free := SMap.set creditDflt t.free (creditKey group cls holder) n }

/-! Who asks. -/

/-- The source of a request and what it does: a core's reads and atomics, a core's commits, a control core, the host link or
the dictionary, arriving fabric writes, reads for outgoing flits, or the store itself. -/
inductive Asker where
  | chain (c : Nat)
  | commit (c : Nat)
  | control (k : Nat)
  | host
  | eject
  | inject
  | background
  deriving DecidableEq, Repr

/-- The source that a thread's accesses come from. -/
def askerOf (t : ThreadId) : Asker := if t.val < 64 then .chain t.val else .control (t.val - 64)

/-- The class row and holder of a request to a group: a commit takes a general credit when one is free, else the write-back
credit (R199). -/
def Traffic.classFor (t : Traffic) (a : Asker) (group : Nat) : Nat × Nat :=
  match a with
  | .chain c => (0, c)
  | .commit c => if t.credits group 0 c = 0 then (1, c) else (0, c)
  | .control k => (2, k)
  | .host => (3, 0)
  | .eject => (4, 0)
  | .inject => (5, 0)
  | .background => (6, 0)

/-! Grants. -/

/-- A number for the holder of a request in the round of R200. -/
def StoreReq.turn (r : StoreReq) : Nat :=
  match r.cls with
  | 0 | 1 => r.holder
  | 2 => 64 + r.holder
  | 3 => 80
  | 4 => 82
  | _ => 81

/-- How far a holder stands behind the one last served. -/
def turnDist (last h : Nat) : Nat := (h + 83 - last - 1) % 83

/-- The request whose holder comes next in turn; of one holder the oldest (R207). -/
def nextTurn (last : Nat) : List StoreReq → Option StoreReq
  | [] => none
  | r :: l =>
    match nextTurn last l with
    | none => some r
    | some q => if turnDist last q.turn < turnDist last r.turn then some q else some r

/-- A request that has waited 256 store-clock cycles (R617). -/
def StoreReq.isAged (r : StoreReq) (cycle : Nat) : Bool := decide (r.since + 256 ≤ cycle)

/-- N of Table 6-6: one slot in so many for overdue background requests. -/
def bgSlots : BgUnit → Nat
  | .nearBank _ => 64
  | .deepRefresh _ => 8
  | .deepScrub _ => 256

/-- The deferral deadline of Table 6-6, in tk. -/
def bgDeadline : BgUnit → Nat
  | .nearBank _ => 65536
  | .deepRefresh _ => 32
  | .deepScrub _ => 1048576

/-- The unit of a background user. -/
def bgUnitNo : BgUnit → Nat
  | .nearBank b => b.val
  | .deepRefresh c => 64 + c.val
  | .deepScrub c => 64 + c.val

/-- Has the turn of an overdue background request come at a unit (R227)? -/
def Traffic.bgTurn (t : Traffic) (overdue : List BgUnit) (u : Nat) : Bool :=
  overdue.any (fun b => decide (bgUnitNo b = u) && decide (bgSlots b ≤ SMap.get (fun _ => 0) t.slots u + 1))

/-- The request that a unit grants in this cycle: an overdue background request when its slot has come (R227), an aged one
at every second grant (R617), else write-back, fabric ejection, and the other classes in turn (R200); background requests
last. -/
def Traffic.pick (t : Traffic) (overdue : List BgUnit) (u : Nat) : Option StoreReq :=
  let here := t.queue.filter (fun r => decide (r.unit = u))
  let fore := here.filter (fun r => decide (r.cls ≠ 6))
  let back := here.find? (fun r => decide (r.cls = 6))
  let old := if t.aged.contains u then none else fore.find? (fun r => r.isAged t.cycle)
  let usual := ((fore.find? (fun r => decide (r.cls = 1))) <|> (fore.find? (fun r => decide (r.cls = 4)))) <|>
    nextTurn (SMap.get (fun _ => 0) t.turn u) fore
  if t.bgTurn overdue u && back.isSome then back else ((old <|> usual) <|> back)

/-- Grant one request: it completes, and its credit is on its way back. -/
def Traffic.grant (t : Traffic) (u : Nat) (r : StoreReq) : Traffic :=
  { t with
    queue := t.queue.erase r, back := t.back ++ [r],
    turn := if r.cls = 6 then t.turn else SMap.set (fun _ => 0) t.turn u r.turn,
    aged := (t.aged.filter (fun x => x ≠ u)) ++ (if r.isAged t.cycle && decide (r.cls ≠ 6) then [u] else []),
    slots := SMap.set (fun _ => 0) t.slots u (if r.cls = 6 then 0 else SMap.get (fun _ => 0) t.slots u + 1) }

/-- Take back the credits in return. -/
def Traffic.land (t : Traffic) : Traffic :=
  t.back.foldl (fun t r => t.setCredits (groupOf r.unit) r.cls r.holder (t.credits (groupOf r.unit) r.cls r.holder + 1))
    { t with back := [] }

/-- One store-clock cycle: every bank and deep channel with a request grants one, and credits arrive back. -/
def Traffic.tick (t : Traffic) (overdue : List BgUnit) : Traffic :=
  let units := t.queue.foldl (fun (l : List Nat) r => if l.contains r.unit then l else l ++ [r.unit]) []
  let t1 := units.foldl (fun t u =>
    match t.pick overdue u with
    | some r => t.grant u r
    | none => t) t
  { t1.land with cycle := t.cycle + 1 }

/-- Cycles until nothing is queued or in return, `n` at most. -/
def Traffic.settle (t : Traffic) (overdue : List BgUnit) : Nat → Traffic
  | 0 => t
  | n + 1 => if t.queue.isEmpty && t.back.isEmpty then t else (t.tick overdue).settle overdue n

/-- Issue a request: it takes a credit of its class (R198). -/
def Traffic.issue (t : Traffic) (u : Nat) (q : Nat × Nat) : Traffic :=
  { t.setCredits (groupOf u) q.1 q.2 (t.credits (groupOf u) q.1 q.2 - 1) with
    queue := t.queue ++ [{ cls := q.1, holder := q.2, unit := u, since := t.cycle }] }

/-- Issue a request when its holder has a credit, after as many cycles as that takes. -/
def Traffic.wait (t : Traffic) (overdue : List BgUnit) (a : Asker) (u : Nat) : Nat → Traffic
  | 0 => t.issue u (t.classFor a (groupOf u))
  | n + 1 =>
    let q := t.classFor a (groupOf u)
    if t.credits (groupOf u) q.1 q.2 = 0 then (t.tick overdue).wait overdue a u n else t.issue u q

/-- Issue and complete the requests of a command, one to each unit listed, in order. -/
def Traffic.serve (t : Traffic) (overdue : List BgUnit) (a : Asker) (l : List Nat) : Traffic :=
  let t1 := l.foldl (fun t u => t.wait overdue a u (t.queue.length + 1)) t
  t1.settle overdue (t1.queue.length + 2)

/-! The audit of R201. -/

/-- The allotment of a class row in one bank group. -/
def allotment (cls : Nat) : Nat := slotsPer cls * holdersOf cls

/-- Free credits at the holders, requests queued or in service, and credits in return, of one class in one bank group. -/
def Traffic.found (t : Traffic) (group cls : Nat) : Nat :=
  let out (l : List StoreReq) : Nat := (l.filter (fun r => decide (r.cls = cls) && decide (groupOf r.unit = group))).length
  ((List.range (holdersOf cls)).map (t.credits group cls)).foldl (· + ·) 0 + out t.queue + out t.back

/-- The groups and classes whose credits do not add up. -/
def Traffic.broken (t : Traffic) : List (Nat × Nat) :=
  if t.free.isEmpty && t.queue.isEmpty && t.back.isEmpty then []
  else (List.range 8).flatMap (fun g => (List.range 7).filterMap (fun c =>
    if t.found g c = allotment c then none else some (g, c)))

end Sys2Proof.Machine
end

