-- ==== Sys2Proof/Machine/Numeric.lean ====
section
/-!
DEFINITION. Element formats, exact values and rounding (chapter 11), and binary32 arithmetic rounded to nearest, ties to
even, with the canonical NaN (R411, R418). A finite value is held exactly as (−1)^neg × m × 2^e.
-/
namespace Sys2Proof.Machine

/-- A value of the binary32 path: NaN, a signed infinity, or an exact finite value with the sign of its zero. -/
inductive Val where
  | nan
  | inf (neg : Bool)
  | fin (neg : Bool) (m : Nat) (e : Int)
  deriving DecidableEq, Repr

/-- A floating format (Table 11-2): exponent and mantissa bits, bias, whether it has infinities, and the mantissa of
its largest finite value in its largest finite exponent. -/
structure FFmt where
  ebits : Nat
  mbits : Nat
  bias : Nat
  hasInf : Bool
  maxE : Nat
  maxM : Nat
  nan : Nat
  deriving DecidableEq, Repr

/-- FP32. -/
def fp32 : FFmt := { ebits := 8, mbits := 23, bias := 127, hasInf := true, maxE := 254, maxM := 2 ^ 23 - 1, nan := 0x7FC00000 }
/-- BF16. -/
def bf16 : FFmt := { ebits := 8, mbits := 7, bias := 127, hasInf := true, maxE := 254, maxM := 127, nan := 0x7FC0 }
/-- FP16. -/
def fp16 : FFmt := { ebits := 5, mbits := 10, bias := 15, hasInf := true, maxE := 30, maxM := 1023, nan := 0x7E00 }
/-- FP8_E4M3: no infinity; exponent 15 with mantissa 7 is NaN. -/
def e4m3 : FFmt := { ebits := 4, mbits := 3, bias := 7, hasInf := false, maxE := 15, maxM := 6, nan := 0x7F }
/-- FP8_E5M2. -/
def e5m2 : FFmt := { ebits := 5, mbits := 2, bias := 15, hasInf := true, maxE := 30, maxM := 3, nan := 0x7E }
/-- E2M1, the MXFP4 element. -/
def e2m1 : FFmt := { ebits := 2, mbits := 1, bias := 1, hasInf := false, maxE := 3, maxM := 1, nan := 0 }

/-- The value of an encoding (R409, Table 11-2). -/
def FFmt.decode (f : FFmt) (v : Nat) : Val :=
  let neg := bit v (f.ebits + f.mbits)
  let e := bits v (f.ebits + f.mbits - 1) f.mbits
  let m := v % 2 ^ f.mbits
  if f.hasInf ∧ e = 2 ^ f.ebits - 1 then if m = 0 then .inf neg else .nan
  else if f = e4m3 ∧ e = 15 ∧ m = 7 then .nan
  else if e = 0 then .fin neg m (1 - (f.bias : Int) - f.mbits)
  else .fin neg (2 ^ f.mbits + m) ((e : Int) - f.bias - f.mbits)

/-- Does a rounding mode of Table 11-4 take the magnitude n + rem / 2^k away from zero? `u` is the U of R419. -/
def roundsUp (mode u : Nat) (neg : Bool) (n rem k : Nat) : Bool :=
  match mode with
  | 0 => decide (2 ^ k < 2 * rem) || (decide (2 * rem = 2 ^ k) && decide (0 < rem) && decide (n % 2 = 1))
  | 1 => decide (2 ^ k ≤ 2 * rem) && decide (0 < rem)
  | 2 => false
  | 3 => !neg && decide (0 < rem)
  | 4 => neg && decide (0 < rem)
  | _ => decide (65536 ≤ rem * 65536 / 2 ^ k + u)

/-- Round the magnitude m × 2^e to a whole number of 2^q (R420, Table 11-4). -/
def roundTo (mode u : Nat) (neg : Bool) (m : Nat) (e q : Int) : Nat :=
  if q ≤ e then m * 2 ^ (e - q).toNat
  else
    let k := (q - e).toNat
    let n := m / 2 ^ k
    if roundsUp mode u neg n (m % 2 ^ k) k then n + 1 else n

/-- What a conversion did (R427). -/
structure ConvFlags where
  saturated : Bool
  nan : Bool
  inf : Bool
  deriving DecidableEq, Repr

/-- Nothing to count. -/
def ConvFlags.none : ConvFlags := { saturated := false, nan := false, inf := false }

/-- The sign bit of a format. -/
def FFmt.signBit (f : FFmt) (neg : Bool) : Nat := if neg then 2 ^ (f.ebits + f.mbits) else 0
/-- The encoding of the largest finite value. -/
def FFmt.largest (f : FFmt) (neg : Bool) : Nat := f.signBit neg + f.maxE * 2 ^ f.mbits + f.maxM
/-- The encoding of an infinity. -/
def FFmt.infinity (f : FFmt) (neg : Bool) : Nat := f.signBit neg + (2 ^ f.ebits - 1) * 2 ^ f.mbits

/-- Encode a value in a floating format (R423 to R427, Table 11-6). -/
def FFmt.encode (f : FFmt) (mode u : Nat) (sat : Bool) (v : Val) : Nat × ConvFlags :=
  match v with
  | .nan => (f.nan, { saturated := false, nan := true, inf := false })
  | .inf neg =>
    if f.hasInf then (f.infinity neg, { saturated := false, nan := false, inf := true })
    else if sat then (f.largest neg, { saturated := true, nan := false, inf := false })
    else (f.nan, { saturated := true, nan := true, inf := false })
  | .fin neg 0 _ => (f.signBit neg, ConvFlags.none)
  | .fin neg m e =>
    let lead : Int := (m.log2 : Int) + e
    let q : Int := max (lead - f.mbits) (1 - (f.bias : Int) - f.mbits)
    let n := roundTo mode u neg m e q
    let code :=
      if n < 2 ^ f.mbits then n else (q + f.mbits + f.bias).toNat * 2 ^ f.mbits + (n - 2 ^ f.mbits)
    if f.maxE * 2 ^ f.mbits + f.maxM < code then
      if sat then (f.largest neg, { saturated := true, nan := false, inf := false })
      else if f.hasInf then
        if mode = 2 ∨ (mode = 3 ∧ neg = true) ∨ (mode = 4 ∧ neg = false) then
          (f.largest neg, { saturated := true, nan := false, inf := false })
        else (f.infinity neg, { saturated := false, nan := false, inf := true })
      else (f.nan, { saturated := true, nan := true, inf := false })
    else (f.signBit neg + code, ConvFlags.none)

/-- Clamp an integer. -/
def clampInt (lo hi x : Int) : Int := max lo (min hi x)

/-- Round a value to an integer by a mode; NaN gives none. Infinities give a number beyond every integer format. -/
def Val.toInt (mode u : Nat) : Val → Option Int
  | .nan => none
  | .inf neg => some (if neg then -(2 ^ 200) else 2 ^ 200)
  | .fin neg m e =>
    let n : Int := roundTo mode u neg m e 0
    some (if neg then -n else n)

/-! binary32. -/

/-- The value of a binary32 pattern. -/
def fval (x : W32) : Val := fp32.decode x.toNat
/-- Round a value to binary32, nearest, ties to even. -/
def f32 (v : Val) : W32 := BitVec.ofNat 32 (fp32.encode 0 0 false v).1
/-- The canonical NaN (R411). -/
def qnan : W32 := 0x7FC00000
/-- The exact integer as a value. -/
def Val.ofInt (i : Int) : Val := .fin (decide (i < 0)) i.natAbs 0

/-- Negate a value; a NaN stays NaN. -/
def Val.neg : Val → Val
  | .nan => .nan
  | .inf s => .inf (!s)
  | .fin s m e => .fin (!s) m e

/-- The magnitude of a value. -/
def Val.abs : Val → Val
  | .nan => .nan
  | .inf _ => .inf false
  | .fin _ m e => .fin false m e

/-- Is it a NaN? -/
def Val.isNan : Val → Bool
  | .nan => true
  | _ => false

/-- The exact sum. A zero sum of operands of unlike sign is +0 (IEEE 754, to nearest). -/
def Val.add : Val → Val → Val
  | .nan, _ => .nan
  | _, .nan => .nan
  | .inf a, .inf b => if a = b then .inf a else .nan
  | .inf a, _ => .inf a
  | _, .inf b => .inf b
  | .fin a m e, .fin b n g =>
    let q := min e g
    let x : Int := (m * 2 ^ (e - q).toNat : Nat)
    let y : Int := (n * 2 ^ (g - q).toNat : Nat)
    let t := (if a then -x else x) + (if b then -y else y)
    if t = 0 then .fin (a && b) 0 0 else .fin (decide (t < 0)) t.natAbs q

/-- The exact product. -/
def Val.mul : Val → Val → Val
  | .nan, _ => .nan
  | _, .nan => .nan
  | .inf a, .inf b => .inf (a != b)
  | .inf a, .fin b n _ => if n = 0 then .nan else .inf (a != b)
  | .fin a m _, .inf b => if m = 0 then .nan else .inf (a != b)
  | .fin a m e, .fin b n g => .fin (a != b) (m * n) (e + g)

/-- The quotient to 64 bits and a sticky bit, enough for one correct rounding to binary32. -/
def Val.div : Val → Val → Val
  | .nan, _ => .nan
  | _, .nan => .nan
  | .inf _, .inf _ => .nan
  | .inf a, .fin b _ _ => .inf (a != b)
  | .fin a _ _, .inf b => .fin (a != b) 0 0
  | .fin a m e, .fin b n g =>
    if n = 0 then if m = 0 then .nan else .inf (a != b)
    else
      let num := m * 2 ^ (64 + n.log2)
      let q := num / n
      .fin (a != b) (2 * q + (if num % n = 0 then 0 else 1)) (e - g - 64 - n.log2 - 1)

/-- The integer square root, by bits from the top. -/
def isqrtFrom : Nat → Nat → Nat → Nat
  | 0, _, r => r
  | b + 1, n, r => isqrtFrom b n (if (r + 2 ^ b) * (r + 2 ^ b) ≤ n then r + 2 ^ b else r)

/-- ⌊√n⌋. -/
def isqrt (n : Nat) : Nat := isqrtFrom (n.log2 / 2 + 1) n 0

/-- The square root with a sticky bit, enough for one correct rounding to binary32. -/
def Val.sqrt : Val → Val
  | .nan => .nan
  | .inf false => .inf false
  | .inf true => .nan
  | .fin neg m e =>
    if m = 0 then .fin neg 0 0
    else if neg then .nan
    else
      let n := if e % 2 = 0 then m * 2 ^ 80 else m * 2 ^ 81
      let g := if e % 2 = 0 then (e - 80) / 2 else (e - 81) / 2
      let r := isqrt n
      .fin false (2 * r + (if r * r = n then 0 else 1)) (g - 1)

/-- Compare two values: `none` when either is NaN, else the sign of a − b; zeros of either sign are equal. -/
def Val.cmp : Val → Val → Option Int
  | .nan, _ => none
  | _, .nan => none
  | .inf a, .inf b => some (b2n b - (b2n a : Int))
  | .inf a, _ => some (if a then -1 else 1)
  | _, .inf b => some (if b then 1 else -1)
  | .fin a m e, .fin b n g =>
    let q := min e g
    let x : Int := (m * 2 ^ (e - q).toNat : Nat)
    let y : Int := (n * 2 ^ (g - q).toNat : Nat)
    some (Int.sign ((if a then -x else x) - (if b then -y else y)))

/-- Is the sign of a non-NaN value minus? -/
def Val.isNeg : Val → Bool
  | .nan => false
  | .inf a => a
  | .fin a _ _ => a

/-- binary32 sum. -/
def fadd (a b : W32) : W32 := f32 ((fval a).add (fval b))
/-- binary32 difference. -/
def fsub (a b : W32) : W32 := f32 ((fval a).add (fval b).neg)
/-- binary32 product. -/
def fmul (a b : W32) : W32 := f32 ((fval a).mul (fval b))
/-- binary32 quotient, correctly rounded. -/
def fdiv (a b : W32) : W32 := f32 ((fval a).div (fval b))
/-- binary32 square root, correctly rounded. -/
def fsqrt (a : W32) : W32 := f32 (fval a).sqrt
/-- binary32 a × b + c with one rounding. -/
def ffma (a b c : W32) : W32 := f32 (((fval a).mul (fval b)).add (fval c))
/-- Magnitude of a binary32; a NaN gives the canonical NaN. -/
def fabs (a : W32) : W32 := f32 (fval a).abs
/-- binary32 with its sign changed; a NaN gives the canonical NaN. -/
def fneg (a : W32) : W32 := f32 (fval a).neg

/-- The smaller of two binary32 values, NaN when either is NaN, −0 below +0. -/
def fmin (a b : W32) : W32 :=
  match (fval a).cmp (fval b) with
  | none => qnan
  | some d => if d < 0 then a else if 0 < d then b else if (fval a).isNeg then a else b

/-- The larger of two binary32 values, NaN when either is NaN, −0 below +0. -/
def fmax (a b : W32) : W32 :=
  match (fval a).cmp (fval b) with
  | none => qnan
  | some d => if d < 0 then b else if 0 < d then a else if (fval a).isNeg then b else a

/-- a < b, false when either is NaN. -/
def flt (a b : W32) : Bool := match (fval a).cmp (fval b) with | some d => decide (d < 0) | none => false
/-- a ≤ b, false when either is NaN. -/
def fle (a b : W32) : Bool := match (fval a).cmp (fval b) with | some d => decide (d ≤ 0) | none => false
/-- a = b as values, false when either is NaN. -/
def feq (a b : W32) : Bool := match (fval a).cmp (fval b) with | some d => decide (d = 0) | none => false
/-- Is a binary32 pattern a NaN? -/
def fisNan (a : W32) : Bool := (fval a).isNan
/-- Is a binary32 pattern an infinity? -/
def fisInf (a : W32) : Bool := match fval a with | .inf _ => true | _ => false
/-- binary32 of an integer, nearest, ties to even. -/
def fofInt (i : Int) : W32 := f32 (Val.ofInt i)
/-- binary32 of i × 2^e, nearest, ties to even. -/
def fofDyadic (i e : Int) : W32 := f32 (.fin (decide (i < 0)) i.natAbs e)

/-! The rounding generator (R419). -/

/-- One step of a core's rounding generator. -/
def lfsrStep (g : W32) : W32 := if g.getLsbD 0 then (g >>> 1) ^^^ 0x80200003 else g >>> 1
/-- `n` steps. -/
def lfsrSteps : Nat → W32 → W32
  | 0, g => g
  | n + 1, g => lfsrSteps n (lfsrStep g)
/-- The generator after one rounding position: 16 steps (R419). -/
def lfsrPos (g : W32) : W32 := lfsrSteps 16 g

/-! Element formats (Table 11-1). -/

/-- How a format code reads. -/
inductive Fmt where
  | float (f : FFmt)
  | int (w : Nat) (signed : Bool)
  | block (f : FFmt)
  | blockInt
  deriving DecidableEq, Repr

/-- The format of a code of Table 11-1; none for a reserved code (R408). -/
def Fmt.ofCode : Nat → Option Fmt
  | 0x01 => some (.float fp32) | 0x02 => some (.float bf16) | 0x03 => some (.float fp16)
  | 0x04 => some (.float e4m3) | 0x05 => some (.float e5m2)
  | 0x10 => some (.int 32 true) | 0x11 => some (.int 16 true) | 0x12 => some (.int 8 true)
  | 0x13 => some (.int 8 false) | 0x14 => some (.int 4 true) | 0x15 => some (.int 4 false)
  | 0x20 => some (.block e4m3) | 0x21 => some (.block e5m2) | 0x22 => some (.block e2m1)
  | 0x23 => some .blockInt
  | _ => none

/-- Element width in bits. -/
def Fmt.width : Fmt → Nat
  | .float f => 1 + f.ebits + f.mbits
  | .int w _ => w
  | .block f => 1 + f.ebits + f.mbits
  | .blockInt => 8

/-- Is it a block format? -/
def Fmt.isBlock : Fmt → Bool
  | .block _ | .blockInt => true
  | _ => false

/-- Is it an integer format? -/
def Fmt.isInt : Fmt → Bool
  | .int _ _ => true
  | _ => false

/-- Alignment in bytes (Table 11-1). -/
def Fmt.align (f : Fmt) : Nat := if f.isBlock then 1 else max 1 (f.width / 8)

/-- Element width of a code, or 8. -/
def fmtWidth (code : Nat) : Nat := match Fmt.ofCode code with | some f => f.width | none => 8

/-- Bytes of a row run of n elements (R413). -/
def runBytes (f : Fmt) (n : Nat) : Nat := ceilDiv (n * f.width) 8 + (if f.isBlock then n / 32 else 0)

/-- The range of an integer format (R410). -/
def intRange (w : Nat) (signed : Bool) : Int × Int :=
  if signed then (-(2 ^ (w - 1) : Int), 2 ^ (w - 1) - 1) else (0, 2 ^ w - 1)

/-- The integer of an element's bits. -/
def intOf (w : Nat) (signed : Bool) (v : Nat) : Int := if signed then sext w v else (v % 2 ^ w : Nat)

/-- Convert-in to the binary32 path (Table 11-3); `scale` is the E8M0 code of a block element (R412). -/
def convIn (f : Fmt) (v scale : Nat) : W32 :=
  match f with
  | .float g => f32 (g.decode v)
  | .int w sg => fofInt (intOf w sg v)
  | .block g =>
    if scale = 0xFF then qnan
    else match g.decode v with
      | .fin neg m e => f32 (.fin neg m (e + scale - 127))
      | x => f32 x
  | .blockInt => if scale = 0xFF then qnan else fofDyadic (intOf 8 true v) ((scale : Int) - 127 - 6)

/-- Convert-in of an FP32 element leaves its bits alone (Table 11-3). -/
def convInRaw (f : Fmt) (v scale : Nat) : W32 := if f = .float fp32 then BitVec.ofNat 32 v else convIn f v scale

/-- Convert-out of a value to an integer format (Table 11-5): clamped, NaN gives 0. -/
def toIntFmt (w : Nat) (signed : Bool) (mode u : Nat) (v : Val) : Nat × ConvFlags :=
  match v.toInt mode u with
  | none => (0, { ConvFlags.none with saturated := true })
  | some i =>
    let r := intRange w signed
    let j := clampInt r.1 r.2 i
    ((BitVec.ofInt w j).toNat, { ConvFlags.none with saturated := decide (j ≠ i) })

/-- Convert-out from the binary32 path to a format that is not a block (Table 11-5). FP32 keeps the bits, but for a NaN,
which is written canonical (R411). -/
def convOut (f : Fmt) (mode u : Nat) (sat : Bool) (x : W32) : Nat × ConvFlags :=
  match f with
  | .float g =>
    if g = fp32 then
      if fisNan x then (qnan.toNat, { ConvFlags.none with nan := true })
      else (x.toNat, { ConvFlags.none with inf := fisInf x })
    else g.encode mode u sat (fval x)
  | .int w sg => toIntFmt w sg mode u (fval x)
  | .block g => g.encode mode u sat (fval x)
  | .blockInt => toIntFmt 8 true mode u (fval x)

/-- Convert-out from the int32 path (Table 11-5). -/
def convOutInt (f : Fmt) (mode u : Nat) (sat : Bool) (x : Int) : Nat × ConvFlags :=
  match f with
  | .int w sg =>
    if sat then
      let r := intRange w sg
      let j := clampInt r.1 r.2 x
      ((BitVec.ofInt w j).toNat, { ConvFlags.none with saturated := decide (j ≠ x) })
    else ((BitVec.ofInt w x).toNat, ConvFlags.none)
  | .float g => g.encode mode u sat (Val.ofInt x)
  | .block g => g.encode mode u sat (Val.ofInt x)
  | .blockInt => toIntFmt 8 true mode u (Val.ofInt x)

/-! Block quantisation (R428). -/

/-- The exponent of an element format's largest finite value. -/
def blockEmax : Fmt → Int
  | .block f => (f.maxE : Int) - f.bias
  | _ => 0

/-- ⌊log₂⌋ of the largest magnitude among finite values; none when all are zero. -/
def amaxLog (vs : List Val) : Option Int :=
  vs.foldl (fun a v =>
    match v with
    | .fin _ m e => if m = 0 then a else
        match a with
        | none => some ((m.log2 : Int) + e)
        | some x => some (max x ((m.log2 : Int) + e))
    | _ => a) none

/-- One element of a quantised block: x × 2^−X rounded to the element format and clamped. -/
def quantElem (f : Fmt) (X : Int) (mode u : Nat) (v : Val) : Nat × ConvFlags :=
  match f, v with
  | .block g, .fin neg m e => g.encode mode u true (.fin neg m (e - X))
  | .blockInt, .fin neg m e => toIntFmt 8 true mode u (.fin neg m (e + 6 - X))
  | _, _ => (0, ConvFlags.none)

/-- Quantise one block of 32 values: the scale code, and each element with what is counted of it (R427, R428). `us`
holds the U of each position. -/
def quantBlock (f : Fmt) (mode : Nat) (sat : Bool) (xs : List W32) (us : List Nat) : Nat × List (Nat × ConvFlags) :=
  let vs := xs.map fval
  let bad := (0xFF, xs.map (fun _ => ((0 : Nat), { ConvFlags.none with nan := true })))
  if vs.any Val.isNan then bad
  else if xs.any fisInf ∧ sat = false then bad
  else
    let big (x : W32) : Val := match fval x with
      | .inf neg => fp32.decode (fp32.largest neg)
      | v => v
    let ws := xs.map big
    let X : Int := match amaxLog ws with
      | none => -127
      | some l => clampInt (-127) 127 (l - blockEmax f)
    ((X + 127).toNat,
      (ws.zip (xs.zip us)).map (fun p =>
        let r := quantElem f X mode p.2.2 p.1
        (r.1, { r.2 with saturated := r.2.saturated || fisInf p.2.1 })))

end Sys2Proof.Machine
end

