-- ==== Sys2Proof/Machine/Store.lean ====
section
/-!
DEFINITION. The central store (chapter 6): the offset map, windows, ring write guards, reads, writes, poison, atomics.
A write is a list of (local offset, byte, mask) triples that is performed in one step (R202, R205).
-/
namespace Sys2Proof.Machine

/-! Addresses (R184, R185). -/

/-- The device number of a global address. -/
def gaDev (a : Nat) : Nat := bits a 63 52
/-- The reserved bits of a global address. -/
def gaRsv (a : Nat) : Nat := bits a 51 36
/-- The offset of a global address. -/
def gaOff (a : Nat) : Nat := a % 2 ^ 36

/-- The parts of Table 6-1. -/
inductive Tier where
  | near | counters | descs | deep | unmapped
  deriving DecidableEq, Repr

/-- Bytes of the near tier. -/
abbrev nearSize : Nat := 0x6000000
/-- First offset of the deep tier. -/
abbrev deepBase : Nat := 0x400000000
/-- First offset of the conjunction counters. -/
abbrev conjBase : Nat := 0xF0000000
/-- First offset of the descriptor tables. -/
abbrev descBase : Nat := 0xF0100000

/-- Where an offset lies (Table 6-1). -/
def tierOf (off : Nat) : Tier :=
  if off < nearSize then .near
  else if conjBase ≤ off ∧ off < 0xF0080000 then .counters
  else if descBase ≤ off ∧ off < 0xF0500000 then .descs
  else if deepBase ≤ off ∧ off < 0x800000000 then .deep
  else .unmapped

/-- Is an offset in the near or deep tier? -/
def isData (off : Nat) : Bool := decide (tierOf off = .near) || decide (tierOf off = .deep)

/-- Do `n` bytes from `off` lie in one tier? -/
def inOneTier (off n : Nat) : Bool := decide (0 < n) && isData off && decide (tierOf (off + n - 1) = tierOf off)

/-- The own device number (R186, R549). -/
def State.ownDev (s : State) : Nat := s.act K.deviceNumber
/-- The global address of a local offset. -/
def State.ga (s : State) (off : Nat) : Nat := s.ownDev * 2 ^ 52 + off
/-- Is a global address local? -/
def State.isLocal (s : State) (a : Nat) : Bool := decide (gaDev a = s.ownDev)
/-- Does a device lie in the system (R186, R551)? -/
def State.devOk (s : State) (d : Nat) : Bool :=
  if s.sled then
    decide (bits d 3 0 < s.act K.fabricSizeX) && decide (bits d 7 4 < s.act K.fabricSizeY) &&
      decide (bits d 11 8 < s.act K.fabricSizeZ)
  else decide (d = 0)

/-- Does an offset lie in arrays that the spill step of Quiesce copies (R228): in bytes of an enabled spill entry whose
arrays are about to power down (R121)? -/
def State.spilling (s : State) (off : Nat) : Bool :=
  decide (s.mood = .quiesce) && decide (s.aon.mood.phase = 20) &&
    (List.range 8).any (fun k =>
      decide (s.act (K.spillEnable k) = 1) && decide (s.act (K.spillNear k) / 0x400000 ≤ subArrayOf off) &&
        decide (subArrayOf off ≤ (s.act (K.spillNear k) + s.act (K.spillLength k) - 1) / 0x400000) &&
        (decide (2 ≤ subArrayOf off) || decide (s.aon.mood.target.code < 4)))

/-- Are the arrays of an offset live in the current mood (Table 4-2)? In Dormant neither tier is (R236), and arrays that
are being spilled take no foreground request (R228). The first two sub-arrays of every bank are in the listen range. -/
def State.live (s : State) (off : Nat) : Bool :=
  match tierOf off with
  | .near => (if subArrayOf off < 2 then decide (4 ≤ s.lvl) else decide (5 ≤ s.lvl)) && !s.spilling off
  | .unmapped => false
  | _ => decide (4 ≤ s.lvl)

/-! Windows (R189 to R191). -/

/-- Rights of a window entry. -/
inductive Right where
  | read | write | atomic
  deriving DecidableEq, Repr

/-- The bit of a right in WINDOW_RIGHTS. -/
def Right.bit : Right → Nat
  | .read => 0 | .write => 1 | .atomic => 2

/-- Does the interval [lo, hi] lie wholly within one window of partition `p` that has the right (R190)? -/
def State.windowOk (s : State) (p : Nat) (lo hi : Nat) (r : Right) : Bool :=
  (List.range 8).any (fun j =>
    let len := s.act (K.windowLength p j)
    let base := s.act (K.windowBase p j)
    decide (0 < len) && decide (base ≤ lo) && decide (lo ≤ hi) && decide (hi < base + len) &&
      bit (s.act (K.windowRights p j)) r.bit)

/-- The cause of the address fault (KIND 1 of Table 19-3) that an access of partition `p` to [lo, hi] takes, if any;
`verb` tells a verb operand, for which the control window has a cause of its own (R187). -/
def State.addrCause (s : State) (p : Nat) (lo hi : Nat) (r : Right) (verb : Bool) : Option Nat :=
  if gaRsv lo ≠ 0 ∨ gaRsv hi ≠ 0 ∨ 2 ^ 64 ≤ hi then some 1
  else if s.devOk (gaDev lo) = false then some 6
  else if tierOf (gaOff lo) = .unmapped ∨ tierOf (gaOff hi) = .unmapped then some 2
  else if verb ∧ (isData (gaOff lo) = false ∨ isData (gaOff hi) = false) then some 4
  else if s.windowOk p lo hi r then none
  else some 3

/-! Ring write guards (R229 to R231). -/

/-- Base offset and size in words of an enabled feed or clause ring: 0 to 63 the clause ring of a core, 64 + p the feed
ring of Pp. -/
def State.ringInfo (s : State) (r : Fin 80) : Option (Nat × Nat) :=
  if r.val < 64 then
    if s.act (K.ringEnable r.val) = 1 then some (gaOff (s.act (K.ringBase r.val)), s.act (K.ringWords r.val)) else none
  else
    let p := r.val - 64
    if s.enabled p ∧ s.act (K.feedEnable p) = 1 then some (gaOff (s.act (K.feedBase p)), s.act (K.feedWords p)) else none

/-- A guarded stretch of a ring: base, size in words, first guarded word, how many. -/
structure Guard where
  base : Nat
  words : Nat
  first : Nat
  count : Nat
  deriving DecidableEq, Repr

/-- The guarded stretches in force: from the retire pointer up to the fetch pointer of each enabled ring (R229). -/
def State.guards (s : State) : List Guard :=
  (List.finRange 80).filterMap (fun r =>
    match s.ringInfo r with
    | none => none
    | some (b, w) =>
      let n := (s.rings[r].fetch - s.rings[r].retire).toNat
      if n = 0 then none else some { base := b, words := w, first := s.rings[r].retire.toNat, count := n })

/-- Does a guard cover an offset? -/
def Guard.covers (g : Guard) (off : Nat) : Bool :=
  decide (g.base ≤ off) && decide (off < g.base + 8 * g.words) &&
    decide (((off - g.base) / 8 + g.words - g.first % g.words) % g.words < g.count)

/-- Does any guard cover an offset? -/
def guarded (gs : List Guard) (off : Nat) : Bool := gs.any (fun g => g.covers off)

/-! Reading. -/

/-- The bytes of local memory from `off` upwards. -/
def State.readMem (s : State) (off n : Nat) : List Byte := s.store.mem.readN off n
/-- The little-endian value of `n` bytes from `off`. -/
def State.readWord (s : State) (off n : Nat) : Nat := ofLe (s.readMem off n)
/-- Is the 64-bit word of an offset poisoned (R223)? -/
def State.poisoned (s : State) (off : Nat) : Bool := s.store.poison.contains (off / 8 * 8)
/-- Is any word of [off, off + n) poisoned? -/
def State.anyPoison (s : State) (off n : Nat) : Bool :=
  s.store.poison.any (fun w => decide (w < off + n) && decide (off < w + 8))

/-- Sorted insertion without repeats. -/
def insertNat (x : Nat) : List Nat → List Nat
  | [] => [x]
  | y :: ys => if x = y then y :: ys else if x < y then x :: y :: ys else y :: insertNat x ys

/-- Mark a word poisoned (R223). -/
def Store.addPoison (t : Store) (off : Nat) : Store := { t with poison := insertNat (off / 8 * 8) t.poison }
/-- Clear the poison of a word (R224). -/
def Store.clearPoison (t : Store) (off : Nat) : Store := { t with poison := t.poison.filter (fun w => w ≠ off / 8 * 8) }

/-- An access to a deep channel ends its self-refresh (R197). -/
def State.wakeChans (s : State) (l : List Nat) : State :=
  if l.isEmpty then s
  else s.onStore (fun t =>
    { t with selfRefresh := Vector.ofFn (fun c : Fin 16 => t.selfRefresh[c] && !l.contains c.val),
             chanUse := Vector.ofFn (fun c : Fin 16 => if l.contains c.val then s.tick else t.chanUse[c]) })

/-- The lines of a list that lie in a tier. -/
def tierLines (t : Tier) (l : List Nat) : List Nat := l.filter (fun x => decide (tierOf (128 * x) = t))

/-- Make one line request for each line of a list (TEL_NEAR_LINES, TEL_DEEP_LINES): each holds a credit of its asker until
its bank or channel has granted it. -/
def State.takeLines (s : State) (a : Asker) (l : List Nat) : State :=
  let near := tierLines .near l
  let deep := tierLines .deep l
  let units := near.map (fun x => unitOf false (128 * x)) ++ deep.map (fun x => unitOf true (128 * x))
  let s1 := s.onStore (fun t => { t with traffic := t.traffic.serve t.overdue a units })
  ((s1.add64 K.telNearLines near.length).add64 K.telDeepLines deep.length).wakeChans
    (deep.map (fun x => chanOf (128 * x)))

/-- The lines that bytes [off, off + n) take. -/
def linesIn (off n : Nat) : List Nat :=
  if n = 0 then [] else (List.range ((off + n - 1) / 128 - off / 128 + 1)).map (fun i => off / 128 + i)

/-- The line requests that bytes [off, off + n) take. -/
def State.countLines (s : State) (a : Asker) (off n : Nat) : State := s.takeLines a (linesIn off n)

/-! Errors (R188, R222, R223). -/

/-- Count an address fault (R188). -/
def State.countAddrFault (s : State) : State := s.bump K.addressFaults

/-- An address fault of a BAR2 request or of a remote request (R188): counted and logged with source 0x0112. -/
def State.addrFaultRec (s : State) (a b : Nat) : State := s.countAddrFault.logRec 0x0112 1 noPart a b

/-- Put an event into its latch until the tick boundary that samples it (Table 2-1). -/
def State.latch (s : State) (e : Event) : State := s.onAon (fun a => { a with held := a.held ++ [e] })

/-- Mark a word whose error cannot be corrected (R223): poisoned, counted, and its address kept. -/
def State.markWord (s : State) (off : Nat) : State :=
  let w := off / 8 * 8
  let s1 := s.onStore (fun t =>
    { t.addPoison w with single := t.single.filter (fun x => x ≠ w), latent := t.latent.filter (fun x => x ≠ w) })
  (s1.bump (if tierOf off = .near then K.uncorrectedNear else K.uncorrectedDeep)).setSgl K.lastErrorAddress (s.ga w)

/-- An uncorrectable error found in a data word (R223): marked, and its event latched. -/
def State.uncorrectable (s : State) (off : Nat) : State :=
  (s.markWord off).latch (.dataError (BitVec.ofNat 64 (s.ga (off / 8 * 8))))

/-- A single-bit error found by a read (R222): corrected, written back and counted. -/
def State.corrected (s : State) (off : Nat) : State :=
  (s.onStore (fun t => { t with single := t.single.filter (fun x => x ≠ off / 8 * 8) })).bump
    (if tierOf off = .near then K.correctedNear else K.correctedDeep)

/-- Words of a list that [off, off + n) reads. -/
def wordsRead (l : List Nat) (off n : Nat) : List Nat := l.filter (fun w => decide (w < off + n) && decide (off < w + 8))

/-- What a read of [off, off + n) finds (R222, R223): errors in its words are corrected, or marked and reported. -/
def State.checkRead (s : State) (off n : Nat) : State :=
  (s.forEach (wordsRead s.store.single off n) State.corrected).forEach (wordsRead s.store.latent off n) State.uncorrectable

/-! Writing. -/

/-- One byte of a local write: its offset, its value, and the bits of it that are written. -/
structure WByte where
  off : Nat
  val : Byte
  mask : Byte
  deriving DecidableEq, Repr

/-- A plain byte of a write. -/
def WByte.plain (off : Nat) (v : Byte) : WByte := { off := off, val := v, mask := 0xFF }

/-- Bytes written from `off` upwards. -/
def wbytes (off : Nat) : List Byte → List WByte
  | [] => []
  | b :: bs => WByte.plain off b :: wbytes (off + 1) bs

/-- Does the write cover all eight bytes of the word at `w`? -/
def coversWord (ws : List WByte) (w : Nat) : Bool :=
  (List.range 8).all (fun i => ws.any (fun b => decide (b.off = w + i) && decide (b.mask = 0xFF)))

/-- Is a byte of the write left out because its word is poisoned and only partly written (R224)? -/
def poisonStops (poison : List Nat) (ws : List WByte) (off : Nat) : Bool :=
  let w := off / 8 * 8
  poison.contains w && !coversWord ws w

/-- The merged value of a partly written byte. -/
def mergeByte (old v mask : Byte) : Byte := (old &&& ~~~mask) ||| (v &&& mask)

/-- Perform the bytes of a write that nothing stops. -/
def Memory.writeMasked (m : Memory) : List WByte → Memory
  | [] => m
  | b :: bs => Memory.writeMasked (m.write b.off (mergeByte (m.read b.off) b.val b.mask)) bs

/-- The bytes of a write that are performed: no guarded word (R230), no poisoned word that is only partly written
(R224). -/
def State.allowed (s : State) (ws : List WByte) : List WByte :=
  let gs := s.guards
  ws.filter (fun b => !guarded gs b.off && !poisonStops s.store.poison ws b.off)

/-- Does a write write any bit of the word at `w`? -/
def touchesWord (ws : List WByte) (w : Nat) : Bool := ws.any (fun b => decide (b.off / 8 * 8 = w) && decide (b.mask ≠ 0))

/-- A write that covers a word only in part reads it first (R205), and finds its errors (R222, R223). -/
def State.checkWrite (s : State) (ws : List WByte) : State :=
  let part (l : List Nat) := l.filter (fun w => touchesWord ws w && !coversWord ws w)
  (s.forEach (part s.store.single) State.corrected).forEach (part s.store.latent) State.uncorrectable

/-- Perform a write on the store: the allowed bytes, and the poison and errors of words written whole (R224). -/
def State.putBytes (s : State) (ws : List WByte) : State :=
  let ok := s.allowed ws
  s.onStore (fun t =>
    { t with mem := t.mem.writeMasked ok, poison := t.poison.filter (fun w => !coversWord ok w),
             single := t.single.filter (fun w => !coversWord ok w), latent := t.latent.filter (fun w => !coversWord ok w) })

/-- Count and log the guard drop of one write (R230): the ring's base and the first address dropped. A whole write, or the
commit of a whole tile, counts as one request (notes/assumptions/54.md). -/
def State.guardDrop (s : State) (ws : List WByte) : State :=
  let gs := s.guards
  match ws.find? (fun b => guarded gs b.off) with
  | none => s
  | some b =>
    match gs.find? (fun g => g.covers b.off) with
    | none => s
    | some g => (s.bump K.guardDrops).logRec 0x0242 1 noPart (s.ga g.base) (s.ga b.off)

/-- The distinct lines of a write. -/
def linesOf (ws : List WByte) : List Nat := ws.foldl (fun l b => insertNat (b.off / 128) l) []

/-- Perform one write or commit on the local store (R202, R205, R224, R230). -/
def State.storeWrite (s : State) (a : Asker) (ws : List WByte) : State :=
  if ws.isEmpty then s else (((s.checkWrite ws).putBytes ws).guardDrop ws).takeLines a (linesOf ws)

/-- Does a write meet a poisoned word that it covers only in part (R224)? -/
def State.writeHitsPoison (s : State) (ws : List WByte) : Bool :=
  ws.any (fun b => poisonStops s.store.poison ws b.off)

/-! Atomics (R215 to R221). -/

/-- The new value of the word under an atomic of Table 6-5; `w` is 32 or 64. Reserved codes leave the old value. An FADD of
64 bits, which the table does not give, adds the low 32 and leaves zero above (notes/assumptions/50.md). -/
def atomNew (code w old opnd cmp : Nat) : Nat :=
  let so := sext w old
  let sp := sext w opnd
  match code with
  | 0x1 => (old + opnd) % 2 ^ w
  | 0x2 => (fadd (BitVec.ofNat 32 old) (BitVec.ofNat 32 opnd)).toNat
  | 0x3 => if so ≤ sp then old else opnd % 2 ^ w
  | 0x4 => if so ≤ sp then opnd % 2 ^ w else old
  | 0x5 => min old (opnd % 2 ^ w)
  | 0x6 => max old (opnd % 2 ^ w)
  | 0x7 => old &&& (opnd % 2 ^ w)
  | 0x8 => old ||| (opnd % 2 ^ w)
  | 0x9 => old ^^^ (opnd % 2 ^ w)
  | 0xA => opnd % 2 ^ w
  | 0xB => if old = cmp % 2 ^ w then opnd % 2 ^ w else old
  | _ => old

/-- Does an atomic name a legal target (R216): naturally aligned, in the near or deep tier? -/
def atomTargetOk (off w : Nat) : Bool := decide (off % (w / 8) = 0) && isData off

/-- Perform an atomic on a local word that is not poisoned: the word's old value, and the state after. A guarded word is
only read (R230). -/
def State.atomLocal (s : State) (a : Asker) (code w off opnd cmp : Nat) : Nat × State :=
  let old := s.readWord off (w / 8)
  (old, s.storeWrite a (wbytes off (leBytes (w / 8) (atomNew code w old opnd cmp))))

/-! Torn regions (R234, R344, R346). -/

/-- Does any byte of the local interval [off, off + n) lie in a torn region of any partition? -/
def State.tornIn (s : State) (off n : Nat) : Bool :=
  (List.finRange 16).any (fun p =>
    s.parts[p].sb.any (fun e => e.torn && !disjoint e.lo e.hi (s.ga off) (s.ga off + n - 1)))

end Sys2Proof.Machine
end

