-- ==== Sys2Proof/Machine/Routing.lean ====
section
/-!
DEFINITION. Sending over the Filver fabric: the route and channel of a message (R562, R563), link credits and the retry
buffer (R558, R559), and injection, which waits while no port can take the message.
-/
namespace Sys2Proof.Machine

/-- Coordinate `d` (0 x, 1 y, 2 z) of a device number (R549). -/
def coord (dev d : Nat) : Nat := bits dev (4 * d + 3) (4 * d)

/-- The size of dimension `d`. -/
def State.fabSize (s : State) (d : Nat) : Nat :=
  if d = 0 then s.act K.fabricSizeX else if d = 1 then s.act K.fabricSizeY else s.act K.fabricSizeZ

/-- The dimension whose ring ports 2d and 2d + 1 a port belongs to; 3 for the express ports. -/
def portDim (q : Nat) : Nat := q / 2

/-- One hop towards `dest` in dimension `d` (R562, R563): the port, and the virtual channel of its class. `vcIn` is the
virtual channel on which the message arrived in this dimension, 0 when it enters it here. -/
def State.hop (s : State) (d dest vcIn : Nat) : Nat × Nat :=
  let n := s.fabSize d
  let me := coord s.ownDev d
  let dst := coord dest d
  let plus := (dst + n - me) % n
  let minus := (me + n - dst) % n
  let up := decide (plus ≤ minus)
  if s.act K.expressDim = d + 1 ∧ n < 4 * min plus minus then (if up then 6 else 7, 0)
  else if up then (2 * d, if me = n - 1 then 1 else vcIn)
  else (2 * d + 1, if me = 0 then 1 else vcIn)

/-- The first dimension in which `dest` differs from this device; none when it is this device. -/
def State.nextDim (s : State) (dest : Nat) : Option Nat :=
  [0, 1, 2].find? (fun d => decide (coord s.ownDev d ≠ coord dest d))

/-- The route of a message from here: the port and the channel. `inPort` and `inCh` tell where a forwarded message came
from. -/
def State.route (s : State) (m : Msg) (inPort : Option Nat) (inCh : Nat) : Option (PortId × Nat) :=
  match s.nextDim m.dest.toNat with
  | none => none
  | some d =>
    let vcIn := match inPort with
      | some q => if portDim q = d then inCh % 2 else 0
      | none => 0
    let h := s.hop d m.dest.toNat vcIn
    some (qid h.1, (if m.type.toNat < 0x80 then 0 else 2) + h.2)

/-- Is a port up (PORT_STATE 5 or 6)? -/
def Port.up (p : Port) : Bool := decide (p.state = 5) || decide (p.state = 6)

/-- Can port `q` send a sequenced flit on a channel (R558, R559)? -/
def State.canSend (s : State) (q : PortId) (ch : Fin 5) : Bool :=
  s.ports[q].up && decide (0 < s.ports[q].sess.credits[ch]) && decide (s.ports[q].sess.retry.length < 512)

/-- Put a flit on the link, with the SEQ expected and the credits that it returns (Tables 16-2 and 16-3). -/
def State.putFlit (s : State) (q : PortId) (seq : BitVec 16) (ch : Nat) (nak : Bool) (switch : Option Nat)
    (credits : List Nat) (m : Option Msg) : State :=
  s.output (.flit q { seq := seq, ack := s.ports[q].sess.rxSeq, channel := ch, nak := nak, switch := switch,
                      credits := credits } m)

/-- Every credit that waits has been put into a flit. -/
def State.creditsSent (s : State) (q : PortId) : State :=
  s.onPort q (fun p => { p with sess := { p.sess with ret := Vector.replicate 5 0 } })

/-- A null flit (Table 16-4): the next SEQ, every credit to return, and no message. -/
def State.putNull (s : State) (q : PortId) (nak : Bool) (switch : Option Nat) : State :=
  let e := s.ports[q].sess
  (s.creditsSent q).putFlit q e.txSeq 7 nak switch e.ret.toList none

/-- Send one sequenced flit (R558, R559): a credit is used, and the flit stays in the retry buffer until acknowledged. -/
def State.sendFlit (s : State) (q : PortId) (ch : Fin 5) (m : Msg) : State :=
  let seq := s.ports[q].sess.txSeq
  let back := s.ports[q].sess.ret.toList
  let s1 := (s.creditsSent q).onPort q (fun p =>
    { p with sess := { p.sess with
        txSeq := seq + 1, credits := vmod p.sess.credits ch (fun n => n - 1),
        retry := p.sess.retry ++ [(seq, ch.val, m, back)] } })
  (s1.add64 (K.flitsTx q.val) 1).putFlit q seq ch.val false none back (some m)

/-- Try to send one message; false when it must wait. -/
def State.trySend (s : State) (m : Msg) (inPort : Option Nat) (inCh : Nat) : State × Bool :=
  match s.route m inPort inCh with
  | none => (s, false)
  | some (q, ch) =>
    let c : Fin 5 := Fin.ofNat 5 ch
    if s.canSend q c then ((s.sendFlit q c m).onFab (fun f => { f with sent := f.sent + 1 }), true) else (s, false)

/-- Inject waiting messages in order, stopping at the first that must wait (R564). -/
def State.drainFrom (s : State) : List Msg → State
  | [] => s.onFab (fun f => { f with inject := [] })
  | m :: ms =>
    match s.trySend m none 0 with
    | (s', true) => (s'.onFab (fun f => { f with injected := f.injected + 1 })).drainFrom ms
    | (s', false) => s'.onFab (fun f => { f with inject := m :: ms })

/-- Inject what waits. -/
def State.drain (s : State) : State := s.drainFrom s.fab.inject

/-- Hand a message to the fabric (R354): injected as soon as its port can take it. -/
def State.sendMsg (s : State) (m : Msg) : State :=
  (s.onFab (fun f => { f with inject := f.inject ++ [m] })).drain

/-- A message from this device. -/
def State.mkMsg (s : State) (type part : Nat) (dest tag : Nat) (addr : Nat) (aux : Nat) (data : List Byte) : Msg :=
  { type := BitVec.ofNat 8 type, len := BitVec.ofNat 8 data.length, srcDev := BitVec.ofNat 12 s.ownDev,
    srcPart := pid part, dest := BitVec.ofNat 12 dest, tag := BitVec.ofNat 16 tag, addr := BitVec.ofNat 64 addr,
    aux := BitVec.ofNat 192 aux, data := data, tileLast := false }

end Sys2Proof.Machine
end

