-- ==== Sys2Proof/Machine/Conj.lean ====
section
/-!
DEFINITION. Conjunctions (chapter 9): references and rights, signals, the signal history of R625, and the answers that a
signal sends to the wait registrations of other devices (R572).
-/
namespace Sys2Proof.Machine

/-- The value of counter `i`. -/
def State.conjVal (s : State) (i : Nat) : Nat := SMap.get (fun _ => 0) s.store.conj i
/-- The offset of counter `i`. -/
def conjOff (i : Nat) : Nat := conjBase + 4 * i
/-- The counter of an offset. -/
def conjIdx (off : Nat) : Nat := (off - conjBase) / 4
/-- Is a conjunction reference legal (R347), device apart? -/
def conjRefOk (a : Nat) : Bool :=
  decide (gaRsv a = 0) && decide (conjBase ≤ gaOff a) && decide (gaOff a ≤ 0xF007FFFC) && decide (gaOff a % 4 = 0)
/-- The owner partition of a block in the active set (R348). -/
def State.conjOwnerOf (s : State) (b : Nat) : Option PartId :=
  let o := (at! 0xFF (s.dact K.conjOwner) b).toNat
  if o < 16 ∧ s.enabled o then some (pid o) else none
/-- The share entry of a block. -/
def State.conjShareOf (s : State) (b : Nat) : Nat := ofLe ((s.dact K.conjShare).drop (4 * b) |>.take 4)
/-- May a thread of partition `p` on device `dev` use counter `i` of this device (R348)? -/
def State.conjRights (s : State) (i dev p : Nat) : Bool :=
  let b := i / 256
  let sh := s.conjShareOf b
  (decide (dev = s.ownDev) && decide (s.conjOwnerOf b = some (pid p))) ||
    (bit sh 16 && decide (bits sh 11 0 = dev) && decide (bits sh 15 12 = p))

/-- Set a counter. -/
def State.setConj (s : State) (i v : Nat) : State :=
  s.onStore (fun t => { t with conj := SMap.set (fun _ => 0) t.conj i v })

/-- Answer the wait registrations of other devices that the counter now satisfies (R572). -/
def State.answerWaits (s : State) (i : Nat) : State :=
  let v := s.conjVal i
  let hit := s.fab.regs.filter (fun r => decide (r.index = i) && decide (r.value.toNat ≤ v))
  let s1 := s.onFab (fun f => { f with regs := f.regs.filter (fun r => !(decide (r.index = i) && decide (r.value.toNat ≤ v))) })
  s1.forEach hit (fun u r => u.sendMsg (u.mkMsg 0x87 r.part r.dev r.tag.toNat (u.ga (conjOff i)) 1 []))

/-- Note that something arrived for the partition that owns a block, as a doorbell would (R359, R620). -/
def State.ringOwner (s : State) (b : Nat) : State :=
  match s.conjOwnerOf b with
  | some p => s.onPart p (fun q => { q with rang := true })
  | none => s

/-- Keep a signal in the history of the block's owner: the last 16 (R625). -/
def State.keepSig (s : State) (i v dev part kind : Nat) : State :=
  match s.conjOwnerOf (i / 256) with
  | none => s
  | some p =>
    let r : SigRec := { ref := s.ga (conjOff i), value := v, dev := dev, part := part, kind := kind, tick := s.tick }
    s.onPart p (fun q => { q with hist := (if 16 ≤ q.hist.length then q.hist.drop 1 else q.hist) ++ [r] })

/-- The new value of a counter under a signal (R351). -/
def sigValue (old v : Nat) : Nat := min (old + v) 0xFFFFFFFF

/-- Apply a signal of value `v` to counter `i` (R351, R353), from a local thread or verb (kind 0), the fabric (1) or
BAR2 (2). -/
def State.applySignal (s : State) (i v dev part kind : Nat) : State :=
  let old := s.conjVal i
  let s1 := (s.setConj i (sigValue old v)).onStore (fun t =>
    { t with sigAccepted := t.sigAccepted + 1, sigApplied := t.sigApplied + 1 })
  let s2 := s1.add64 K.conjSignalsApplied 1
  let s3 := if 0xFFFFFFFF < old + v then (s2.bump K.conjSaturated).logRec 0x0243 1 noPart (s2.ga (conjOff i)) 0 else s2
  let s4 := s3.keepSig i v dev part kind
  let s5 := if kind = 0 then s4 else s4.ringOwner (i / 256)
  s5.answerWaits i

end Sys2Proof.Machine
end

