-- ==== Sys2Proof/Machine/Energy.lean ====
section
/-!
DEFINITION. The energy ledger (chapter 5): the movements of Table 5-1, which are the only changes of the ledger (R149),
deposits, grants, automatic grants, low marks, reservations and settlement.
-/
namespace Sys2Proof.Machine

/-! The movements of Table 5-1. -/

/-- Deposit d. -/
def Ledger.deposit (l : Ledger) (d : Int) : Ledger := { l with deposits := l.deposits + d, pool := l.pool + d }

/-- Grant g to Pp, of either sign. -/
def Ledger.grant (l : Ledger) (p : PartId) (g : Int) : Ledger :=
  { l with pool := l.pool - g, subs := vmod l.subs p (fun b => { b with balance := b.balance + g }) }

/-- Reservation or top-up r for a verb of Pp. -/
def Ledger.reserve (l : Ledger) (p : PartId) (r : Int) : Ledger :=
  { l with totalReserved := l.totalReserved + r,
           subs := vmod l.subs p (fun b => { b with balance := b.balance - r, reserved := b.reserved + r }) }

/-- Settlement of a verb of Pp with reservation res and metered energy e. -/
def Ledger.settle (l : Ledger) (p : PartId) (res e : Int) : Ledger :=
  { l with totalReserved := l.totalReserved - res, totalSpent := l.totalSpent + e,
           subs := vmod l.subs p (fun b =>
             { balance := b.balance + (res - e), reserved := b.reserved - res, spent := b.spent + e }) }

/-- Base charge b. -/
def Ledger.baseCharge (l : Ledger) (b : Int) : Ledger :=
  { l with pool := l.pool - b, poolSpent := l.poolSpent + b, totalSpent := l.totalSpent + b }

/-- The residue below one nanojoule that waits for the next base charge (R162), in pJ. -/
def Ledger.withResidue (l : Ledger) (pj : Nat) : Ledger := { l with residue := pj }

/-- The sum of one figure over the 16 sub-ledgers. -/
def Ledger.sum (l : Ledger) (f : Sub → Int) : Int := l.subs.toList.foldr (fun b t => f b + t) 0

/-- The relations of R147. -/
def Ledger.ok (l : Ledger) : Bool :=
  decide (l.deposits = l.pool + l.poolSpent + l.sum (fun b => b.balance + b.reserved + b.spent)) &&
    decide (l.totalReserved = l.sum Sub.reserved) && decide (l.totalSpent = l.poolSpent + l.sum Sub.spent)

/-! Deposits and grants. -/

/-- A value within the bounds of R150: 1 to 2^40. -/
def depositOk (v : Nat) : Bool := decide (1 ≤ v) && decide (v ≤ 2 ^ 40)
/-- A grant within the bounds of R151: not 0, magnitude at most 2^40. -/
def grantOk (g : Int) : Bool := decide (g ≠ 0) && decide (g.natAbs ≤ 2 ^ 40)

/-- Apply a deposit (R150). -/
def State.applyDeposit (s : State) (v : Nat) : State := s.onLedger (fun l => l.deposit v)

/-- Refuse a grant to Pp (R151, R152): counted and logged. -/
def State.refuseGrant (s : State) (p : PartId) (amount : Int) : State :=
  (s.bump K.grantRefused).logRec 0x0020 1 p.val p.val (w64 amount).toNat

/-- The balance a grant draws on (R151). -/
def Ledger.drawn (l : Ledger) (p : PartId) (g : Int) : Int := if 0 < g then l.pool else l.subs[p].balance

/-- Apply a grant: whole, or refused whole (R151). -/
def State.applyGrant (s : State) (p : PartId) (g : Int) : State :=
  if s.ledger.drawn p g < g.natAbs then s.refuseGrant p g else s.onLedger (fun l => l.grant p g)

/-- The automatic grant of one partition (R152, R154). -/
def State.autoGrant (s : State) (p : PartId) : State :=
  let step := s.act (K.autoStep p.val)
  if step = 0 ∨ s.ledger.pool < 0 ∨ (sext 64 (s.act (K.autoFloor p.val))) ≤ s.ledger.subs[p].balance then s
  else if s.ledger.pool < step then s.refuseGrant p step
  else s.onLedger (fun l => l.grant p step)

/-- The automatic grants of a planner tick, P0 to P15 (R152). -/
def State.autoGrants (s : State) : State := s.forEach (List.finRange 16) State.autoGrant

/-- The base charge (R163): the metered energy of the period outside verbs, and the residue that settled verbs left
(R162), both in pJ; what is below one nanojoule waits for the next charge. -/
def State.baseCharge (s : State) (pj : Nat) : State :=
  let t := pj + s.ledger.residue
  s.onLedger (fun l => (l.baseCharge (t / 1000 : Nat)).withResidue (t % 1000))

/-- The balance of an account: 0 the pool, 1 + p the sub-ledger of Pp. -/
def Ledger.account (l : Ledger) (i : Fin 17) : Int :=
  if i.val = 0 then l.pool else (l.subs[pid (i.val - 1)]).balance
/-- The low mark of an account (R153). -/
def State.lowMark (s : State) (i : Fin 17) : Int :=
  sext 64 (s.sgl (if i.val = 0 then K.poolLowMark else K.lowMark (i.val - 1)))
/-- The balance object of an account. -/
def balanceKey (i : Fin 17) : Nat := if i.val = 0 then K.poolBalance else K.balance (i.val - 1)

/-- Sample one account against its low mark (R153). -/
def State.sampleLow (s : State) (i : Fin 17) : State :=
  let b := s.ledger.account i
  let now := decide (b < s.lowMark i)
  let s1 := if now && !s.aon.low[i] then s.notify 3 (balanceKey i) (w64 b).toNat else s
  s1.onAon (fun a => { a with low := vset a.low i now })

/-- Sample every account (R153). -/
def State.sampleLows (s : State) : State := s.forEach (List.finRange 17) State.sampleLow

/-! Clock points (R155, Table 5-3). -/

/-- Clock of a point, in MHz. -/
def pointClock (n : Nat) : Nat := at! 1800 [200, 400, 800, 1200, 1600, 1800] n
/-- Scale of a point, in 256ths. -/
def pointScale (n : Nat) : Nat := at! 306 [138, 153, 175, 210, 256, 306] n
/-- The scale at which a verb of core `c` is reserved now: of its cluster's point, or of point L for core 0 in Listen. -/
def State.scaleOf (s : State) (c : Nat) : Nat :=
  if c = 0 ∧ s.lvl = 4 then 138 else pointScale (s.aon.clocks.points[(Fin.ofNat 8 (c / 8) : Fin 8)])

/-! Reservations (R156 to R168). -/

/-- The reservation formula of R156: T tiles of a cost, the width factor w, the scale s, D deep-tier bytes and F remote
units. -/
def reservation (T cost w scale D F : Nat) : Nat := ceilDiv (T * cost * w * scale) 1024 + 32 * ceilDiv D 1024 + 2 * F

/-- A top-up (R167, R168): what ⌈res × new / old⌉ adds. -/
def topUp (res old new : Nat) : Nat := if new ≤ old then 0 else ceilDiv (res * new) old - res

/-- Can `r` be reserved from Pp (R157)? -/
def State.canReserve (s : State) (p : PartId) (r : Nat) : Bool :=
  decide ((r : Int) ≤ s.ledger.subs[p].balance) &&
    decide (s.ledger.subs[p].reserved + r ≤ (s.act (K.reserveCap p.val) : Int))

/-- Reserve (Table 5-1). -/
def State.reserve (s : State) (p : PartId) (r : Nat) : State := s.onLedger (fun l => l.reserve p r)

/-- Settle a verb of Pp: reservation `res` nJ, metered `pj` pJ; the residue waits for the base charge (R161, R162). -/
def State.settle (s : State) (p : PartId) (res pj : Nat) : State :=
  s.onLedger (fun l => (l.settle p res (pj / 1000 : Nat)).withResidue (l.residue + pj % 1000))

/-- Meter one more tile of a verb, never above 1.1 × res (R164). -/
def meterTile (metered res pj : Nat) : Nat := min (metered + pj) (1100 * res)

end Sys2Proof.Machine
end

