-- ==== Sys2Proof/Machine/Held.lean ====
section
/-!
DEFINITION. What holds a partition, its threads and its cores (Tables 3-9, 7-2 and 4-6, R629, R645), where a thread
stands in its ring, and how a partition fault (R627 to R630) and a thread fault (R311 to R314) are raised.
-/
namespace Sys2Proof.Machine

/-! The pending swap. -/

/-- Keys at which two scalar copies differ. -/
def diffKeys (a b : KV) : List Nat :=
  (a.filter (fun e => decide (SMap.get objDflt b e.1 ≠ e.2))).map Prod.fst ++
    (b.filter (fun e => decide (SMap.find a e.1 = none))).map Prod.fst

/-- Keys at which two DOMAIN copies differ. -/
def diffDoms (a b : Doms) : List Nat :=
  (a.filter (fun e => decide (SMap.get domDflt b e.1 ≠ e.2))).map Prod.fst ++
    (b.filter (fun e => decide (SMap.find a e.1 = none))).map Prod.fst

/-- Set objects that differ between the shadow and the active set (SHADOW_DIRTY, R93). -/
def State.diffs (s : State) : List Nat := diffKeys s.dict.act s.dict.shd ++ diffDoms s.dict.dact s.dict.dshd

/-- Does a set object belong to partition `p`, its cores, its rings or its conjunction blocks (Table 3-9, second row)? -/
def State.touches (s : State) (p : Nat) (k : Nat) : Bool :=
  let idx := k / 256
  let core (base : Nat) := decide (base ≤ idx) && decide (idx < base + 64) && bit (s.coreMask p) (idx - base)
  decide (idx = 0x3010 + p) || decide (idx = 0x3100) || decide (idx = 0x4100 + p) || decide (idx = 0x5810 + p) ||
    core 0x5010 || core 0x5880

/-- Is partition `p` an affected unit of the swap that is pending (R93)? -/
def State.affects (s : State) (p : Nat) : Bool := s.enabled p && s.diffs.any (s.touches p)

/-- Does a pending swap hold partition `p`? -/
def State.swapHolds (s : State) (p : Nat) : Bool := decide (s.aon.swapStatus ≠ 0) && s.affects p

/-! Partition states. -/

/-- PART_STATE (Table 7-2). -/
def State.partState (s : State) (p : PartId) : Nat :=
  if s.enabled p.val = false then 0
  else if s.parts[p].state = 1 ∧ s.swapHolds p.val then 2
  else s.parts[p].state

/-- Are the threads of `p` held at their clause boundaries and stopping points, by a swap, by Quiesce or by a partition
fault? -/
def State.partHeld (s : State) (p : PartId) : Bool :=
  s.swapHolds p.val || decide (s.mood = .quiesce) || s.parts[p].halting || decide (s.parts[p].state = 4)

/-- Is a thread inside a clause and at no stopping point (R292)? What holds its partition lets it go on to the next one;
a thread that holds before a faulting instruction, or before a push (R629, R645), has got there. -/
def Thread.midClause (h : Thread) : Bool := h.cl.active && !h.holding && decide (h.wait = .none)

/-- The same, or waiting for a remote answer, which is no stopping point. -/
def Thread.unsettled (h : Thread) : Bool :=
  h.midClause || (match h.wait with | .remote _ => true | _ => false)

/-- May thread `t` of partition `p` take a step? -/
def State.threadGo (s : State) (t : ThreadId) (p : PartId) : Bool :=
  s.runs && s.threadUp t && decide (s.threads[t].run ≠ 5) && decide (s.threads[t].flush = 0) &&
    s.enabled p.val && decide (s.parts[p].state = 1) && (!s.partHeld p || s.threads[t].midClause)

/-- Does the chain of core `c` take steps: is it powered, out of Fault, and not resetting? -/
def State.coreGo (s : State) (c : CoreId) (p : PartId) : Bool :=
  s.runs && s.coreUp c.val && decide (s.parts[p].state ≠ 6)

/-- Does the lowering from Full to Brisk, in progress, gate core `c` (R109)? -/
def State.gating (s : State) (c : CoreId) : Bool :=
  s.aon.mood.trans.any (fun t => decide (t.start = .full)) && decide (16 ≤ c.val)

/-- May core `c` of partition `p` start or resume a verb (Table 3-9, R109, R132, R254, R331, R629)? -/
def State.startGo (s : State) (c : CoreId) (p : PartId) : Bool :=
  s.coreGo c p && !s.gating c && s.enabled p.val && decide (s.parts[p].state = 1) && !s.partHeld p &&
    !s.cores[c].preemptReq && !s.cores[c].retiring.any (fun v => v.waits6)

/-! Ring positions. -/

/-- The ring of a thread: of its core, or the feed ring of its partition. -/
def State.threadRing (s : State) (t : ThreadId) : Option (Fin 80) :=
  if t.val < 64 then some t
  else (s.ctlPart (t.val - 64)).map (fun p => tid (64 + p.val))

/-- Base address and size in words of a ring, in use or not. -/
def State.ringGeom (s : State) (r : Fin 80) : Nat × Nat :=
  if r.val < 64 then (s.act (K.ringBase r.val), s.act (K.ringWords r.val))
  else (s.act (K.feedBase (r.val - 64)), s.act (K.feedWords (r.val - 64)))

/-- The global address of word `n` of a ring: its count modulo the ring's size. -/
def State.ringAddr (s : State) (r : Fin 80) (n : W32) : Nat :=
  let g := s.ringGeom r
  g.1 + 8 * (n.toNat % (max 1 g.2))

/-- The global address of the clause that a thread executes (THREAD_PC). -/
def State.clauseAddr (s : State) (t : ThreadId) : Nat :=
  match s.threadRing t with
  | none => 0
  | some r => s.ringAddr r s.rings[r].pc

/-! Faults. -/

/-- The PART_FAULT word (Table 19-2). -/
def faultWord (kind cause unit : Nat) (control : Bool) (ticket : Nat) : Nat :=
  kind + 2 ^ 8 * cause + 2 ^ 16 * unit + 2 ^ 22 * b2n control + 2 ^ 32 * (ticket % 2 ^ 32)

/-- Ask for the preemption of the verb that runs on a core at its next tile boundary (R404). -/
def CoreSt.askPreempt (c : CoreSt) : CoreSt := if c.active.isSome then { c with preemptReq := true } else c

/-- Ask it of every core of a partition (R629, step 2). -/
def State.preemptAll (s : State) (p : PartId) : State :=
  s.forEach (s.coresOf p.val) (fun u c => u.onCore c CoreSt.askPreempt)

/-- Keep the first fault since PART_STATE was last 1 (R630). -/
def State.keepFault (s : State) (p : PartId) (w addr : Nat) : State :=
  if s.parts[p].faulted then s
  else ((s.setSgl (K.partFault p.val) w).setSgl (K.partFaultAddress p.val) addr).setSgl (K.partFaultTick p.val) s.tick

/-- Raise a partition fault (R188, R628 to R630): counted, kept when it is the first, the halt begun, the record
written. The faulting verb is abandoned by the caller. -/
def State.raiseFault (s : State) (p : PartId) (kind cause unit : Nat) (control : Bool) (ticket addr : Nat) : State :=
  let w := faultWord kind cause unit control ticket
  let s1 := if kind = 1 then s.countAddrFault else s
  let s2 := (s1.bump (K.partFaults p.val)).keepFault p w addr
  let s3 := (s2.onPart p (fun q => { q with faulted := true, halting := decide (q.state ≠ 4) })).preemptAll p
  s3.logRec (0x0200 + kind) 2 p.val w addr

/-- A thread holds where it stands. -/
def State.holdThread (s : State) (t : ThreadId) : State := s.onThread t (fun h => { h with holding := true })

/-- Raise a partition fault of a thread's own access: the thread holds before the instruction (R629, step 1). -/
def State.threadAccessFault (s : State) (t : ThreadId) (p : PartId) (kind cause addr : Nat) : State :=
  (s.raiseFault p kind cause (t.val % 64) (decide (64 ≤ t.val)) 0 addr).holdThread t

/-- Raise a thread fault (R312, R313): the thread stops. -/
def State.threadFault (s : State) (t : ThreadId) (p : PartId) (cause slot : Nat) : State :=
  let a := s.clauseAddr t
  let w := cause + 2 ^ 8 * slot
  let s1 := s.onThread t (fun h =>
    { h with run := 5, faultWord := BitVec.ofNat 16 w, faultAddr := BitVec.ofNat 64 a, wait := .none,
             cl := ClauseSt.reset, fetchq := [] })
  s1.logRec 0x0210 2 p.val w a

end Sys2Proof.Machine
end

