-- ==== Sys2Proof/Machine/Operands.lean ====
section
/-!
DEFINITION. Verbs and their operands as they are encoded: the opcode map (Table 13-1), what each entry of chapter 13
accepts, operand fields (Tables 8-5 and 8-6), verb slots and adverbs (Tables 8-4 and 8-7), and the two ways a store
operand lays out its tiles: walker sets (R379, R380) and descriptors (R259, R382), with their bounding intervals.
-/
namespace Sys2Proof.Machine

/-! Opcodes. -/

/-- The verbs of Table 13-1. -/
inductive Op where
  | add | sub | mul | fma | min | max | abs | neg | ldexp
  | convert | quant | dequant | func | compare | select | reduce
  | softmax | softmaxPart | softmaxFix | rmsnorm | rope
  | copy | fill | permute | shift | compress | expand | gather | scatter | rotate | reshard
  deriving DecidableEq, Repr

/-- The opcode of a verb. -/
def Op.code : Op → Nat
  | .add => 0x100 | .sub => 0x101 | .mul => 0x102 | .fma => 0x103 | .min => 0x104 | .max => 0x105 | .abs => 0x106
  | .neg => 0x107 | .ldexp => 0x108 | .convert => 0x200 | .quant => 0x201 | .dequant => 0x202 | .func => 0x300
  | .compare => 0x400 | .select => 0x401 | .reduce => 0x500 | .softmax => 0x600 | .softmaxPart => 0x601
  | .softmaxFix => 0x602 | .rmsnorm => 0x603 | .rope => 0x604 | .copy => 0x700 | .fill => 0x701 | .permute => 0x702
  | .shift => 0x703 | .compress => 0x704 | .expand => 0x705 | .gather => 0x800 | .scatter => 0x801 | .rotate => 0x900
  | .reshard => 0x901

/-- Every verb. -/
def Op.all : List Op :=
  [.add, .sub, .mul, .fma, .min, .max, .abs, .neg, .ldexp, .convert, .quant, .dequant, .func, .compare, .select,
   .reduce, .softmax, .softmaxPart, .softmaxFix, .rmsnorm, .rope, .copy, .fill, .permute, .shift, .compress, .expand,
   .gather, .scatter, .rotate, .reshard]

/-- The verb of an opcode, if it has one (R460). -/
def Op.ofCode (n : Nat) : Option Op := Op.all.find? (fun o => decide (o.code = n))

/-- Cost of a verb's class (Table 5-2). -/
def Op.cost : Op → Nat
  | .copy | .fill => 16
  | .convert | .dequant | .softmaxFix | .permute | .shift | .gather | .reshard => 24
  | .quant | .compare | .select | .reduce | .rmsnorm | .compress | .expand | .scatter => 32
  | .func | .softmax | .softmaxPart | .rope => 48
  | .rotate => 128
  | _ => 24

/-- Summary kinds of a verb, in the order of its entry (R469, Table 10-9). -/
def Op.sumKinds : Op → List Nat
  | .quant | .rotate | .reshard => [6, 3, 4, 1]
  | .compare | .copy | .fill | .scatter => [1]
  | .reduce => [6, 1, 7, 8]
  | .softmax | .softmaxPart => [8, 4, 1]
  | .rmsnorm => [8, 1, 3, 4]
  | .compress | .expand => [2, 1]
  | _ => [1, 3, 4, 5]

/-! Verb slots and adverbs. -/

/-- A field of a 128-bit slot. -/
def slotBits (v : BitVec 128) (hi lo : Nat) : Nat := bits v.toNat hi lo
/-- OPCODE of a verb slot. -/
def slotOp (v : BitVec 128) : Nat := slotBits v 11 0
/-- CORE. -/
def slotCore (v : BitVec 128) : Nat := slotBits v 17 12
/-- MEMO_EN. -/
def slotMemoEn (v : BitVec 128) : Bool := v.getLsbD 18
/-- MEMO_BASE. -/
def slotMemoBase (v : BitVec 128) : Nat := slotBits v 22 19
/-- COMPLETE. -/
def slotComplete (v : BitVec 128) : Bool := v.getLsbD 23
/-- USE_ADVERB. -/
def slotUseAdv (v : BitVec 128) : Bool := v.getLsbD 24
/-- TRY. -/
def slotTry (v : BitVec 128) : Bool := v.getLsbD 25
/-- PREG. -/
def slotPreg (v : BitVec 128) : Nat := slotBits v 28 26
/-- GUARD. -/
def slotGuard (v : BitVec 128) : Bool := v.getLsbD 29
/-- Operand field `f`: 0 DST, 1 SRC_A, 2 SRC_B, 3 SRC_C. -/
def slotOpnd (v : BitVec 128) (f : Nat) : Nat := slotBits v (55 + 24 * f) (32 + 24 * f)

/-- ROUND of an adverb. -/
def advRound (a : W32) : Nat := bits a.toNat 2 0
/-- PRED_ZERO. -/
def advPredZero (a : W32) : Bool := a.getLsbD 3
/-- PRED_EN. -/
def advPredEn (a : W32) : Bool := a.getLsbD 4
/-- AXIS. -/
def advAxis (a : W32) : Nat := bits a.toNat 6 5
/-- SAT. -/
def advSat (a : W32) : Bool := a.getLsbD 7
/-- SELECT. -/
def advSelect (a : W32) : Nat := bits a.toNat 15 8
/-- PARAM. -/
def advParam (a : W32) : Nat := bits a.toNat 31 16

/-- KIND of an operand field (Table 8-5). -/
def opndKind (o : Nat) : Nat := bits o 23 22
/-- SUB of a special operand. -/
def opndSub (o : Nat) : Nat := bits o 21 16

/-- What an operand field names (Table 13-2). -/
inductive Term where
  | none | store | tap | stream | scalar
  deriving DecidableEq, Repr

/-- The term of a field; none for a special operand with a reserved SUB. -/
def termOf (o : Nat) : Option Term :=
  match opndKind o with
  | 0 => some .none
  | 1 => some .store
  | 2 => some .store
  | _ => match opndSub o with
    | 0 => some .tap
    | 1 => some .stream
    | 2 => some .scalar
    | 3 => some .scalar
    | _ => none

/-- Is the payload of a field free of reserved bits (Tables 8-5 and 8-6)? Kind 0 has its own cause. -/
def payloadOk (o : Nat) : Bool :=
  match opndKind o with
  | 0 => true
  | 1 => decide (bits o 21 16 = 0)
  | 2 => decide (bits o 21 3 = 0)
  | _ => match opndSub o with
    | 0 => decide (bits o 15 2 = 0)
    | 1 => decide (bits o 15 0 = 0)
    | 2 => decide (bits o 15 6 = 0)
    | 3 => decide (bits o 15 0 = 0)
    | _ => false

/-- What a verb's entry accepts in field `f` (chapter 13): SELECT chooses the form of FUNC, SOFTMAX_FIX and RMSNORM;
`auto` tells autonomous mode, in which GATHER and SCATTER take a table and an index operand. -/
def Op.accepts (o : Op) (sel : Nat) (auto : Bool) (f : Nat) : List Term :=
  match o, f with
  | .scatter, 0 => if auto then [.store] else [.stream]
  | _, 0 => [.store]
  | .fill, 1 => [.none]
  | .gather, 1 => if auto then [.store] else [.stream]
  | .softmax, 1 | .softmaxPart, 1 | .rmsnorm, 1 | .rope, 1 | .permute, 1 | .shift, 1 | .expand, 1 | .reshard, 1 =>
    [.store]
  | _, 1 => [.store, .tap]
  | .add, 2 | .sub, 2 | .mul, 2 | .fma, 2 | .min, 2 | .max, 2 | .ldexp, 2 | .dequant, 2 | .compare, 2 | .select, 2 =>
    [.store, .scalar]
  | .quant, 2 | .fill, 2 | .rotate, 2 => [.scalar, .none]
  | .func, 2 => if bit sel 4 then [.scalar] else [.none]
  | .softmax, 2 => [.scalar]
  | .softmaxPart, 2 | .rope, 2 => [.store]
  | .softmaxFix, 2 => if bit sel 0 then [.none] else [.store]
  | .rmsnorm, 2 => [.store, .none]
  | .gather, 2 | .scatter, 2 => if auto then [.store] else [.none]
  | _, 2 => [.none]
  | .fma, 3 | .select, 3 => [.store, .scalar]
  | .softmaxFix, 3 | .rope, 3 => [.store]
  | .rmsnorm, 3 => if bit sel 0 then [.store] else [.store, .none]
  | .rotate, 3 => [.none]
  | _, 3 => [.store, .none]
  | _, _ => [.none]

/-- Does a verb read SRC_C as its element predicate, and not as a value, a record or an output? -/
def Op.predField (o : Op) (sel : Nat) : Bool :=
  match o with
  | .fma | .select | .softmaxFix | .rope | .rotate => false
  | .rmsnorm => !bit sel 0
  | _ => true

/-- Is the adverb required (R464)? -/
def Op.advRequired : Op → Bool
  | .func | .reduce | .softmax | .softmaxPart | .permute | .rotate => true
  | _ => false

/-- Is every field of an adverb within what the entry lists (R464, cause 11)? -/
def Op.advOk (o : Op) (a : W32) : Bool :=
  let sel := advSelect a
  let par := advParam a
  let rnd (ok : Bool) := decide (advRound a < 6) && (ok || decide (advRound a = 0))
  let sat (ok : Bool) := ok || !advSat a
  let pe (ok : Bool) := ok || !advPredEn a
  let pz (ok : Bool) := ok || !advPredZero a
  let ax0 := decide (advAxis a = 0)
  let s0 := decide (sel = 0)
  let p0 := decide (par = 0)
  let amount := decide (par = 1) || decide (par = 2) || decide (par = 4) || decide (par = 8) || decide (par = 16) ||
    decide (par = 32)
  match o with
  | .fma => rnd true && sat true && pe false && pz true && ax0 && s0 && p0
  | .func => rnd true && sat true && ax0 && p0 && decide (1 ≤ sel % 16) && decide (sel % 16 ≤ 11) && decide (sel < 64)
  | .compare => rnd false && sat false && ax0 && p0 && decide (sel < 7)
  | .select => rnd true && sat true && pe false && pz false && ax0 && p0 && decide (sel < 7)
  | .reduce => rnd true && sat true && decide (1 ≤ advAxis a) && decide (advAxis a ≤ 3) && decide (sel < 7)
  | .softmax | .softmaxPart => rnd true && sat true && advPredZero a && ax0 && s0 && p0
  | .softmaxFix => rnd true && sat true && pe false && pz false && ax0 && p0 && decide (sel < 2)
  | .rmsnorm => rnd true && sat true && pe (!bit sel 0) && ax0 && decide (sel < 2)
  | .rope => rnd true && sat true && pe false && pz false && ax0 && decide (sel < 2) && (if sel = 0 then p0 else amount)
  | .copy => rnd false && sat false && ax0 && s0 && p0
  | .permute => rnd true && sat true && ax0 && (decide (sel = 1) || decide (sel = 3) || decide (sel = 4)) &&
      (if sel = 4 then amount else p0)
  | .shift => rnd true && sat true && ax0 && decide (sel < 2) && decide (par < 64)
  | .compress => rnd true && sat true && pz false && ax0 && s0 && p0
  | .scatter => rnd false && sat false && pz (!bit sel 0) && ax0 && p0 && decide (sel < 2)
  | .rotate => rnd true && sat true && pe false && pz false && ax0 && decide (sel < 8) &&
      (decide (par = 0) || (decide (4 ≤ par) && decide (par ≤ 8)))
  | .reshard => rnd true && sat true && ax0 && p0 && decide (sel < 2)
  | _ => rnd true && sat true && ax0 && s0 && p0

/-! Store operands as tile sequences. -/

/-- A store operand: its base, element format, and either the counts, broadcast and strides of a walker set, or the
rank, extents and strides of a descriptor. -/
structure View where
  base : Nat
  fmt : Fmt
  code : Nat
  walker : Bool
  bcast : Bool
  rank : Nat
  counts : List Nat
  strides : List Int
  deriving DecidableEq, Repr

/-- The n of dimension or level `k`, 1 when it has none. -/
def View.count (v : View) (k : Nat) : Nat := at! 1 v.counts k
/-- The byte stride of dimension or level `k`. -/
def View.stride (v : View) (k : Nat) : Int := at! 0 v.strides k

/-- A field of a descriptor. -/
def descBits (d : BitVec 512) (hi lo : Nat) : Nat := bits d.toNat hi lo

/-- The view of a descriptor that passed its checks (Table 7-5). -/
def viewOfDesc (d : BitVec 512) : View :=
  let rank := descBits d 74 72
  { base := descBits d 63 0, fmt := (Fmt.ofCode (descBits d 71 64)).getD (.float fp32), code := descBits d 71 64,
    walker := false, bcast := false, rank := rank,
    counts := (List.range 6).map (fun k => if k < rank then descBits d (159 + 32 * k) (128 + 32 * k) else 1),
    strides := (List.range 6).map (fun k =>
      if k = 0 ∨ rank ≤ k then 0 else sext 32 (descBits d (351 + 32 * k) (320 + 32 * k))) }

/-- Word `i` of a walker set (Table 10-6). -/
def wsWord (w : Vector W64 16) (i : Fin 16) : Nat := w[i].toNat

/-- The view of a walker set that passed its checks (Table 10-6). -/
def viewOfWalker (w : Vector W64 16) : View :=
  { base := wsWord w 0, fmt := (Fmt.ofCode (wsWord w 1 % 256)).getD (.float fp32), code := wsWord w 1 % 256,
    walker := true, bcast := bit (wsWord w 2) 7, rank := 6,
    counts := [bits (wsWord w 2) 6 0, bits (wsWord w 3) 6 0, bits (wsWord w 5) 31 0, bits (wsWord w 7) 31 0,
      bits (wsWord w 9) 31 0, bits (wsWord w 11) 31 0],
    strides := [0, sext 64 (wsWord w 4), sext 64 (wsWord w 6), sext 64 (wsWord w 8), sext 64 (wsWord w 10),
      sext 64 (wsWord w 12)] }

/-- The elements of a row run (R413). -/
def View.runLen (v : View) : Nat := v.count 0

/-- How many tiles a view has (R380, R382). -/
def View.tiles (v : View) : Nat :=
  if v.walker then v.count 2 * v.count 3 * v.count 4 * v.count 5
  else if v.rank = 1 then ceilDiv (v.count 0) 4096
  else ceilDiv (v.count 0) 64 * ceilDiv (v.count 1) 64 * v.count 2 * v.count 3 * v.count 4 * v.count 5

/-- The count of the fastest tile level (R471). -/
def View.span (v : View) : Nat := if v.walker then v.count 2 else ceilDiv (v.count 0) 64

/-- How many elements a view has. -/
def View.elems (v : View) : Nat := v.counts.foldl (· * ·) 1

/-- The active shape of a tile: full rows, columns, and the length of a last partial row (R382, R383). -/
def View.shape (v : View) (t : Nat) : Nat × Nat × Nat :=
  if v.walker then (v.count 1, v.count 0, 0)
  else if v.rank = 1 then
    let n := Nat.min 4096 (v.count 0 - 4096 * t)
    if n < 64 then (1, n, 0) else (n / 64, 64, n % 64)
  else
    let n0 := ceilDiv (v.count 0) 64
    let n1 := ceilDiv (v.count 1) 64
    (Nat.min 64 (v.count 1 - 64 * (t / n0 % n1)), Nat.min 64 (v.count 0 - 64 * (t % n0)), 0)

/-- Rows of a tile, the partial one included. -/
def shapeRows (h : Nat × Nat × Nat) : Nat := h.1 + (if h.2.2 = 0 then 0 else 1)
/-- Columns of row `r`. -/
def shapeCols (h : Nat × Nat × Nat) (r : Nat) : Nat := if r < h.1 then h.2.1 else h.2.2
/-- The transpose of a shape; a partial row has none. -/
def shapeT (h : Nat × Nat × Nat) : Nat × Nat × Nat := (h.2.1, h.1, h.2.2)

/-- Indices of tile ordinal `t` in levels of the given sizes, first fastest. -/
def ordIdx : List Nat → Nat → List Nat
  | [], _ => []
  | n :: ns, t => t % n :: ordIdx ns (t / n)

/-- The indices (e0 … e5) or (i0 … i5) of the element at row `r`, column `c` of tile `t`. -/
def View.index (v : View) (t r c : Nat) : List Nat :=
  if v.walker then c :: r :: ordIdx [v.count 2, v.count 3, v.count 4, v.count 5] t
  else if v.rank = 1 then [4096 * t + 64 * r + c]
  else
    match ordIdx [ceilDiv (v.count 0) 64, ceilDiv (v.count 1) 64, v.count 2, v.count 3, v.count 4, v.count 5] t with
    | a :: b :: rest => (64 * a + c) :: (64 * b + r) :: rest
    | l => l

/-- The dot product of indices with strides, level 0 apart. -/
def dotStride : List Nat → List Int → Int
  | i :: is, s :: ss => i * s + dotStride is ss
  | _, _ => 0

/-- The start address of the row run that holds the element, modulo 2^64. -/
def View.rowBase (v : View) (ix : List Nat) : Nat :=
  ((v.base : Int) + dotStride ix v.strides).toNat % 2 ^ 64

/-- Where an element lies: its byte address, the bit of its byte at which it starts, and the address of its block
scale (R380, R413). -/
structure Loc where
  addr : Nat
  nib : Nat
  scale : Nat
  deriving DecidableEq, Repr

/-- The place of element `e0` of a row run that starts at `row`. -/
def View.locIn (v : View) (row e0 : Nat) : Loc :=
  let e := if v.bcast then 0 else e0
  { addr := row + e * v.fmt.width / 8, nib := if v.fmt.width = 4 ∧ e % 2 = 1 then 4 else 0,
    scale := row + v.runLen * v.fmt.width / 8 + e / 32 }

/-- The place of the element at row `r`, column `c` of tile `t`. -/
def View.loc (v : View) (t r c : Nat) : Loc :=
  let ix := v.index t r c
  v.locIn (v.rowBase ix) (ix.headD 0)

/-- The place of the element at position `n` of the walk of the view: tiles, then rows, then columns. -/
def View.walkLoc (v : View) (n : Nat) : Loc :=
  if v.walker then
    let per := v.count 0 * v.count 1
    v.loc (n / per) (n % per / v.count 0) (n % v.count 0)
  else if v.rank = 1 then v.loc (n / 4096) (n % 4096 / 64) (n % 64)
  else
    -- tiles differ in size at the edges, so the position is found by walking the tiles
    let rec go : Nat → Nat → Nat → Loc
      | 0, t, m => v.loc t (m / 64) (m % 64)
      | f + 1, t, m =>
        let h := v.shape t
        if m < h.1 * h.2.1 then v.loc t (m / h.2.1) (m % h.2.1) else go f (t + 1) (m - h.1 * h.2.1)
    go v.tiles 0 n

/-- The bytes of an element's place. -/
def View.elemBytes (v : View) : Nat := Nat.max 1 (v.fmt.width / 8)

/-- The hull of an interval that moves along levels (R269, R389). -/
def spread (lo hi : Int) : List Nat → List Int → Int × Int
  | n :: ns, s :: ss =>
    let d : Int := ((n : Int) - 1) * s
    if d < 0 then spread (lo + d) hi ns ss else spread lo (hi + d) ns ss
  | _, _ => (lo, hi)

/-- The bounding interval [lo, hi] of a view (R269, R389). -/
def View.bounds (v : View) : Int × Int :=
  let l0 := if v.bcast then v.elemBytes else runBytes v.fmt v.runLen
  spread v.base ((v.base : Int) + l0 - 1) (v.counts.drop 1) (v.strides.drop 1)

/-- Round an interval to granules of 256 bytes (R338). -/
def granule (lo hi : Nat) : Nat × Nat := (lo / 256 * 256, hi / 256 * 256 + 255)

/-- The bytes of [lo, hi] that lie in the deep tier. -/
def deepBytes (lo hi : Nat) : Nat :=
  let a := Nat.max (gaOff lo) deepBase
  let b := Nat.min (gaOff lo + (hi - lo)) 0x7FFFFFFFF
  if a ≤ b then b - a + 1 else 0

end Sys2Proof.Machine
end

