-- ==== Sys2Proof/Machine/Control.lean ====
section
/-!
DEFINITION. Executing a control op (R299 to R306): registers, branches (R296), private memory, remote requests of a
thread, and the one function that performs an instruction. An instruction is done, waits, or stops its thread.
-/
namespace Sys2Proof.Machine

/-! Registers. -/

/-- Read a scalar register; s0 reads as zero. -/
def Thread.sget (h : Thread) (r : SReg) : W64 := if r = 0 then 0 else h.s[r]
/-- Write a scalar register; s0 ignores writes. -/
def Thread.sset (h : Thread) (r : SReg) (v : W64) : Thread := if r = 0 then h else { h with s := vset h.s r v }
/-- Read a predicate register; p0 reads as 1. -/
def Thread.pget (h : Thread) (r : PReg) : Bool := if r = 0 then true else h.p[r]
/-- Write a predicate register; p0 ignores writes. -/
def Thread.pset (h : Thread) (r : PReg) (v : Bool) : Thread := if r = 0 then h else { h with p := vset h.p r v }

/-- Write a scalar register of a thread. -/
def State.setS (s : State) (t : ThreadId) (r : SReg) (v : W64) : State := s.onThread t (fun h => h.sset r v)
/-- Write a predicate register of a thread. -/
def State.setP (s : State) (t : ThreadId) (r : PReg) (v : Bool) : State := s.onThread t (fun h => h.pset r v)

/-! Integer and binary32 operations (Table 8-12). -/

/-- sa op sb. Shift amounts are bits [5:0]. -/
def aluVal (o : AluOp) (a b : W64) : W64 :=
  let n := b.toNat % 64
  match o with
  | .add => a + b
  | .sub => a - b
  | .and => a &&& b
  | .or => a ||| b
  | .xor => a ^^^ b
  | .shl => a <<< n
  | .shr => a >>> n
  | .sra => a.sshiftRight n
  | .mul => a * b
  | .mulh => BitVec.ofInt 64 (a.toInt * b.toInt / 2 ^ 64)
  | .min => if a.toInt ≤ b.toInt then a else b
  | .max => if a.toInt ≤ b.toInt then b else a
  | .minu => if a.toNat ≤ b.toNat then a else b
  | .maxu => if a.toNat ≤ b.toNat then b else a

/-- sa op sign-extended imm14. -/
def immVal (o : ImmOp) (a : W64) (i : BitVec 14) : W64 :=
  let b := i.signExtend 64
  match o with
  | .addi => a + b
  | .andi => a &&& b
  | .ori => a ||| b
  | .xori => a ^^^ b

/-- sa shifted by an immediate. -/
def shiVal (o : ShiOp) (a : W64) (n : BitVec 6) : W64 :=
  match o with
  | .shli => a <<< n.toNat
  | .shri => a >>> n.toNat
  | .srai => a.sshiftRight n.toNat

/-- The low half of a register as binary32. -/
def lo32 (a : W64) : W32 := a.setWidth 32

/-- fcvtfi: toward zero, saturating, a NaN to 0. -/
def toI64 (x : W32) : W64 :=
  match (fval x).toInt 2 0 with
  | none => 0
  | some i => BitVec.ofInt 64 (clampInt (-(2 ^ 63)) (2 ^ 63 - 1) i)

/-- The binary32 operations; the upper half of a binary32 result is zero. -/
def fltVal (o : FltOp) (a b : W64) : W64 :=
  let x := lo32 a
  let y := lo32 b
  match o with
  | .fadd => (fadd x y).setWidth 64
  | .fsub => (fsub x y).setWidth 64
  | .fmul => (fmul x y).setWidth 64
  | .fdiv => (fdiv x y).setWidth 64
  | .fsqrt => (fsqrt x).setWidth 64
  | .fmin => (fmin x y).setWidth 64
  | .fmax => (fmax x y).setWidth 64
  | .fcvtif => (fofInt a.toInt).setWidth 64
  | .fcvtfi => toI64 x

/-- sa cc sb. -/
def cmpVal (cc : Nat) (a b : W64) : Bool :=
  match cc with
  | 0 => decide (a = b)
  | 1 => decide (a ≠ b)
  | 2 => decide (a.toInt < b.toInt)
  | 3 => decide (b.toInt ≤ a.toInt)
  | 4 => decide (a.toNat < b.toNat)
  | 5 => decide (b.toNat ≤ a.toNat)
  | 6 => flt (lo32 a) (lo32 b)
  | _ => fle (lo32 b) (lo32 a)

/-- pa op pb. -/
def prdVal (o : PrdOp) (a b : Bool) : Bool :=
  match o with
  | .pand => a && b
  | .por => a || b
  | .pxor => a != b
  | .pandn => a && !b

/-- Does a memo satisfy a condition of bmc? A NaN satisfies neither 4 nor 5. -/
def memoCond (cc : Nat) (m : W64) : Bool :=
  match cc with
  | 0 => decide (m = 0)
  | 1 => decide (m ≠ 0)
  | 2 => decide (m.toInt < 0)
  | 3 => decide (0 ≤ m.toInt)
  | 4 => flt (lo32 m) 0
  | _ => fle 0 (lo32 m)

/-! Branches (R296). -/

/-- The count of a branch target in a ring of `size` words, when it lies in the branch window: the window runs from the
retire pointer up to and including the tail. -/
def RingPos.target (r : RingPos) (size : Nat) (off : Int) : Option W32 :=
  let win := (r.tail - r.retire).toNat
  let d := (r.pc + BitVec.ofInt 32 off - r.retire).toNat
  let at' := (((r.pc - r.retire).toNat : Int) + off).toNat
  let wrapped := ((((r.pc - r.retire).toNat : Int) + off) % (max 1 size : Nat)).toNat
  if d ≤ win ∧ d = at' then some (r.retire + BitVec.ofNat 32 d)
  else if wrapped ≤ win then some (r.retire + BitVec.ofNat 32 wrapped)
  else none

/-- What an instruction does to its thread's clause: done, waits (its thread does not go on), or stopped by a fault. -/
inductive Next where
  | done | wait | stop
  deriving DecidableEq, Repr

/-- Take or fault a branch: the redirection takes effect at step 7 (R287). -/
def State.branch (s : State) (t : ThreadId) (p : PartId) (slot : Nat) (off : Int) : State × Next :=
  match s.threadRing t with
  | none => (s, .done)
  | some r =>
    match s.rings[r].target (s.ringGeom r).2 off with
    | none => (s.threadFault t p 16 slot, .stop)
    | some n => (s.onThread t (fun h => { h with cl := { h.cl with redirect := some n.toNat } }), .done)

/-! Remote requests. -/

/-- How many requests a core or a control core has outstanding. -/
def State.outstandingOf (s : State) (f : RemReq → Bool) : Nat := (s.fab.outstanding.filter f).length

/-- May a thread send a remote request (R570)? -/
def State.threadMaySend (s : State) (t : ThreadId) : Bool :=
  decide (s.fab.outstanding.length < 2048) &&
    decide (s.outstandingOf (fun r => decide (r.thread = t.val)) < (if t.val < 64 then 24 else 8))

/-- Send a request that awaits an answer: it is kept as outstanding under a new tag. `m` gives its message. -/
def State.sendReq (s : State) (r : RemReq) (aux : Nat) (len : Nat) (data : List Byte) : State :=
  let tag := s.fab.nextTag
  let s1 := s.onFab (fun f =>
    { f with nextTag := f.nextTag + 1, outstanding := f.outstanding ++ [{ r with tag := tag, tick := s.tick }] })
  s1.sendMsg { s1.mkMsg r.type.toNat r.part r.dev tag.toNat r.addr.toNat aux data with len := BitVec.ofNat 8 len }

/-- Send a thread's request and wait for its answer. `dst` is the register of the result, plus 64 when it is 64 bits
wide. -/
def State.threadReq (s : State) (t : ThreadId) (p : PartId) (type addr dst aux len : Nat) (data : List Byte) :
    State × Next :=
  if s.threadMaySend t = false then (s, .wait)
  else
    let tag := s.fab.nextTag
    let r : RemReq :=
      { tag := tag, type := BitVec.ofNat 8 type, part := p.val, thread := t.val, core := 64, dev := gaDev addr,
        tick := 0, addr := BitVec.ofNat 64 addr, dst := dst, ticket := 0 }
    ((s.sendReq r aux len data).onThread t (fun h => { h with wait := .remote tag }), .wait)

/-! Loads, stores and atomics. -/

/-- A private address of `n` bytes that is aligned and lies below 0x4_0000 (R302). -/
def privOk (a n : Nat) : Bool := decide (a % n = 0) && decide (a + n ≤ 0x40000)

/-- The address of an access sa + imm14. -/
def effAddr (a : W64) (i : BitVec 14) : Nat := (a + i.signExtend 64).toNat

/-- The cause of the address fault of a thread's global access of `n` bytes, if any (R303, Table 19-3). -/
def State.accessCause (s : State) (p : Nat) (a n : Nat) (r : Right) : Option Nat :=
  if gaRsv a ≠ 0 then some 1
  else if s.devOk (gaDev a) = false then some 6
  else if tierOf (gaOff a) = .unmapped ∨ a % n ≠ 0 then some 2
  else s.addrCause p a (a + n - 1) r false

/-- ldg (R303). An access to local arrays that are not live is performed: R237 names chain, BAR2 and dictionary requests
only (notes/assumptions/51.md). -/
def State.runLdg (s : State) (t : ThreadId) (p : PartId) (d : SReg) (a : Nat) : State × Next :=
  match s.accessCause p.val a 8 .read with
  | some c => (s.threadAccessFault t p 1 c a, .stop)
  | none =>
    if s.isLocal a then
      let s1 := s.checkRead (gaOff a) 8
      if s1.anyPoison (gaOff a) 8 then (s1.threadAccessFault t p 2 1 a, .stop)
      else ((s1.setS t d (BitVec.ofNat 64 (s1.readWord (gaOff a) 8))).countLines (askerOf t) (gaOff a) 8, .done)
    else s.threadReq t p 0x01 a (d.val + 64) 0 8 []

/-- stg (R303): all eight bytes of a word. -/
def State.runStg (s : State) (t : ThreadId) (p : PartId) (d : SReg) (a : Nat) : State × Next :=
  match s.accessCause p.val a 8 .write with
  | some c => (s.threadAccessFault t p 1 c a, .stop)
  | none =>
    let bs := leBytes 8 ((s.threads[t].sget d).toNat)
    if s.isLocal a then (s.storeWrite (askerOf t) (wbytes (gaOff a) bs), .done)
    else s.threadReq t p 0x02 a 0 0xFF 8 bs

/-- atom (R216, R303): CAS compares with sd before the write; the old value goes to sd. A 32-bit old value is
zero-extended (notes/assumptions/24.md). -/
def State.runAtom (s : State) (t : ThreadId) (p : PartId) (o : AtomOp) (wide : Bool) (d a b : SReg) : State × Next :=
  let h := s.threads[t]
  let addr := (h.sget a).toNat
  let w := if wide then 64 else 32
  match s.accessCause p.val addr (w / 8) .atomic with
  | some c => (s.threadAccessFault t p 1 c addr, .stop)
  | none =>
    if s.isLocal addr then
      let s1 := s.checkRead (gaOff addr) (w / 8)
      if s1.anyPoison (gaOff addr) (w / 8) then (s1.threadAccessFault t p 2 2 addr, .stop)
      else
        let r := s1.atomLocal (askerOf t) o.code w (gaOff addr) (h.sget b).toNat (h.sget d).toNat
        (r.2.setS t d (BitVec.ofNat 64 r.1), .done)
    else
      s.threadReq t p 0x05 addr (d.val + (if wide then 64 else 0))
        (o.code + 16 * b2n wide + 2 ^ 64 * (h.sget b).toNat + 2 ^ 128 * (h.sget d).toNat) 0 []

/-- The offset of descriptor `i` of partition `p`. -/
def descOff (p i : Nat) : Nat := descBase + p * 0x40000 + i * 64

/-- Does an operand field name descriptor `i`? -/
def namesDesc (o i : Nat) : Bool := decide (opndKind o = 1) && decide (bits o 11 0 = i)

/-- Does a verb of partition `p` that has been pushed and not yet recorded name descriptor `i` (R264)? -/
def State.descBusy (s : State) (p i : Nat) : Bool :=
  (List.finRange 64).any (fun c => s.cores[c].queue.any (fun e =>
    match e with
    | .verb v => decide (v.part = p) && decide (v.stage = .queued) &&
        (List.range 4).any (fun f => namesDesc (slotOpnd v.slot f) i)
    | .stream _ => false))

/-- dput and dget (R302, R304, R264). -/
def State.runDesc (s : State) (t : ThreadId) (p : PartId) (get : Bool) (a b : SReg) (slot : Nat) : State × Next :=
  let h := s.threads[t]
  let i := (h.sget a).toNat
  let q := (h.sget b).toNat
  if 4096 ≤ i then (s.threadFault t p 18 slot, .stop)
  else if privOk q 64 = false then (s.threadFault t p 17 slot, .stop)
  else if s.descBusy p.val i then (s, .wait)
  else if get then
    (s.onThread t (fun h => { h with priv := h.priv.writeN q (s.readMem (descOff p.val i) 64) }), .done)
  else (s.onStore (fun m => { m with mem := m.mem.writeN (descOff p.val i) (h.priv.readN q 64) }), .done)

/-! Queues. -/

/-- The thread that pushed a queue entry. -/
def QEnt.thread : QEnt → Nat
  | .verb v => v.thread
  | .stream m => m.thread

/-- Every verb of a core: queued, running, retiring and preempted. -/
def CoreSt.verbs (c : CoreSt) : List Verb :=
  c.queue.filterMap (fun e => match e with | .verb v => some v | .stream _ => none) ++
    c.active.toList ++ c.retiring ++ c.pre.toList

/-- Has a thread pushed a verb or an address-stream op that has neither retired nor been abandoned? -/
def State.threadBusy (s : State) (t : ThreadId) : Bool :=
  (List.finRange 64).any (fun c =>
    s.cores[c].queue.any (fun e => decide (e.thread = t.val)) || s.cores[c].verbs.any (fun v => decide (v.thread = t.val)))

/-- Entries of an engine queue in use (R327). A preempted verb has left the queue. -/
def CoreSt.used (c : CoreSt) : Nat := c.queue.length

/-- Is partition `p` in replayable mode (R641)? -/
def State.replay (s : State) (p : Nat) : Bool := decide (s.act (K.replayEnable p) = 1)
/-- Does it replay the mesh log (R597, R599)? -/
def State.meshReplay (s : State) (p : Nat) : Bool := s.replay p && decide (s.act (K.meshLogMode p) = 2)
/-- Does it record it (R597)? -/
def State.meshRecord (s : State) (p : Nat) : Bool := s.replay p && decide (s.act (K.meshLogMode p) = 1)

/-! Legality and execution. -/

/-- The cause for which an instruction is not legal for a thread (R305, R307 to R309), if any. -/
def State.ctlCause (s : State) (t : ThreadId) (p : PartId) (o : CtlOp) : Option Nat :=
  if t.val < 64 then
    match o with
    | .br pr _ _ => if pr = 0 then none else some 7
    | .bmc _ _ _ | .win _ | .lset _ _ | .ldbnz _ _ | .fence => none
    | .wset core _ _ _ v => if v = false then some 7 else if core ≠ 0 then some 6 else none
    | _ => some 7
  else
    match o with
    | .lset _ _ | .ldbnz _ _ => some 7
    | .wset core _ _ _ _ =>
      if s.auto p.val then some 7 else if bit (s.coreMask p.val) core.val then none else some 9
    | _ => none

/-- rdsr. -/
def State.readSr (s : State) (t : ThreadId) (p : PartId) (sel : Fin 4) : W64 :=
  match sel with
  | 0 => BitVec.ofNat 64 p.val
  | 1 => BitVec.ofNat 64 s.ownDev
  | 2 => BitVec.ofNat 64 (t.val - 64)
  | 3 => BitVec.ofNat 64 (s.coreMask p.val)

/-- Perform one instruction of thread `t` of partition `p` (R301). `imm` is the clause's immediate and `slot` the slot
index a thread fault names. -/
def State.runCtl (s : State) (t : ThreadId) (p : PartId) (imm : W64) (slot : Nat) (o : CtlOp) : State × Next :=
  let h := s.threads[t]
  match o with
  | .alu op d a b => (s.setS t d (aluVal op (h.sget a) (h.sget b)), .done)
  | .imm op d a i => (s.setS t d (immVal op (h.sget a) i), .done)
  | .shi op d a n => (s.setS t d (shiVal op (h.sget a) n), .done)
  | .limm d => (s.setS t d imm, .done)
  | .flt op d a b => (s.setS t d (fltVal op (h.sget a) (h.sget b)), .done)
  | .cmp pd cc a b => (s.setP t pd (cmpVal cc.val (h.sget a) (h.sget b)), .done)
  | .cmpi pd cc a i => (s.setP t pd (cmpVal cc.val (h.sget a) (i.signExtend 64)), .done)
  | .prd op d a b => (s.setP t d (prdVal op (h.pget a) (h.pget b)), .done)
  | .sel d a b q => (s.setS t d (if h.pget q then h.sget a else h.sget b), .done)
  | .ldp d a i =>
    let x := effAddr (h.sget a) i
    if privOk x 8 then (s.setS t d (BitVec.ofNat 64 (ofLe (h.priv.readN x 8))), .done)
    else (s.threadFault t p 17 slot, .stop)
  | .stp d a i =>
    let x := effAddr (h.sget a) i
    if privOk x 8 then (s.onThread t (fun h => { h with priv := h.priv.writeN x (leBytes 8 (h.sget d).toNat) }), .done)
    else (s.threadFault t p 17 slot, .stop)
  | .ldg d a i => s.runLdg t p d (effAddr (h.sget a) i)
  | .stg d a i => s.runStg t p d (effAddr (h.sget a) i)
  | .atom op wide d a b => s.runAtom t p op wide d a b
  | .br q neg off => if h.pget q != neg then s.branch t p slot off.toInt else (s, .done)
  | .bmc k cc off =>
    if h.pend[k] ≠ 0 then (s.onThread t (fun h => { h with wait := .memo k none }), .wait)
    else if memoCond cc.val h.m[k] then s.branch t p slot off.toInt else (s, .done)
  | .win u => (s.onThread t (fun h => { h with cl := { h.cl with mark := some (!u) } }), .done)
  | .wset core w f r v =>
    let c : CoreId := if h' : t.val < 64 then ⟨t.val, h'⟩ else core
    let x := if v then imm else h.sget r
    if h' : f.val < 16 then
      (s.onCore c (fun k => { k with walkers := vmod k.walkers w (fun y => vset y ⟨f.val, h'⟩ x) }), .done)
    else (s, .done)
  | .dput a b => s.runDesc t p false a b slot
  | .dget a b => s.runDesc t p true a b slot
  | .qroom d a =>
    let c : CoreId := cid ((h.sget a).toNat % 64)
    let room := if s.replay p.val then 16 else 16 - s.cores[c].used
    (s.setS t d (BitVec.ofNat 64 room), .done)
  | .fence => if s.threadBusy t then (s.onThread t (fun h => { h with wait := .fence }), .wait) else (s, .done)
  | .mfm d k =>
    if h.pend[k] ≠ 0 then (s.onThread t (fun h => { h with wait := .memo k none }), .wait) else (s.setS t d h.m[k], .done)
  | .rdsr d sel => (s.setS t d (s.readSr t p sel), .done)
  | .lset k v => (s.onThread t (fun h => { h with l := vset h.l k v }), .done)
  | .ldbnz k off =>
    let v := h.l[k] - 1
    if v = 0 then (s.onThread t (fun h => { h with l := vset h.l k v }), .done)
    else
      match s.branch t p slot off.toInt with
      | (s1, .done) => (s1.onThread t (fun h => { h with l := vset h.l k v }), .done)
      | r => r

/-- May thread `t` execute an instruction of its own now: it may step and waits for nothing? -/
def State.ready (s : State) (t : ThreadId) : Option PartId :=
  match s.threadPart t with
  | none => none
  | some p => if s.threadGo t p ∧ s.threads[t].wait = .none then some p else none

/-- The command of one instruction: performed when its thread may step, else nothing happens (notes/assumptions/1.md).
An instruction that is not legal for the thread stops it as a malformed clause does (R311, causes 6, 7 and 9). -/
def State.insn (s : State) (t : ThreadId) (imm : W64) (o : CtlOp) : State :=
  match s.ready t with
  | none => s
  | some p =>
    match s.ctlCause t p o with
    | some c => s.threadFault t p c 1
    | none =>
      if o.wf then
        (s.runCtl t p imm 1 o).1.onThread t (fun h =>
          match h.wait with
          | .memo k none => if h.cl.active then h else { h with wait := .memo k (some (encodeCtl o)) }
          | _ => h)
      else s.threadFault t p 6 1

end Sys2Proof.Machine
end

