-- ==== Sys2Proof/Machine/ClauseDecode.lean ====
section
/-!
DEFINITION. Decoding a clause (R274 to R285, R307 to R309, R460 to R464): its slots, and the check of every cause 1 to
15 of Table 8-13. The spec does not order the causes: the lowest that holds is reported, with the slot that has it
(notes/assumptions/25.md).
-/
namespace Sys2Proof.Machine

/-! Slots. -/

/-- Sizes of the slot kinds in parcels (Table 8-2). -/
def slotParcels : List Nat := [1, 1, 2, 4, 4, 1, 1, 2]

/-- MASK of a header. -/
def hdrMask (h : W32) : Nat := bits h.toNat 27 20
/-- LENGTH of a header. -/
def hdrLen (h : W32) : Nat := bits h.toNat 19 16
/-- The words that a thread fetches for a clause: LENGTH, or the header's word alone when LENGTH is none of 1 to 9
(notes/assumptions/25.md). -/
def hdrWords (h : W32) : Nat := if 1 ≤ hdrLen h ∧ hdrLen h ≤ 9 then hdrLen h else 1
/-- Parcels of the slots below mask bit `k`, the header included. -/
def slotAt (mask k : Nat) : Nat :=
  1 + ((List.range k).map (fun j => if bit mask j then at! 0 slotParcels j else 0)).foldl (· + ·) 0
/-- Parcels of header and slots together. -/
def parcelsOf (mask : Nat) : Nat := slotAt mask 8
/-- The length that R276 asks for, in words. -/
def lengthOf (mask : Nat) : Nat := ceilDiv (32 * parcelsOf mask) 64

/-- The value of `n` parcels from `i`, the first the lowest. -/
def parcelVal (ps : List W32) (i : Nat) : Nat → Nat
  | 0 => 0
  | n + 1 => (at! 0 ps i).toNat + 2 ^ 32 * parcelVal ps (i + 1) n

/-- The value of slot kind `k`, when it is present. -/
def slotVal (ps : List W32) (k : Nat) : Option Nat :=
  let mask := hdrMask (at! 0 ps 0)
  if bit mask k then some (parcelVal ps (slotAt mask k) (at! 0 slotParcels k)) else none

/-- Control op A (0) or B (1). -/
def ctlSlot (ps : List W32) (i : Nat) : Option W32 := (slotVal ps i).map (BitVec.ofNat 32)
/-- The immediate. -/
def immSlot (ps : List W32) : Option W64 := (slotVal ps 2).map (BitVec.ofNat 64)
/-- Verb 0 or 1. -/
def verbSlot (ps : List W32) (i : Nat) : Option (BitVec 128) := (slotVal ps (3 + i)).map (BitVec.ofNat 128)
/-- The adverb. -/
def advSlot (ps : List W32) : Option W32 := (slotVal ps 5).map (BitVec.ofNat 32)
/-- The conjunction op. -/
def conjSlot (ps : List W32) : Option W32 := (slotVal ps 6).map (BitVec.ofNat 32)
/-- The address-stream op. -/
def streamSlot (ps : List W32) : Option W64 := (slotVal ps 7).map (BitVec.ofNat 64)
/-- The verbs present, with their numbers. -/
def verbSlots (ps : List W32) : List (Nat × BitVec 128) :=
  [0, 1].filterMap (fun i => (verbSlot ps i).map (fun v => (i, v)))

/-! Fields. -/

/-- OP of a conjunction op: 1 WAIT_GE, 2 SIGNAL_AT_RETIRE, 3 SIGNAL_NOW. -/
def conjOp (c : W32) : Nat := bits c.toNat 3 0
/-- NSRC. -/
def conjNsrc (c : W32) : Bool := c.getLsbD 4
/-- NREG. -/
def conjNreg (c : W32) : SReg := Fin.ofNat 64 (bits c.toNat 10 5)
/-- VSRC. -/
def conjVsrc (c : W32) : Bool := c.getLsbD 11
/-- VALUE. -/
def conjValue (c : W32) : Nat := bits c.toNat 31 16

/-- Cause 12: a reserved value or field of the conjunction op (Table 8-8). -/
def conjFieldsOk (c : W32) : Bool :=
  decide (1 ≤ conjOp c) && decide (conjOp c ≤ 3) && (!conjNsrc c || decide (conjNreg c = 0)) &&
    decide (bits c.toNat 15 12 = 0) && (!conjVsrc c || decide (bits c.toNat 31 22 = 0))

/-- CORE of an address-stream op (Table 8-9). -/
def asCore (v : W64) : Nat := bits v.toNat 5 0
/-- MODE. -/
def asMode (v : W64) : Nat := bits v.toNat 7 6
/-- RB. -/
def asRb (v : W64) : SReg := Fin.ofNat 64 (bits v.toNat 13 8)
/-- RS. -/
def asRs (v : W64) : SReg := Fin.ofNat 64 (bits v.toNat 19 14)
/-- ISIZE. -/
def asIsize (v : W64) : Nat := bits v.toNat 21 20
/-- SHIFT. -/
def asShift (v : W64) : Nat := bits v.toNat 25 22
/-- COUNT. -/
def asCount (v : W64) : Nat := bits v.toNat 63 32

/-- Cause 13: a reserved value or field of the address-stream op (Table 8-9). -/
def streamFieldsOk (v : W64) : Bool :=
  decide (asMode v < 3) && (decide (asMode v ≠ 0) || decide (asRs v = 0)) &&
    (if asMode v = 2 then decide (asIsize v < 3) else decide (asIsize v = 0) && decide (asShift v = 0)) &&
    decide (bits v.toNat 31 26 = 0) &&
    (if asMode v = 0 then decide (asCount v = 1) else decide (1 ≤ asCount v) && decide (asCount v ≤ 16777216))

/-! Verb slots. -/

/-- The adverb that a verb runs with: zero when USE_ADVERB is 0 (R281). -/
def advFor (v : BitVec 128) (adv : Option W32) : W32 := if slotUseAdv v then adv.getD 0 else 0

/-- Does a verb read the immediate: a broadcast of it, or the k of SOFTMAX_PART? -/
def verbReadsImm (v : BitVec 128) : Bool :=
  (List.range 4).any (fun f => decide (opndKind (slotOpnd v f) = 3) && decide (opndSub (slotOpnd v f) = 3)) ||
    decide (Op.ofCode (slotOp v) = some .softmaxPart)

/-- Is an operand of a kind that the verb's entry accepts, with a legal payload (R462, Tables 8-5 and 8-6)? -/
def opndOk (o : Op) (sel : Nat) (auto : Bool) (f : Nat) (x : Nat) : Bool :=
  payloadOk x && (match termOf x with
    | none => false
    | some t => decide (t ∈ o.accepts sel auto f)) &&
    -- the table of an autonomous GATHER or SCATTER is a pronoun, whose rank is checked at recording
    !(auto && (decide (o = .gather ∧ f = 1) || decide (o = .scatter ∧ f = 0)) && decide (opndKind x ≠ 1))

/-- Does a verb slot broadcast an s register, which only directed mode has (Table 8-6, R308)? -/
def verbReadsS (v : BitVec 128) : Bool :=
  (List.range 4).any (fun f => decide (opndKind (slotOpnd v f) = 3) && decide (opndSub (slotOpnd v f) = 2))

/-- How many scalar operands a verb names (R463). -/
def scalars (v : BitVec 128) : Nat :=
  ((List.range 4).filter (fun f => decide (termOf (slotOpnd v f) = some .scalar))).length

/-- Cause 8: reserved opcode, reserved field, operand kind, two scalars, or a required adverb that is absent. A scalar
that QUANT needs for a destination that is not a block is found out at recording. -/
def verbOk (auto : Bool) (v : BitVec 128) (adv : Option W32) : Bool :=
  match Op.ofCode (slotOp v) with
  | none => false
  | some o =>
    let sel := advSelect (advFor v adv)
    decide (slotBits v 31 30 = 0) && (slotMemoEn v || decide (slotMemoBase v = 0)) &&
      (slotGuard v || slotTry v || decide (slotPreg v = 0)) &&
      (!auto || (decide (slotCore v = 0) && !slotTry v && !slotGuard v && decide (slotPreg v = 0))) &&
      (List.range 4).all (fun f => opndOk o sel auto f (slotOpnd v f)) && decide (scalars v ≤ 1) &&
      (slotUseAdv v || !o.advRequired)

/-- Cause 11 for one verb. -/
def verbAdvOk (v : BitVec 128) (adv : Option W32) : Bool :=
  match Op.ofCode (slotOp v) with
  | none => true
  | some o => !slotUseAdv v || o.advOk (adv.getD 0)

/-- How many summaries a verb delivers. -/
def verbMemos (v : BitVec 128) : Nat :=
  match Op.ofCode (slotOp v) with
  | none => 0
  | some o => o.sumKinds.length

/-- Cause 10 for one verb. -/
def verbMemoOk (v : BitVec 128) : Bool := !slotMemoEn v || decide (slotMemoBase v + verbMemos v ≤ 16)

/-- Cause 15 for one verb. -/
def verbNoneOk (v : BitVec 128) : Bool :=
  (List.range 4).all (fun f => decide (opndKind (slotOpnd v f) ≠ 0) || decide (slotOpnd v f = 0))

/-! The checks. -/

/-- The first slot kind for which a check fails, as a slot index: mask bit + 1. -/
def firstBad (l : List (Nat × Bool)) : Option Nat := (l.find? (fun e => !e.2)).map (fun e => e.1 + 1)

/-- The checks of the verbs present, by mask bit. -/
def forVerbs (ps : List W32) (f : BitVec 128 → Bool) : List (Nat × Bool) := (verbSlots ps).map (fun e => (3 + e.1, f e.2))

/-- The control ops present, by mask bit, with the instruction each word is. -/
def ctlSlots (ps : List W32) : List (Nat × Option CtlOp) :=
  [0, 1].filterMap (fun i => (ctlSlot ps i).map (fun w => (i, decodeCtl w)))

/-- Cause 5: a combination that R285 forbids; the slot at fault. -/
def comboBad (ps : List W32) : Option Nat :=
  let vs := verbSlots ps
  if (verbSlot ps 1).isSome ∧ (verbSlot ps 0).isNone then some 5
  else if (advSlot ps).isSome ≠ vs.any (fun e => slotUseAdv e.2) then some 6
  else if (conjSlot ps).any (fun c => decide (conjOp c = 2)) ∧ vs.isEmpty then some 7
  else if ((ctlSlots ps).filter (fun e => e.2.any CtlOp.isBranch)).length > 1 then some 2
  else none

/-- Cause 7 of slot kinds: what a core's clauses or an autonomous control core's may not hold (R308, R309). -/
def State.kindBad (s : State) (t : ThreadId) (p : PartId) (ps : List W32) : List (Nat × Bool) :=
  (ctlSlots ps).map (fun e => (e.1, match e.2 with
      | some o => decide (s.ctlCause t p o ≠ some 7)
      | none => true)) ++
    (if 64 ≤ t.val then (if s.auto p.val then forVerbs ps (fun _ => false) else []) else forVerbs ps (fun v => !verbReadsS v)) ++
    (match conjSlot ps with
      | some c => [(6, decide (64 ≤ t.val) || (conjNsrc c && !conjVsrc c))]
      | none => []) ++
    (match streamSlot ps with
      | some _ => [(7, decide (64 ≤ t.val) && !s.auto p.val)]
      | none => [])

/-- Does a slot read the immediate when none is present (cause 14)? By mask bit. -/
def immChecks (ps : List W32) : List (Nat × Bool) :=
  if (immSlot ps).isSome then []
  else
    (ctlSlots ps).map (fun e => (e.1, !e.2.any CtlOp.readsImm)) ++ forVerbs ps (fun v => !verbReadsImm v) ++
      (match conjSlot ps with
        | some c => [(6, !conjNsrc c)]
        | none => [])

/-- Every check of step 1: the lowest cause that holds, with its slot index (Table 8-13). -/
def State.clauseFault (s : State) (t : ThreadId) (p : PartId) (ps : List W32) (words : Nat) : Option (Nat × Nat) :=
  let h := at! 0 ps 0
  let mask := hdrMask h
  let auto := decide (t.val < 64)
  let mine (c : Nat) := bit (s.coreMask p.val) c
  if bits h.toNat 31 28 ≠ 1 then some (1, 0)
  else if bits h.toNat 15 0 ≠ 0 then some (2, 0)
  else if hdrLen h ≠ lengthOf mask ∨ words ≠ hdrLen h then some (3, 0)
  else if parcelsOf mask % 2 = 1 ∧ at! 0 ps (parcelsOf mask) ≠ 0 then some (4, 0)
  else match comboBad ps with
  | some k => some (5, k)
  | none =>
  match firstBad ((ctlSlots ps).map (fun e => (e.1, match e.2 with
      | some o => decide (s.ctlCause t p o ≠ some 6)
      | none => false))) with
  | some k => some (6, k)
  | none =>
  match firstBad (s.kindBad t p ps) with
  | some k => some (7, k)
  | none =>
  match firstBad (forVerbs ps (fun v => verbOk auto v (advSlot ps))) with
  | some k => some (8, k)
  | none =>
  match firstBad ((ctlSlots ps).map (fun e => (e.1, match e.2 with
        | some o => decide (s.ctlCause t p o ≠ some 9)
        | none => true)) ++
      (if auto then [] else forVerbs ps (fun v => mine (slotCore v)) ++
        (match streamSlot ps with
          | some a => [(7, mine (asCore a))]
          | none => []))) with
  | some k => some (9, k)
  | none =>
  match firstBad (forVerbs ps verbMemoOk) with
  | some k => some (10, k)
  | none =>
  if !(forVerbs ps (fun v => verbAdvOk v (advSlot ps))).all (fun e => e.2) then some (11, 6)
  else if (conjSlot ps).any (fun c => !conjFieldsOk c) then some (12, 7)
  else if (streamSlot ps).any (fun v => !streamFieldsOk v) then some (13, 8)
  else match firstBad (immChecks ps) with
  | some k => some (14, k)
  | none =>
  match firstBad (forVerbs ps verbNoneOk) with
  | some k => some (15, k)
  | none => none

end Sys2Proof.Machine
end

