-- ==== Sys2Proof/Machine/Functions.lean ====
section
/-!
DEFINITION. The Function stage (chapter 12): the special values and exact cases of Table 12-2, and outside them the fixed
function of the part, which the spec binds but does not state (R432, notes/assumptions/6.md). Each result is free within
the window that R434 gives around the exact value, within one unit of the narrow formats (R437), in the range that Table
12-2 states, and, where R436 asks for it, in order. The exact value is formed to 320 fraction bits.
-/
namespace Sys2Proof.Machine

/-- +1.0 as binary32. -/
def one32 : W32 := 0x3F800000
/-- −1.0. -/
def mone32 : W32 := 0xBF800000
/-- An infinity. -/
def inf32 (neg : Bool) : W32 := if neg then 0xFF800000 else 0x7F800000
/-- A zero. -/
def zero32 (neg : Bool) : W32 := if neg then 0x80000000 else 0

/-! Numbers with 320 fraction bits. -/

/-- 1. -/
abbrev fxOne : Int := 2 ^ 320
/-- π. -/
def fxPi : Int := 0x3243f6a8885a308d313198a2e03707344a4093822299f31d0082efa98ec4e6c89452821e638d01377
/-- ln 2. -/
def fxLn2 : Int := 0xb17217f7d1cf79abc9e3b39803f2f6af40f343267298b62d8a0d175b8baafa2be7b876206debac98
/-- The product. -/
def fxMul (a b : Int) : Int := a * b / fxOne
/-- The quotient. -/
def fxDiv (a b : Int) : Int := a * fxOne / b
/-- A finite value, exact for every binary32. -/
def fxOf : Val → Int
  | .fin neg m e => (if neg then -1 else 1) * ((m * 2 ^ (e + 320).toNat : Nat) : Int)
  | _ => 0
/-- Back to a value. -/
def fxVal (i : Int) : Val := .fin (decide (i < 0)) i.natAbs (-320)
/-- The square root of a number that is not negative. -/
def fxSqrt (a : Int) : Int := isqrt (a.natAbs * 2 ^ 320)

/-- Σ of `n` terms from term `k` on, where `next k t` makes the term after `t`. -/
def fxSum (next : Nat → Int → Int) : Nat → Nat → Int → Int
  | 0, _, _ => 0
  | n + 1, k, t => t + fxSum next n (k + 1) (next k t)

/-- e^t for 0 ≤ t ≤ 1. -/
def fxExpSmall (t : Int) : Int := fxSum (fun k a => fxMul a t / (k + 1 : Nat)) 80 0 fxOne
/-- e^−t for t ≥ 0. -/
def fxExpNeg (t : Int) : Int :=
  let k := (t / fxLn2).toNat
  if 320 < k then 0 else fxDiv fxOne (fxExpSmall (t % fxLn2)) / 2 ^ k
/-- ln z for 1 ≤ z ≤ 2. -/
def fxLn (z : Int) : Int :=
  let w := fxDiv (z - fxOne) (z + fxOne)
  let w2 := fxMul w w
  2 * ((List.range 110).foldl (fun (p : Int × Int) (k : Nat) =>
    (p.1 + p.2 / ((2 * k + 1 : Nat) : Int), fxMul p.2 w2)) (0, w)).1
/-- sin θ and cos θ for |θ| ≤ 2π. -/
def fxSin (t : Int) : Int := let t2 := fxMul t t; fxSum (fun k a => -(fxMul a t2 / ((2 * k + 2) * (2 * k + 3) : Nat))) 70 0 t
/-- See `fxSin`. -/
def fxCos (t : Int) : Int := let t2 := fxMul t t; fxSum (fun k a => -(fxMul a t2 / ((2 * k + 1) * (2 * k + 2) : Nat))) 70 0 fxOne
/-- erf x for x ≥ 0. -/
def fxErf (x : Int) : Int :=
  if 12 * fxOne < x then fxOne
  else
    let x2 := fxMul x x
    let s := fxSum (fun k a => 2 * fxMul a x2 / (2 * k + 3 : Nat)) 900 0 x
    fxMul (fxDiv (2 * fxExpNeg x2) (fxSqrt fxPi)) s
/-- tanh x for x ≥ 0. -/
def fxTanh (x : Int) : Int :=
  let q := fxExpNeg (2 * x)
  fxDiv (fxOne - q) (fxOne + q)

/-! Windows. -/

/-- A binary32 pattern on a line: zero at zero, one step to the next value. -/
def ordOf (x : W32) : Int := if x.getLsbD 31 then -(x.toNat % 2 ^ 31 : Nat) else (x.toNat : Int)
/-- Back from the line; zero is +0. -/
def ofOrd (i : Int) : W32 := if i < 0 then BitVec.ofNat 32 (2 ^ 31 + i.natAbs) else BitVec.ofNat 32 i.natAbs

/-- ⌊log₂ |v|⌋. -/
def Val.lead : Val → Int
  | .fin _ m e => (m.log2 : Int) + e
  | _ => 0

/-- The larger of two values. -/
def Val.max (a b : Val) : Val := if (a.cmp b).any (fun d => decide (d < 0)) then b else a

/-- max(U × ulp, A) where the leading bit has weight 2^l (R434), less one part in 2^30 for what the fraction bits leave
out; `a` is log₂ A. -/
def slack (u : Nat) (a l : Int) : Val :=
  (Val.max (.fin false u (max l (-126) - 23)) (.fin false 1 a)).mul (.fin false (2 ^ 30 - 1) (-30))

/-- The binary32 values that R434 allows around a positive exact value, on the line. The lower end does not fall where the
unit in the last place grows, which R436 needs. -/
def windowPos (u : Nat) (a : Int) (v : Val) : Int × Int :=
  let l := v.lead
  let lo := Val.max (v.add (slack u a l).neg) ((Val.fin false 1 l).add (slack u a (l - 1)).neg)
  (ordOf (BitVec.ofNat 32 (fp32.encode 3 0 true lo).1), ordOf (BitVec.ofNat 32 (fp32.encode 4 0 true (v.add (slack u a l))).1))

/-- binary32 with fewer mantissa bits. -/
def shortFmt (m : Nat) : FFmt :=
  { ebits := 8, mbits := m, bias := 127, hasInf := true, maxE := 254, maxM := 2 ^ m - 1, nan := 0x7FC00000 / 2 ^ (23 - m) }

/-- The neighbours of a positive exact value in the narrow formats whose normal range holds it (R437), on the line. A value
that lies on one is taken as just below it. -/
def narrowPos (v : Val) : Int × Int :=
  let l := v.lead
  if l < -126 then (-0x7FFFFF, 0x800000)
  else
    let m := if -14 ≤ l ∧ l < 16 then 10 else 7
    let c := ((shortFmt m).encode 3 0 true v).1
    (((c - 1) * 2 ^ (23 - m) : Nat), (c * 2 ^ (23 - m) : Nat))

/-- Both, for a value of either sign. -/
def windowOf (u : Nat) (a : Int) (v : Val) : Int × Int :=
  match v with
  | .fin neg m e =>
    if m = 0 then (-0x7FFFFF, 0x7FFFFF)
    else
      let w := windowPos u a (.fin false m e)
      let n := narrowPos (.fin false m e)
      let lo := max w.1 n.1
      let hi := min w.2 n.2
      if neg then (-hi, -lo) else (lo, hi)
  | _ => (0, 0)

/-- The free result of function `fn` at `x` within a window. -/
def freeIn (fn : Nat) (x : W32) (w : Int × Int) : W32 := ofOrd (clampInt w.1 w.2 (ordOf (Config.fn fn x)))

/-- A free function of `n` bits that never falls: each bit of `x` takes one side of a free cut of the range left. -/
def cutWalk (fn : Nat) : Nat → Nat → Nat → Nat → Nat → Nat
  | 0, _, key, lo, hi => lo + Config.cut fn key % (hi - lo + 1)
  | n + 1, x, key, lo, hi =>
    let c := lo + Config.cut fn key % (hi - lo + 1)
    if x.testBit n then cutWalk fn n x (2 * key + 1) c hi else cutWalk fn n x (2 * key) lo c

/-- The free result of a function that never falls (R436), within a window. -/
def freeUp (fn : Nat) (at' : Int) (w : Int × Int) : W32 :=
  ofOrd (clampInt w.1 w.2 ((cutWalk fn 32 (at' + 2 ^ 31).toNat 1 0 (2 ^ 32 - 1) : Nat) - 2 ^ 31))

/-- The common part of two windows. -/
def meet (w v : Int × Int) : Int × Int := (max w.1 v.1, min w.2 v.2)

/-- n when the finite positive value is exactly 2^n. -/
def exactLog2 (v : Val) : Option Int :=
  match v with
  | .fin false m e => if m = 2 ^ m.log2 ∧ m ≠ 0 then some ((m.log2 : Int) + e) else none
  | _ => none

/-- The integer of a finite value, when it is one. -/
def exactInt (v : Val) : Option Int :=
  match v with
  | .fin neg m e =>
    if m = 0 then some 0
    else if 0 ≤ e then some (if neg then -(m * 2 ^ e.toNat : Nat) else (m * 2 ^ e.toNat : Nat))
    else if m % 2 ^ (-e).toNat = 0 then
      some (if neg then -((m / 2 ^ (-e).toNat : Nat) : Int) else (m / 2 ^ (-e).toNat : Nat))
    else none
  | _ => none

/-- 2^x of a finite value, exact to the fraction bits. -/
def exp2Of (v : Val) : Val :=
  let x := fxOf v
  .fin false (fxExpSmall (fxMul (x % fxOne) fxLn2)).natAbs (x / fxOne - 320)

/-- The binary32 of 2^n on the line, with the limits of exp2 at both ends. -/
def exp2Ord (n : Int) : Int := if n < -149 then 0 else if 127 < n then 0x7F7FFFFF else ordOf (f32 (.fin false 1 n))

/-- exp2 (FN 1). -/
def fnExp2 (x : W32) : W32 :=
  match fval x with
  | .nan => qnan
  | .inf neg => if neg then 0 else inf32 false
  | v =>
    if (v.cmp (.fin false 128 0)).any (fun d => decide (0 ≤ d)) then inf32 false
    else if (v.cmp (.fin true 150 0)).any (fun d => decide (d ≤ 0)) then 0
    else
      let n := fxOf v / fxOne
      if exactInt v = some n ∧ -149 ≤ n then f32 (.fin false 1 n)
      else freeUp 1 (ordOf x) (meet (windowOf 2 (-149) (exp2Of v)) (exp2Ord n, exp2Ord (n + 1)))

/-- log2 (FN 2). -/
def fnLog2 (x : W32) : W32 :=
  match fval x with
  | .nan => qnan
  | .inf neg => if neg then qnan else inf32 false
  | .fin neg m e =>
    if m = 0 then inf32 true
    else if neg then qnan
    else match exactLog2 (.fin neg m e) with
      | some n => fofInt n
      | none =>
        let n := (m.log2 : Int) + e
        let f := n * fxOne + fxDiv (fxLn ((m : Int) * fxOne / 2 ^ m.log2)) fxLn2
        freeUp 2 (ordOf x) (meet (windowOf 2 (-24) (fxVal f)) (ordOf (fofInt n), ordOf (fofInt (n + 1))))

/-- Reciprocal (FN 3). A quotient beyond binary32, whose result no rule states, is the largest finite value or an infinity.
-/
def fnRecip (x : W32) : W32 :=
  match fval x with
  | .nan => qnan
  | .inf neg => zero32 neg
  | .fin neg m e =>
    if m = 0 then inf32 neg
    else
      let q := (Val.fin false 1 0).div (.fin neg m e)
      match exactLog2 (.fin false m e) with
      | some n =>
        if n < -127 then
          (if (Config.fn 3 x).getLsbD 0 then inf32 neg else BitVec.ofNat 32 (fp32.largest neg))
        else f32 (.fin neg 1 (-n))
      | none =>
        if 128 ≤ q.lead then
          (if (Config.fn 3 x).getLsbD 0 then inf32 neg else BitVec.ofNat 32 (fp32.largest neg))
        else freeIn 3 x (windowOf 1 (-149) q)

/-- Reciprocal square root (FN 4), which never rises (R436). -/
def fnRsqrt (x : W32) : W32 :=
  match fval x with
  | .nan => qnan
  | .inf neg => if neg then qnan else 0
  | .fin neg m e =>
    if m = 0 then inf32 neg
    else if neg then qnan
    else
      let q := (Val.fin false 1 0).div (Val.sqrt (.fin false m e))
      let near := freeUp 4 (-(ordOf x)) (meet (windowOf 1 (-149) q) (exp2Ord q.lead, exp2Ord (q.lead + 1)))
      match exactLog2 (.fin false m e) with
      | some n => if n % 2 = 0 then f32 (.fin false 1 (-(n / 2))) else near
      | none => near

/-- The magnitude of a binary32 pattern. -/
def magOf (x : W32) : W32 := x &&& 0x7FFFFFFF

/-- 0 to 1.0 on the line. -/
def unitOrds : Int × Int := (0, ordOf one32)

/-- An odd function: `f` at the magnitude of a finite value that is not zero, with its sign; `lim` is the value at +∞. -/
def fnOdd (lim : W32) (f : W32 → W32) (x : W32) : W32 :=
  match fval x with
  | .nan => qnan
  | .inf neg => if lim = qnan then qnan else if neg then lim ^^^ 0x80000000 else lim
  | .fin neg m _ => if m = 0 then x else if neg then f (magOf x) ^^^ 0x80000000 else f (magOf x)

/-- erf (FN 5). -/
def fnErf (x : W32) : W32 :=
  fnOdd one32 (fun y => freeUp 5 (ordOf y) (meet (windowOf 2 (-25) (fxVal (fxErf (fxOf (fval y))))) unitOrds)) x

/-- tanh (FN 6). -/
def fnTanh (x : W32) : W32 :=
  fnOdd one32 (fun y => freeUp 6 (ordOf y) (meet (windowOf 2 (-25) (fxVal (fxTanh (fxOf (fval y))))) unitOrds)) x

/-- Sigmoid (FN 7). -/
def fnSigmoid (x : W32) : W32 :=
  match fval x with
  | .nan => qnan
  | .inf neg => if neg then 0 else one32
  | .fin neg m e =>
    if m = 0 then 0x3F000000
    else
      let q := fxExpNeg (fxOf (.fin false m e))
      let f := fxDiv (if neg then q else fxOne) (fxOne + q)
      freeUp 7 (ordOf x) (meet (windowOf 2 (-25) (fxVal f))
        (if neg then (0, ordOf 0x3F000000) else (ordOf 0x3F000000, ordOf one32)))

/-- x × (1 + g) / 2, where g has the sign of x. -/
def geluOf (v : Val) (g : Int) : Int :=
  let x := fxOf v
  fxMul x (if x < 0 then fxOne - g else fxOne + g) / 2

/-- GELU: special values, and a free result about the exact value `f` elsewhere. -/
def fnGelu (fn : Nat) (f : Val → Int) (x : W32) : W32 :=
  match fval x with
  | .nan => qnan
  | .inf neg => if neg then zero32 true else inf32 false
  | .fin neg m e => if m = 0 then x else freeIn fn x (windowOf 4 (-24) (fxVal (f (.fin neg m e))))

/-- GELU in its erf form (FN 8). -/
def fnGeluErf (x : W32) : W32 := fnGelu 8 (fun v => geluOf v (fxErf (fxDiv (fxOf v.abs) (fxSqrt (2 * fxOne))))) x

/-- GELU in its tanh form (FN 9). -/
def fnGeluTanh (x : W32) : W32 :=
  fnGelu 9 (fun v =>
    let a := fxOf v.abs
    let u := fxMul (fxSqrt (fxDiv (2 * fxOne) fxPi)) (a + fxMul (fxMul a a) a * 44715 / 1000000)
    geluOf v (fxTanh u)) x

/-- Sine (FN 10): the argument is reduced exactly. -/
def fnSine (x : W32) : W32 :=
  fnOdd qnan (fun y => freeIn 10 y (meet (windowOf 2 (-24) (fxVal (fxSin (fxOf (fval y) % (2 * fxPi) - fxPi) * -1)))
    (-ordOf one32, ordOf one32))) x

/-- Cosine (FN 11). -/
def fnCos (x : W32) : W32 :=
  match fval x with
  | .nan => qnan
  | .inf _ => qnan
  | .fin _ m e =>
    if m = 0 then one32
    else freeIn 11 (magOf x)
      (meet (windowOf 2 (-24) (fxVal (fxCos (fxOf (.fin false m e) % (2 * fxPi) - fxPi) * -1))) (-ordOf one32, ordOf one32))

/-- The Function stage (Tables 12-1 and 12-2). Code 0 passes its input. -/
def funcStage (fn : Nat) (x : W32) : W32 :=
  match fn with
  | 1 => fnExp2 x
  | 2 => fnLog2 x
  | 3 => fnRecip x
  | 4 => fnRsqrt x
  | 5 => fnErf x
  | 6 => fnTanh x
  | 7 => fnSigmoid x
  | 8 => fnGeluErf x
  | 9 => fnGeluTanh x
  | 10 => fnSine x
  | 11 => fnCos x
  | _ => x

/-! Phases (R457, R458). -/

/-- θ of a phase. -/
def fxPhase (p : W32) : Int := fxPi * 2 * (p.toNat : Int) / 2 ^ 32

/-- The binary32 values within 2^−24 of an exact one, on the line. -/
def phaseWindow (f : Int) : Int × Int :=
  let d := fxOne / 2 ^ 24 - fxOne / 2 ^ 60
  (ordOf (BitVec.ofNat 32 (fp32.encode 3 0 true (fxVal (f - d))).1), ordOf (BitVec.ofNat 32 (fp32.encode 4 0 true (fxVal (f + d))).1))

/-- cos θ of a phase (R458). -/
def cosPhase (p : W32) : W32 :=
  if p = 0 then one32 else if p = 0x40000000 then 0 else if p = 0x80000000 then mone32 else if p = 0xC0000000 then 0
  else
    let w := phaseWindow (-fxCos (fxPhase p - fxPi))
    ofOrd (clampInt w.1 w.2 (ordOf (Config.cosPhase p)))

/-- sin θ of a phase (R458). -/
def sinPhase (p : W32) : W32 :=
  if p = 0 then 0 else if p = 0x40000000 then one32 else if p = 0x80000000 then 0 else if p = 0xC0000000 then mone32
  else
    let w := phaseWindow (-fxSin (fxPhase p - fxPi))
    ofOrd (clampInt w.1 w.2 (ordOf (Config.sinPhase p)))

end Sys2Proof.Machine
end

