-- ==== Sys2Proof/Machine/Chain.lean ====
section
/-!
DEFINITION. The stages of a chain as functions of values (chapter 10): the chain configuration of Table 10-3, the
operations of Table 10-5 in both internal paths, reductions in their fixed order (Table 10-8), permutation, and emission
with its summaries.
-/
namespace Sys2Proof.Machine

/-! Configuration (Table 10-3). -/

/-- Pack fields, each a value and its lowest bit. -/
def packFields (l : List (Nat × Nat)) : BitVec 384 := BitVec.ofNat 384 (l.foldl (fun a e => a + e.1 * 2 ^ e.2) 0)
/-- A field of a configuration. -/
def cfgBits (c : BitVec 384) (hi lo : Nat) : Nat := bits c.toNat hi lo
/-- INTERNAL: the int32 path. -/
def cfgInt (c : BitVec 384) : Bool := c.getLsbD 28
/-- Is stage `n` bypassed? -/
def cfgBypass (c : BitVec 384) (n : Nat) : Bool := c.getLsbD (15 + n)
/-- ROUND. -/
def cfgRound (c : BitVec 384) : Nat := cfgBits c 298 296
/-- SAT. -/
def cfgSat (c : BitVec 384) : Bool := c.getLsbD 299
/-- QMODE. -/
def cfgQmode (c : BitVec 384) : Nat := cfgBits c 301 300
/-- PRED_ZERO. -/
def cfgPredZero (c : BitVec 384) : Bool := c.getLsbD 321
/-- SPAN. -/
def cfgSpan (c : BitVec 384) : Nat := cfgBits c 375 352

/-- The stages of a verb's entry (R467). `k` tells a scalar SRC_B, `blk` a block destination, `pe` PRED_EN. -/
def Op.stages (o : Op) (sel : Nat) (k blk pe : Bool) : List Nat :=
  match o with
  | .convert | .gather => [1, 2, 9, 10]
  | .quant => if blk && k then [1, 2, 3, 9, 10] else [1, 2, 9, 10]
  | .func => [1, 2] ++ (if bit sel 4 then [3] else []) ++ [4] ++ (if bit sel 5 then [5] else []) ++ [9, 10]
  | .compare | .select => [1, 2, 6, 9, 10]
  | .reduce => [1, 2, 7, 9, 10]
  | .softmax | .softmaxPart => [1, 2, 3, 4, 5, 7, 9, 10]
  | .softmaxFix => if bit sel 0 then [1, 2, 5, 9, 10] else [1, 2, 3, 9, 10]
  | .rmsnorm => [1, 2, 3, 5, 7, 9, 10]
  | .rope => [1, 2, 3, 4, 5, 9, 10]
  | .copy => [1, 10]
  | .fill => (if pe then [1] else []) ++ [3, 9, 10]
  | .permute | .shift | .compress | .expand => [1, 2, 8, 9, 10]
  | .scatter => if bit sel 0 then [1, 2, 10] else [1, 10]
  | .rotate => [1, 2] ++ (if k then [3] else []) ++ [4, 9, 10]
  | .reshard => [1, 2] ++ (if bit sel 0 then [8] else []) ++ [9, 10]
  | _ => [1, 2, 3, 9, 10]

/-- BYPASS. -/
def bypassOf (st : List Nat) : Nat := (List.range 10).foldl (fun a i => a + (if st.contains (i + 1) then 0 else 2 ^ i)) 0

/-- The selector of SRC_B or SRC_C: its stored value, or k when the operand is the scalar. -/
def selOf (v : BitVec 128) (f : Nat) : Nat :=
  match termOf (slotOpnd v f) with
  | some .scalar => 4
  | some .store => f
  | _ => 7

/-- An Arith-A word: operation and selectors at bits 96 to 108. -/
def arithA (op u v w : Nat) : List (Nat × Nat) := [(op, 96), (u, 100), (v, 103), (w, 106)]
/-- An Arith-B word. -/
def arithB (op u v w : Nat) : List (Nat × Nat) := [(op, 160), (u, 164), (v, 167), (w, 170)]

/-- The operation fields of a verb's entry. Fields that an entry does not give are zero, but FN of ROPE, where zero is
reserved, is sine (notes/assumptions/26.md). -/
def Op.fields (o : Op) (v : BitVec 128) (a : W32) (blk : Bool) : List (Nat × Nat) :=
  let sel := advSelect a
  let par := advParam a
  let b := selOf v 2
  let k := decide (termOf (slotOpnd v 2) = some .scalar)
  match o with
  | .add => arithA 1 1 b 7
  | .sub => arithA 2 1 b 7
  | .mul => arithA 3 1 b 7
  | .fma => arithA 4 1 b (selOf v 3)
  | .min => arithA 5 1 b 7
  | .max => arithA 6 1 b 7
  | .abs => arithA 7 1 7 7
  | .neg => arithA 8 1 7 7
  | .ldexp => arithA 10 1 b 7
  | .convert | .gather => []
  | .quant => if blk then (if k then arithA 3 1 4 7 else []) else []
  | .dequant => arithA 3 1 b 7
  | .func => (if bit sel 4 then arithA 3 1 4 7 else []) ++ [(sel % 16, 128)] ++ (if bit sel 5 then arithB 3 0 1 7 else [])
  | .compare => [(sel % 8, 192), (1, 195), (b, 198), (7, 201), (2, 204)]
  | .select => [(sel % 8, 192), (1, 195), (b, 198), (selOf v 3, 201), (1, 204)]
  | .reduce => [(sel % 8, 224), (advAxis a, 227), (0, 229)]
  | .softmax | .softmaxPart => arithA 3 1 4 7 ++ [(1, 128), (1, 227), (1, 229)]
  | .softmaxFix => [(1, 227)]
  | .rmsnorm => [(3, 224), (1, 227), (1, 229)]
  | .rope => [(10, 128), (1, 227)]
  | .copy => []
  | .fill => arithA 0 (if k then 4 else 7) 7 7
  | .permute => [(sel % 8, 256), (if sel % 8 = 4 then par % 64 else 0, 259)]
  | .shift => [(2, 256), (par % 64, 259), (sel % 2, 265)]
  | .compress => [(5, 256)]
  | .expand => [(6, 256)]
  | .scatter => []
  | .rotate => (if k then arithA 3 1 4 7 else []) ++ [(15, 128)]
  | .reshard => if bit sel 0 then [(1, 256)] else []

/-- QMODE of a verb: 1 for a block destination, 2 for QUANT to another format. -/
def Op.qmode (o : Op) (blk : Bool) : Nat := if blk then (if o = .copy then 0 else 1) else if o = .quant then 2 else 0

/-- Code of the K_SRC field: a captured s register or the immediate. -/
def kSrc (o : Op) (v : BitVec 128) : Nat :=
  if o = .softmaxPart then 2
  else match (List.range 4).find? (fun f => decide (termOf (slotOpnd v f) = some .scalar)) with
    | none => 0
    | some f => if opndSub (slotOpnd v f) = 2 then 1 else 2

/-- The configuration of a verb (R374). `fa`, `fb`, `fc`, `fo` are format codes, 0 where there is no such operand. A span of
2^24 tiles, which SPAN does not hold, is the whole grid (R383). -/
def buildCfg (o : Op) (v : BitVec 128) (a : W32) (fa fb fc fo lanes : Nat) (int : Bool) (span : Nat) : BitVec 384 :=
  let blk := (Fmt.ofCode fo).any Fmt.isBlock
  let sel := advSelect a
  let k := decide (termOf (slotOpnd v 2) = some .scalar)
  let st := o.stages sel k blk (advPredEn a)
  let term (f : Nat) := (termOf (slotOpnd v f)).getD .none
  let code (t : Term) : Nat := match t with | .store => 1 | .tap => 2 | .stream => 3 | _ => 0
  packFields ([(o.code, 0), (1, 12), (bypassOf st, 16), (lanes, 26), (b2n int, 28), (code (term 1), 32),
      (if term 2 = .store then 1 else 0, 34),
      (if term 3 = .store then (if o.predField sel then 1 else 2) else 0, 35),
      (if term 1 = .tap then bits (slotOpnd v 1) 1 0 else 0, 37), (kSrc o v, 39), (if term 0 = .stream then 1 else 0, 41),
      (fa, 64), (fb, 72), (fc, 80), (fo, 288), (advRound a, 296), (b2n (advSat a), 299), (o.qmode blk, 300),
      (b2n (advPredEn a), 320), (b2n (advPredZero a), 321), (b2n (slotMemoEn v), 322), (slotMemoBase v, 323),
      (o.sumKinds.length, 327), (if span < 2 ^ 24 then span else 0, 352)] ++
    (o.sumKinds.zipIdx.map (fun e => (e.1, 330 + 4 * e.2))) ++ o.fields v a blk)

/-- The lane code of a widest element width (R372). -/
def laneCode (w : Nat) : Nat := if w ≤ 8 then 0 else if w ≤ 16 then 1 else 2

/-! Elements in the chain. -/

/-- One element on its way: running value, converted inputs, raw bits and block scale of SRC_A, the U of its rounding
position (R419), and its active flag. In the int32 path the values are two's complement. -/
structure El where
  x : W32
  a : W32
  b : W32
  c : W32
  raw : Nat
  scale : Nat
  u : Nat
  act : Bool
  deriving DecidableEq, Repr

/-- A tile: rows of the elements inside its active shape. -/
abbrev TileEls := List (List El)

/-- The element at a position; none outside the active shape. -/
def elAt (t : TileEls) (r c : Nat) : Option El := (t[r]?).bind (fun row => row[c]?)

/-- The elements of a tile in row order, then column order. -/
def elsOf (t : TileEls) : List El := t.foldr (· ++ ·) []

/-- Convert-in (Table 11-3). -/
def inVal (int : Bool) (f : Fmt) (v scale : Nat) : W32 :=
  if int then match f with
    | .int w sg => BitVec.ofInt 32 (intOf w sg v)
    | _ => convInRaw f v scale
  else convInRaw f v scale

/-! Arithmetic (Table 10-5). -/

/-- An integer result in the int32 path: wrapped, or saturated when SAT is 1 (R378). -/
def satInt (sat : Bool) (i : Int) : W32 := BitVec.ofInt 32 (if sat then clampInt (-(2 ^ 31)) (2 ^ 31 - 1) i else i)

/-- u × 2^v with v truncated to an integer. A magnitude of v above 1,000 acts as 1,000, which is beyond every binary32
exponent; v infinite acts as its limit and v NaN gives NaN (notes/assumptions/27.md). -/
def fldexp (u v : W32) : W32 :=
  match (fval v).toInt 2 0 with
  | none => qnan
  | some n =>
    match fval u with
    | .fin neg m e => f32 (.fin neg m (e + clampInt (-1000) 1000 n))
    | w => f32 w

/-- u shifted arithmetically by v: to the left when v is positive, to the right when it is negative. -/
def ishift (u : W32) (v : Int) : W32 := if 0 ≤ v then u <<< v.toNat else u.sshiftRight (-v).toNat

/-- A_OP and B_OP in the binary32 path. -/
def arithFlt (op : Nat) (u v w : W32) : W32 :=
  match op with
  | 1 => fadd u v
  | 2 => fsub u v
  | 3 => fmul u v
  | 4 => ffma u v w
  | 5 => fmin u v
  | 6 => fmax u v
  | 7 => fabs u
  | 8 => fneg u
  | 9 => fmul (fsub u v) w
  | 10 => fldexp u v
  | _ => u

/-- A_OP and B_OP in the int32 path. |−2^31| and −(−2^31) have no result in the spec: free (notes/assumptions/3.md). -/
def arithInt (sat : Bool) (op : Nat) (u v w : W32) : W32 :=
  let a := u.toInt
  let b := v.toInt
  match op with
  | 1 => satInt sat (a + b)
  | 2 => satInt sat (a - b)
  | 3 => satInt sat (a * b)
  | 4 => satInt sat (a * b + w.toInt)
  | 5 => if a ≤ b then u else v
  | 6 => if a ≤ b then v else u
  | 7 => if a = -(2 ^ 31) then Config.intEdge 7 else BitVec.ofInt 32 a.natAbs
  | 8 => if a = -(2 ^ 31) then Config.intEdge 8 else BitVec.ofInt 32 (-a)
  | 9 => satInt sat ((a - b) * w.toInt)
  | 10 => ishift u b
  | _ => u

/-- A condition of Table 10-5. -/
def condOf (int : Bool) (cc : Nat) (u v : W32) : Bool :=
  if int then
    match cc with
    | 0 => decide (u = v)
    | 1 => decide (u ≠ v)
    | 2 => decide (u.toInt < v.toInt)
    | 3 => decide (u.toInt ≤ v.toInt)
    | 4 => decide (v.toInt < u.toInt)
    | 5 => decide (v.toInt ≤ u.toInt)
    | _ => false
  else
    match cc with
    | 0 => feq u v
    | 1 => !feq u v
    | 2 => flt u v
    | 3 => fle u v
    | 4 => flt v u
    | 5 => fle v u
    | _ => fisNan u || fisNan v

/-- The value of a selector (Table 10-4); `r0` and `r1` are the element's row-state entries. -/
def selVal (e : El) (k r0 r1 : W32) (s : Nat) : W32 :=
  match s with
  | 0 => e.x
  | 1 => e.a
  | 2 => e.b
  | 3 => e.c
  | 4 => k
  | 5 => r0
  | 6 => r1
  | _ => 0

/-- An arithmetic stage whose word starts at bit `lo`; `r` holds the element's two row-state entries. -/
def arithStage (c : BitVec 384) (k : W32) (r : W32 × W32) (lo : Nat) (e : El) : El :=
  let g (i : Nat) := selVal e k r.1 r.2 (cfgBits c (lo + i + 2) (lo + i))
  let op := cfgBits c (lo + 3) lo
  { e with x := if cfgInt c then arithInt (cfgSat c) op (g 4) (g 7) (g 10) else arithFlt op (g 4) (g 7) (g 10) }

/-- Compare/Select. -/
def cmpStage (c : BitVec 384) (k : W32) (r : W32 × W32) (e : El) : El :=
  let g (lo : Nat) := selVal e k r.1 r.2 (cfgBits c (lo + 2) lo)
  let b := condOf (cfgInt c) (cfgBits c 194 192) (g 195) (g 198)
  match cfgBits c 205 204 with
  | 0 => { e with act := e.act && b }
  | 1 => { e with x := if b then g 195 else g 201 }
  | _ => { e with x := if b then (if cfgInt c then 1 else one32) else 0 }

/-- Stages 3 to 6 on one element (R370). -/
def midStages (c : BitVec 384) (k : W32) (r : W32 × W32) (e : El) : El :=
  let e3 := if cfgBypass c 3 then e else arithStage c k r 96 e
  let e4 := if cfgBypass c 4 ∨ cfgBits c 131 128 = 15 then e3 else { e3 with x := funcStage (cfgBits c 131 128) e3.x }
  let e5 := if cfgBypass c 5 then e4 else arithStage c k r 160 e4
  if cfgBypass c 6 then e5 else cmpStage c k r e5

/-! Reduce (R394 to R398). -/

/-- Combine adjacent pairs. -/
def pairUp {α : Type} (f : α → α → α) : List α → List α
  | a :: b :: l => f a b :: pairUp f l
  | l => l

/-- The pairwise tree of R397: `n` levels. -/
def pairTree {α : Type} (f : α → α → α) : Nat → List α → List α
  | 0, l => l
  | n + 1, l => pairTree f n (pairUp f l)

/-- The tree over 64 values. -/
def tree64 {α : Type} (d : α) (f : α → α → α) (l : List α) : α := (pairTree f 6 l).headD d

/-- Combine two accumulators of a reduction (Table 10-8). -/
def redComb (int : Bool) (rop : Nat) (p q : W64) : W64 :=
  if int then
    match rop with
    | 1 | 4 => if p.toInt ≤ q.toInt then q else p
    | 2 => if p.toInt ≤ q.toInt then p else q
    | _ => p + q
  else
    let x := p.setWidth 32
    let y := q.setWidth 32
    (match rop with
      | 1 | 4 => fmax x y
      | 2 => fmin x y
      | _ => fadd x y).setWidth 64

/-- The identity of a reduction. -/
def redIdent (int : Bool) (rop : Nat) : W64 :=
  match rop with
  | 1 => if int then BitVec.ofInt 64 (-(2 ^ 31)) else (inf32 true).setWidth 64
  | 2 => if int then BitVec.ofInt 64 (2 ^ 31 - 1) else (inf32 false).setWidth 64
  | 6 => if int then 0 else (inf32 true).setWidth 64
  | _ => 0

/-- What an element brings into a reduction. -/
def redPre (int : Bool) (rop : Nat) (x : W32) : W64 :=
  if int then
    match rop with
    | 3 => BitVec.ofInt 64 (x.toInt * x.toInt)
    | 4 => BitVec.ofNat 64 x.toInt.natAbs
    | _ => BitVec.ofInt 64 x.toInt
  else
    (match rop with
      | 3 => fmul x x
      | 4 => fabs x
      | _ => x).setWidth 64

/-- What lane (r, c) of a tile brings: its element's value, or the identity where it is inactive (R394). -/
def laneVal (int : Bool) (rop : Nat) (t : TileEls) (r c : Nat) : W64 :=
  match elAt t r c with
  | some e => if e.act then redPre int rop e.x else redIdent int rop
  | none => redIdent int rop

/-- Is lane (r, c) active? -/
def laneAct (t : TileEls) (r c : Nat) : Bool := (elAt t r c).any (fun e => e.act)

/-- The accumulators of a reduction after one more tile: along rows, along columns, over the whole tile (R397). -/
def redFold (int : Bool) (rop axis : Nat) (acc : List W64) (t : TileEls) : List W64 :=
  let f := redComb int rop
  let d := redIdent int rop
  let rowTree (r : Nat) := tree64 d f ((List.range 64).map (laneVal int rop t r))
  match axis with
  | 1 => acc.zipIdx.map (fun e => f e.1 (rowTree e.2))
  | 2 => acc.zipIdx.map (fun e => (List.range 64).foldl (fun s r => f s (laneVal int rop t r e.2)) e.1)
  | _ => acc.map (fun s => f s (tree64 d f ((List.range 64).map rowTree)))

/-- The lanes of line `i` of an axis, in order, with the position each has in its tile (R398). -/
def lineLanes (axis i : Nat) : List (Nat × Nat × Nat) :=
  match axis with
  | 1 => (List.range 64).map (fun c => (i, c, c))
  | 2 => (List.range 64).map (fun r => (r, i, r))
  | _ => (List.range 4096).map (fun n => (n / 64, n % 64, n))

/-- The size of a tile in positions of an axis. -/
def linePlace (axis : Nat) : Nat := if axis = 3 then 4096 else 64

/-- Active elements of line `i`. -/
def lineCount (axis : Nat) (t : TileEls) (i : Nat) : Nat :=
  ((lineLanes axis i).filter (fun l => laneAct t l.1 l.2.1)).length

/-- Does line `i` lie in the active shape at all? -/
def lineSeen (axis : Nat) (t : TileEls) (i : Nat) : Bool :=
  (lineLanes axis i).any (fun l => (elAt t l.1 l.2.1).isSome)

/-- Does `x` beat the best value so far? A NaN beats every number; ties keep the earlier. `seen` tells whether the int32
path has a best value at all. -/
def beats (int seen : Bool) (x best : W32) : Bool :=
  if int then !seen || decide (best.toInt < x.toInt)
  else if fisNan best then false else fisNan x || flt best x

/-- Index of maximum over one line: best value, its position, and whether any element was active. `place` is the tile's
place in the span. -/
def idxFold (int : Bool) (axis place : Nat) (t : TileEls) (i : Nat) (s : W64 × Nat × Nat) : W64 × Nat × Nat :=
  (lineLanes axis i).foldl (fun s l =>
    match elAt t l.1 l.2.1 with
    | some e =>
      if e.act && beats int (decide (s.2.2 ≠ 0)) e.x (s.1.setWidth 32) then
        ((e.x.setWidth 64), place * linePlace axis + l.2.2, s.2.2 + 1)
      else if e.act then (s.1, s.2.1, s.2.2 + 1) else s
    | none => s) s

/-! Permute. -/

/-- Where the lane at (r, c) of the permuted tile comes from; none where zero is shifted in. -/
def permSrc (pmode amount : Nat) (fill : Bool) (r c : Nat) : Option (Nat × Nat) :=
  match pmode with
  | 1 => some (c, r)
  | 2 => if fill ∧ c < amount then none else some (r, (c + 64 - amount) % 64)
  | 3 => some (r, if c % 2 = 0 then c + 1 else c - 1)
  | 4 => some (r, if c % (2 * amount) < amount then c + amount else c - amount)
  | _ => some (r, c)

/-- A lane that holds no element. -/
def deadEl : El := { x := 0, a := 0, b := 0, c := 0, raw := 0, scale := 0, u := 0, act := false }

/-- The element that reaches Convert-out at (r, c) of the destination. A lane vacated under FILL takes zero and is
active. -/
def permEl (cfg : BitVec 384) (t : TileEls) (r c : Nat) : El :=
  if cfgBypass cfg 8 then (elAt t r c).getD deadEl
  else match permSrc (cfgBits cfg 258 256) (cfgBits cfg 264 259) (cfg.getLsbD 265) r c with
    | none => { deadEl with act := true }
    | some p => (elAt t p.1 p.2).getD deadEl

/-! Convert-out and Emit. -/

/-- Sums of nothing. -/
def Sums.zero : Sums :=
  { active := 0, streamed := 0, saturated := 0, nanOut := 0, infOut := 0, emptyLines := 0, maxMag := 0, last := 0 }

/-- Count one element that reaches Emit: its value at Convert-out and what the conversion did. -/
def Sums.count (s : Sums) (int : Bool) (x : Option W64) (fl : ConvFlags) : Sums :=
  { s with
    saturated := s.saturated + b2n fl.saturated, nanOut := s.nanOut + b2n fl.nan, infOut := s.infOut + b2n fl.inf,
    maxMag := match x with
      | none => s.maxMag
      | some v =>
        if int then BitVec.ofNat 64 (max s.maxMag.toNat v.toInt.natAbs)
        else (fmax (s.maxMag.setWidth 32) (fabs (v.setWidth 32))).setWidth 64 }

/-- Convert-out of one value to a format that is not a block, QMODE 2 first (R423). -/
def outVal (cfg : BitVec 384) (f : Fmt) (k : W32) (x : W32) (u : Nat) : Nat × ConvFlags :=
  let m := cfgRound cfg
  let sat := cfgSat cfg
  if cfgInt cfg then
    let y := if cfgQmode cfg = 2 then satInt sat (x.toInt * k.toInt) else x
    convOutInt f m u sat y.toInt
  else convOut f m u sat (if cfgQmode cfg = 2 then fmul x k else x)

/-- The bytes of an element's bits at its place (R413). -/
def placeBytes (f : Fmt) (l : Loc) (v : Nat) : List OutByte :=
  if f.width = 4 then
    [{ addr := BitVec.ofNat 64 l.addr, val := BitVec.ofNat 8 (v % 16 * 2 ^ l.nib),
       mask := if l.nib = 0 then 0x0F else 0xF0, row := 0 }]
  else (leBytes (f.width / 8) v).zipIdx.map (fun e =>
    { addr := BitVec.ofNat 64 (l.addr + e.2), val := e.1, mask := 0xFF, row := 0 })

/-- One plain byte of output. -/
def plainByte (a : Nat) (v : Byte) : OutByte := { addr := BitVec.ofNat 64 a, val := v, mask := 0xFF, row := 0 }

/-- The output bytes of row `r` of a tile. -/
def inRow (r : Nat) (l : List OutByte) : List OutByte := l.map (fun b => { b with row := r })

/-- Emit one element of a format that is not a block: active elements are written, inactive ones become zero under
PRED_ZERO and are left otherwise (R392). -/
def emitEl (cfg : BitVec 384) (f : Fmt) (k : W32) (l : Loc) (e : El) (s : Sums) : List OutByte × Sums :=
  if e.act then
    let r := outVal cfg f k e.x e.u
    (placeBytes f l r.1, ({ s with active := s.active + 1 }).count (cfgInt cfg)
      (some (if cfgInt cfg then BitVec.ofInt 64 e.x.toInt else e.x.setWidth 64)) r.2)
  else if cfgPredZero cfg then (placeBytes f l 0, s) else ([], s)

/-- Emit one block of 32 elements of a row (R428). -/
def emitBlock (cfg : BitVec 384) (f : Fmt) (ls : List Loc) (es : List El) (s : Sums) : List OutByte × Sums :=
  let xs := es.map (fun e => if e.act then e.x else 0)
  let q := quantBlock f (cfgRound cfg) (cfgSat cfg) xs (es.map (fun e => e.u))
  let s1 := (es.zip q.2).foldl (fun s p =>
    ({ s with active := s.active + b2n p.1.act }).count false (if p.1.act then some (p.1.x.setWidth 64) else none) p.2.2) s
  let bytes := (ls.zip q.2).foldr (fun p l => placeBytes f p.1 p.2.1 ++ l) []
  (bytes ++ (match ls.head? with
    | some l => [plainByte l.scale (BitVec.ofNat 8 q.1)]
    | none => []), s1)

/-- Emit one row of `n` columns whose elements `get` gives. -/
def emitRow (cfg : BitVec 384) (v : View) (k : W32) (t r n : Nat) (get : Nat → El) (s : Sums) : List OutByte × Sums :=
  if v.fmt.isBlock then
    (List.range (n / 32)).foldl (fun p j =>
      let cs := (List.range 32).map (fun i => 32 * j + i)
      let e := emitBlock cfg v.fmt (cs.map (v.loc t r)) (cs.map get) p.2
      (p.1 ++ e.1, e.2)) ([], s)
  else
    (List.range n).foldl (fun p c =>
      let e := emitEl cfg v.fmt k (v.loc t r c) (get c) p.2
      (p.1 ++ e.1, e.2)) ([], s)

/-- Emit a tile into tile `t` of the destination view. -/
def emitTile (cfg : BitVec 384) (v : View) (k : W32) (t : Nat) (get : Nat → Nat → El) (s : Sums) : List OutByte × Sums :=
  let h := v.shape t
  (List.range (shapeRows h)).foldl (fun p r =>
    let e := emitRow cfg v k t r (shapeCols h r) (get r) p.2
    (p.1 ++ inRow r e.1, e.2)) ([], s)

/-! The U values of a tile (R419). -/

/-- The U of `n` rounding positions and the generator after them. Only ROUND 5 steps it. -/
def drawUs : Nat → W32 → List Nat × W32
  | 0, g => ([], g)
  | n + 1, g =>
    let g1 := lfsrPos g
    let r := drawUs n g1
    (g1.toNat % 65536 :: r.1, r.2)

end Sys2Proof.Machine
end

