-- ==== Sys2Proof/Machine/Tiles.lean ====
section
/-!
DEFINITION. What one input tile of a verb does (chapters 10, 12 and 13): which tile of the grid it is and in which pass,
the bytes it reads, its elements, its reductions and row states, and the output tiles and summaries it leaves.
-/
namespace Sys2Proof.Machine

/-! A verb resolved. -/

/-- The verb of a slot that passed decoding. -/
def Verb.op (v : Verb) : Op := (Op.ofCode (slotOp v.slot)).getD .copy

/-- The store operand of field `f`: the resolved descriptor of a pronoun or the captured walker set. -/
def Verb.view (v : Verb) (f : Fin 4) : Option View :=
  match opndKind (slotOpnd v.slot f.val) with
  | 1 => v.descs[f].map viewOfDesc
  | 2 => v.caps[f].map viewOfWalker
  | _ => none

/-- k (R388): the captured register or the immediate, low half. -/
def Verb.kval (v : Verb) : W32 :=
  match kSrc v.op v.slot with
  | 1 => (v.k.getD 0).setWidth 32
  | 2 => (v.imm.getD 0).setWidth 32
  | _ => 0

/-- A grid of `n` whole tiles, for a verb whose tiles come from the tap and go to no store operand that matches them
(notes/assumptions/28.md). -/
def tapGrid (n : Nat) : View :=
  { base := 0, fmt := .float fp32, code := 1, walker := true, bcast := false, rank := 6, counts := [64, 64, n, 1, 1, 1],
    strides := [0, 0, 0, 0, 0, 0] }

/-- The tile grid (R383): of SRC_A when it is a store operand, else of DST; of DST for an expanding verb and for GATHER.
A SCATTER from the tap takes the grid of its index operand or predicate (notes/assumptions/28.md). -/
def gridView (o : Op) (dst a b c : Option View) (n : Nat) : View :=
  match o with
  | .expand | .fill | .gather => dst.getD (tapGrid n)
  | .scatter => ((a <|> b) <|> c).getD (tapGrid n)
  | _ => (a <|> dst).getD (tapGrid n)

/-- A verb ready to run: its operands, configuration and constant. -/
structure Job where
  op : Op
  cfg : BitVec 384
  sel : Nat
  par : Nat
  k : W32
  dst : Option View
  a : Option View
  b : Option View
  c : Option View
  grid : View
  deriving DecidableEq, Repr

/-- The job of an admitted verb. -/
def Verb.job (v : Verb) : Job :=
  { op := v.op, cfg := v.cfg, sel := advSelect v.adv, par := advParam v.adv, k := v.kval, dst := v.view 0,
    a := v.view 1, b := v.view 2, c := v.view 3,
    grid := gridView v.op (v.view 0) (v.view 1) (v.view 2) (v.view 3) v.tiles }

/-- Passes over each span (R444, R453). -/
def Op.passes (o : Op) (sel : Nat) : Nat :=
  match o with
  | .softmax | .softmaxPart => 2
  | .rmsnorm => if bit sel 0 then 1 else 2
  | _ => 1

/-- Where an input tile stands: its tile of the grid, its span, its pass, and its place in the span. -/
structure Place where
  tile : Nat
  span : Nat
  pass : Nat
  first : Bool
  last : Bool
  inSpan : Nat
  deriving DecidableEq, Repr

/-- The place of input tile `n` (R396, R444). -/
def Job.place (j : Job) (n : Nat) : Place :=
  let w := if cfgSpan j.cfg = 0 then max 1 j.grid.tiles else cfgSpan j.cfg
  let per := w * j.op.passes j.sel
  let i := n / per
  let q := n % per
  { tile := i * w + q % w, span := i, pass := q / w, first := decide (q % w = 0), last := decide (q % w = w - 1),
    inSpan := q % w }

/-! Reading. -/

/-- The bits of the element at a place and its block scale. -/
def rawAt (rd : Nat → Byte) (f : Fmt) (l : Loc) : Nat × Nat :=
  (if f.width = 4 then bits (rd l.addr).toNat (l.nib + 3) l.nib
   else ofLe ((List.range (f.width / 8)).map (fun i => rd (l.addr + i))),
   if f.isBlock then (rd l.scale).toNat else 0)

/-- The place of element `c` of an addressed row of `n` elements (R385). -/
def rowLoc (f : Fmt) (n row c : Nat) : Loc :=
  { addr := row + c * f.width / 8, nib := if f.width = 4 ∧ c % 2 = 1 then 4 else 0,
    scale := row + n * f.width / 8 + c / 32 }

/-- The format of SRC_A in the chain. -/
def Job.fmtA (j : Job) : Fmt := (Fmt.ofCode (cfgBits j.cfg 71 64)).getD (.float fp32)

/-- Is SRC_C the element predicate? -/
def Job.hasPred (j : Job) : Bool := j.op.predField j.sel && j.c.isSome

/-- Does a field hold values of the grid's elements: no per-span operand, index operand or table? -/
def Job.elementB (j : Job) : Bool :=
  match j.op with
  | .softmaxPart | .gather | .scatter => false
  | _ => j.b.isSome

/-- See `Job.elementB`. -/
def Job.elementC (j : Job) : Bool :=
  match j.op with
  | .softmaxFix => false
  | .rmsnorm => !bit j.sel 0 && j.c.isSome
  | _ => j.c.isSome

/-- See `Job.elementB`. -/
def Job.elementA (j : Job) : Bool :=
  match j.op with
  | .expand | .gather => false
  | _ => j.a.isSome

/-- The converted value of an operand at a position; raw bits for the phases of ROPE. -/
def Job.opVal (j : Job) (rd : Nat → Byte) (v : Option View) (t r c : Nat) : W32 :=
  match v with
  | none => 0
  | some w =>
    let x := rawAt rd w.fmt (w.loc t r c)
    if j.op = .rope then BitVec.ofNat 32 x.1 else inVal (cfgInt j.cfg) w.fmt x.1 x.2

/-- Is the element at a position active (R391)? -/
def Job.active (j : Job) (rd : Nat → Byte) (t r c : Nat) : Bool :=
  if cfgBits j.cfg 320 320 = 1 ∧ j.hasPred then
    match j.c with
    | some w => decide ((rawAt rd w.fmt (w.loc t r c)).1 ≠ 0)
    | none => true
  else true

/-- The element at row `r`, column `c` of tile `t`: `rows` are the addressed rows of a GATHER, `tap` the data of a
burst. -/
def Job.el (j : Job) (rd : Nat → Byte) (rows : List Nat) (tap : List W32) (t r c u : Nat) : El :=
  let f := j.fmtA
  let x : Nat × Nat :=
    if j.elementA then
      match j.a with
      | some w => rawAt rd w.fmt (w.loc t r c)
      | none => (0, 0)
    else match rows[r]? with
      | some base => rawAt rd f (rowLoc f (shapeCols (j.grid.shape t) r) base c)
      | none => ((at! 0 tap (64 * r + c)).toNat, 0)
  let a := if j.op = .fill ∨ j.op = .expand then 0 else inVal (cfgInt j.cfg) f x.1 x.2
  { x := a, a := a, b := if j.elementB then j.opVal rd j.b t r c else 0,
    c := if j.elementC && !j.hasPred then j.opVal rd j.c t r c else 0,
    raw := x.1, scale := x.2, u := u, act := j.active rd t r c }

/-- Positions of a tile. -/
def shapeSize (h : Nat × Nat × Nat) : Nat := h.1 * h.2.1 + h.2.2

/-- The elements of a tile; `us` holds the U of each position (R419). -/
def Job.load (j : Job) (rd : Nat → Byte) (rows : List Nat) (tap : List W32) (t : Nat) (us : List Nat) : TileEls :=
  let h := j.grid.shape t
  (List.range (shapeRows h)).map (fun r =>
    let w := us.drop (r * h.2.1)
    (List.range (shapeCols h r)).map (fun c => j.el rd rows tap t r c (at! 0 w c)))

/-! The bytes a tile reads. -/

/-- The stretches of memory that `n` columns of row `r` of tile `t` take: address and length. -/
def View.rowReads (v : View) (t r n : Nat) : List (Nat × Nat) :=
  if n = 0 then []
  else
    let l := v.loc t r 0
    let e := v.loc t r (n - 1)
    (l.addr, e.addr + v.elemBytes - l.addr) ::
      (if v.fmt.isBlock then [(l.scale, ceilDiv n 32)] else [])

/-- The stretches that a tile of a view takes. -/
def View.tileReads (v : View) (h : Nat × Nat × Nat) (t : Nat) : List (Nat × Nat) :=
  (List.range (shapeRows h)).flatMap (fun r => v.rowReads t r (shapeCols h r))

/-- The stretches of elements `i` to `i + n − 1` of a view's walk. -/
def View.walkReads (v : View) (i n : Nat) : List (Nat × Nat) :=
  (List.range n).flatMap (fun m =>
    let l := v.walkLoc (i + m)
    (l.addr, v.elemBytes) :: (if v.fmt.isBlock then [(l.scale, 1)] else []))

/-- How many elements of a tile are active. -/
def Job.activeCount (j : Job) (rd : Nat → Byte) (t : Nat) : Nat :=
  let h := j.grid.shape t
  (List.range (shapeRows h)).foldl (fun n r =>
    (List.range (shapeCols h r)).foldl (fun n c => n + b2n (j.active rd t r c)) n) 0

/-- The record of a span that a tile reads: 256 elements of 32 bits. -/
def spanReads (v : Option View) (span n : Nat) : List (Nat × Nat) :=
  match v with
  | some w => w.walkReads (span * n) n
  | none => []

/-- Every stretch that input tile `n` reads, row addresses of a GATHER included. -/
def Job.reads (j : Job) (rd : Nat → Byte) (rows : List Nat) (n stream : Nat) : List (Nat × Nat) :=
  let p := j.place n
  let h := j.grid.shape p.tile
  let of (b : Bool) (v : Option View) := match v with
    | some w => if b then w.tileReads h p.tile else []
    | none => []
  of j.elementA j.a ++ of j.elementB j.b ++ of (j.elementC && (!j.hasPred || decide (cfgBits j.cfg 320 320 = 1))) j.c ++
    (match j.op with
      | .gather => rows.zipIdx.flatMap (fun e =>
          let m := shapeCols h e.2
          let f := j.fmtA
          (e.1, ceilDiv (m * f.width) 8) ::
            (if f.isBlock then [(e.1 + m * f.width / 8, ceilDiv m 32)] else []))
      | .expand =>
        match j.a with
        | some w => w.walkReads stream (min (j.activeCount rd p.tile) (w.elems - stream))
        | none => []
      | .softmaxPart => if p.first && decide (p.pass = 0) then spanReads j.b p.span 256 else []
      | .softmaxFix => if p.first then spanReads j.c p.span 256 else []
      | _ => [])

/-! What a tile leaves. -/

/-- The result of one input tile: output tiles to commit, atomics to issue, and the state the verb carries. -/
structure TileOut where
  commits : List (List OutByte)
  atoms : List (Nat × W32)
  red : RedSt
  sums : Sums
  deriving DecidableEq, Repr

/-- Reduction state with every figure zero (R399). -/
def RedSt.zero : RedSt :=
  { acc := [], rs0 := List.replicate 64 0, rs1 := List.replicate 64 0, aux := List.replicate 64 0,
    cnt := List.replicate 64 0, pos := List.replicate 64 0, stream := 0 }

/-- The row-state entries of the element at (r, c): of its row for AXIS 1, of its column for AXIS 2, the single one for
AXIS 3 (R399). -/
def RedSt.entry (red : RedSt) (axis r c : Nat) : W32 × W32 :=
  let i := match axis with | 1 => r | 2 => c | _ => 0
  if axis = 0 then (0, 0) else (at! 0 red.rs0 i, at! 0 red.rs1 i)

/-- AXIS of a configuration. -/
def Job.axis (j : Job) : Nat := cfgBits j.cfg 228 227

/-- Change row `r` of a tile's elements. -/
def mapTile (f : Nat → Nat → El → El) (t : TileEls) : TileEls :=
  t.zipIdx.map (fun row => row.1.zipIdx.map (fun e => f row.2 e.2 e.1))

/-- Emit a tile's elements, permuted as the configuration says. -/
def Job.emit (j : Job) (t : TileEls) (n : Nat) (s : Sums) : List OutByte × Sums :=
  match j.dst with
  | none => ([], s)
  | some v => emitTile j.cfg v j.k n (permEl j.cfg t) s

/-- One output tile, when it has any byte. -/
def oneCommit (b : List OutByte) : List (List OutByte) := if b.isEmpty then [] else [b]

/-- Write `xs` at elements `i`, `i + 1`, … of a per-span operand, each already in the operand's format. -/
def spanWrite (v : Option View) (i : Nat) (xs : List Nat) : List OutByte :=
  match v with
  | none => []
  | some w => xs.zipIdx.flatMap (fun e => placeBytes w.fmt (w.walkLoc (i + e.2)) e.1)

/-- Element `i` of a span's record, as 32 bits. -/
def spanWord (rd : Nat → Byte) (v : Option View) (i : Nat) : W32 :=
  match v with
  | none => 0
  | some w => BitVec.ofNat 32 (rawAt rd w.fmt (w.walkLoc i)).1

/-- A verb whose elements pass the stages one by one (families 1 to 4, PERMUTE, SHIFT, RESHARD, GATHER, FILL). -/
def Job.runPlain (j : Job) (els : TileEls) (p : Place) (red : RedSt) (sums : Sums) : TileOut :=
  let t := mapTile (fun r c e => midStages j.cfg j.k (red.entry j.axis r c) e) els
  let o := j.emit t p.tile sums
  { commits := oneCommit o.1, atoms := [], red := red, sums := o.2 }

/-- COPY: the bytes of active elements unchanged, block scales with them. -/
def Job.runCopy (j : Job) (els : TileEls) (p : Place) (red : RedSt) (sums : Sums) : TileOut :=
  match j.dst with
  | none => { commits := [], atoms := [], red := red, sums := sums }
  | some v =>
    let put (r c : Nat) (e : El) : List OutByte :=
      let l := v.loc p.tile r c
      if e.act then placeBytes v.fmt l e.raw ++
        (if v.fmt.isBlock && decide (c % 32 = 0) then [plainByte l.scale (BitVec.ofNat 8 e.scale)] else [])
      else if cfgPredZero j.cfg then placeBytes v.fmt l 0 else []
    { commits := oneCommit (els.zipIdx.flatMap (fun row =>
        inRow row.2 (row.1.zipIdx.flatMap (fun e => put row.2 e.2 e.1)))),
      atoms := [], red := red,
      sums := { sums with active := sums.active + ((elsOf els).filter (fun e => e.act)).length } }

/-- SCATTER (R475, R476): rows of SRC_A's bytes at their addresses, or one atomic for each active element. -/
def Job.runScatter (j : Job) (els : TileEls) (rows : List Nat) (red : RedSt) (sums : Sums) : TileOut :=
  let f := j.fmtA
  let s1 := { sums with active := sums.active + ((elsOf els).filter (fun e => e.act)).length }
  if bit j.sel 0 then
    { commits := [], red := red, sums := s1,
      atoms := els.zipIdx.flatMap (fun row => row.1.zipIdx.filterMap (fun e =>
        if e.1.act then some (at! 0 rows row.2 + 4 * e.2, BitVec.ofNat 32 e.1.raw) else none)) }
  else
    let put (r n c : Nat) (e : El) : List OutByte :=
      let l := rowLoc f n (at! 0 rows r) c
      if e.act then placeBytes f l e.raw ++
        (if f.isBlock && decide (c % 32 = 0) then [plainByte l.scale (BitVec.ofNat 8 e.scale)] else [])
      else if cfgPredZero j.cfg then placeBytes f l 0 else []
    { commits := oneCommit (els.zipIdx.flatMap (fun row =>
        inRow row.2 (row.1.zipIdx.flatMap (fun e => put row.2 row.1.length e.2 e.1)))),
      atoms := [], red := red, sums := s1 }

/-! Reductions. -/

/-- How many accumulators an axis has. -/
def accCount (axis : Nat) : Nat := if axis = 3 then 1 else 64

/-- The value that leaves Reduce for line `i`: an accumulator, a count or a position (Table 10-8). -/
def redValue (rop : Nat) (red : RedSt) (i : Nat) : Int × Bool :=
  match rop with
  | 5 => ((at! (0 : Nat) red.cnt i : Nat), true)
  | 6 => ((at! (0 : Nat) red.pos i : Nat), true)
  | _ => ((at! 0 red.acc i).toInt, false)

/-- Convert-out of one reduced value (Table 11-5). A count or position of the binary32 path is converted as the integer it
is. -/
def redOut (cfg : BitVec 384) (f : Fmt) (rop u : Nat) (red : RedSt) (i : Nat) : Nat :=
  let v := redValue rop red i
  if cfgInt cfg then (convOutInt f (cfgRound cfg) u (cfgSat cfg) v.1).1
  else if v.2 then (toIntFmt f.width true (cfgRound cfg) u (Val.ofInt v.1)).1
  else (convOut f (cfgRound cfg) u (cfgSat cfg) (BitVec.ofInt 32 v.1)).1

/-- The magnitude of one reduced value in MAX_MAG. -/
def redMag (cfg : BitVec 384) (rop : Nat) (red : RedSt) (i : Nat) : W64 :=
  let v := redValue rop red i
  if cfgInt cfg then BitVec.ofInt 64 v.1
  else if v.2 then (fofInt v.1).setWidth 64 else BitVec.ofInt 64 v.1

/-- Start of a span: every accumulator at its identity (R396). -/
def RedSt.fresh (red : RedSt) (int : Bool) (rop axis : Nat) : RedSt :=
  { red with acc := List.replicate (accCount axis) (redIdent int rop), cnt := List.replicate (accCount axis) 0,
             pos := List.replicate (accCount axis) 0, aux := List.replicate (accCount axis) 0 }

/-- One tile into a REDUCE; `aux` tells which lines have been seen in the active shape. -/
def Job.fold (j : Job) (els : TileEls) (p : Place) (red : RedSt) : RedSt :=
  let int := cfgInt j.cfg
  let rop := cfgBits j.cfg 226 224
  let axis := j.axis
  let r0 := if p.first then red.fresh int rop axis else red
  let seen := r0.aux.zipIdx.map (fun e => if lineSeen axis els e.2 then (1 : W32) else e.1)
  if rop = 6 then
    let l := (List.range (accCount axis)).map (fun i =>
      idxFold int axis p.inSpan els i (at! 0 r0.acc i, at! 0 r0.pos i, at! 0 r0.cnt i))
    { r0 with acc := l.map (fun e => e.1), pos := l.map (fun e => e.2.1), cnt := l.map (fun e => e.2.2), aux := seen }
  else
    { r0 with acc := if rop = 5 then r0.acc else redFold int rop axis r0.acc els,
              cnt := r0.cnt.zipIdx.map (fun e => e.1 + lineCount axis els e.2), aux := seen }

/-- REDUCE: a tile folded, and the output block after the span's last. `us` gives the U of each output value, which no
rule states: a free function of the rounding generator (notes/assumptions/3.md). -/
def Job.runReduce (j : Job) (els : TileEls) (p : Place) (red : RedSt) (sums : Sums) (us : Nat → Nat) : TileOut :=
  let rop := cfgBits j.cfg 226 224
  let axis := j.axis
  let r := j.fold els p red
  let s1 := { sums with active := sums.active + ((elsOf els).filter (fun e => e.act)).length }
  if p.last then
    let n := accCount axis
    let f := (j.dst.map (fun v => v.fmt)).getD (.float fp32)
    let s2 := (List.range n).foldl (fun s i => s.count (cfgInt j.cfg) (some (redMag j.cfg rop r i)) ConvFlags.none) s1
    let empty := ((List.range n).filter (fun i => decide (at! 0 r.aux i = 1) && decide (at! 0 r.cnt i = 0))).length
    let v := redValue rop r 0
    { commits := oneCommit (spanWrite j.dst (p.span * n) ((List.range n).map (fun i => redOut j.cfg f rop (us i) r i))),
      atoms := [], red := r,
      sums := { s2 with emptyLines := s2.emptyLines + empty,
                        last := if v.2 then BitVec.ofInt 64 v.1 else at! 0 r.acc 0 } }
  else { commits := [], atoms := [], red := r, sums := s1 }

/-! Soft maximum (R438 to R450). -/

/-- The masked-position floor, −32,768.0. -/
def smFloor : W32 := 0xC7000000

/-- The score of an element (R438): a × k, not below the floor; a NaN stays. -/
def smScore (k : W32) (e : El) : W32 :=
  let t := fmul e.a k
  if flt t smFloor then smFloor else t

/-- Does an active score of a row make the row NaN (R440)? -/
def smBad (k : W32) (row : List El) : Bool :=
  row.any (fun e => e.act && (let t := smScore k e; fisNan t || decide (t = inf32 false)))

/-- One row of one tile of a first pass (R441): the new m and l; NaN for a row that R440 names. -/
def smRow (k : W32) (row : List El) (m l : W32) : W32 × W32 :=
  if smBad k row then (qnan, qnan)
  else
    let ts := (row.filter (fun e => e.act)).map (smScore k)
    let mt := match ts with
      | [] => smFloor
      | t :: us => us.foldl fmax t
    let fresh := feq l 0
    let mp := if fresh then smFloor else m
    let mn := fmax mp mt
    let c := if fresh then 0 else fnExp2 (fsub mp mn)
    let st := tree64 0 fadd ((List.range 64).map (fun i =>
      match row[i]? with
      | some e => if e.act then fnExp2 (fsub (smScore k e) mn) else 0
      | none => 0))
    (mn, fadd (fmul l c) st)

/-- m and l when a span's first tile enters its first pass: zero, or those of its record (R448). `cnt` marks the rows that
R440 makes NaN. -/
def Job.smStart (j : Job) (rd : Nat → Byte) (p : Place) (red : RedSt) : RedSt :=
  if j.op = .softmaxPart then
    let m := (List.range 64).map (fun r => spanWord rd j.b (256 * p.span + 4 * r))
    let l := (List.range 64).map (fun r => spanWord rd j.b (256 * p.span + 4 * r + 1))
    { red with rs0 := m, rs1 := l, aux := m, pos := l.map (fun x => b2n (!feq x 0)), cnt := List.replicate 64 0 }
  else { red with rs0 := List.replicate 64 0, rs1 := List.replicate 64 0, cnt := List.replicate 64 0 }

/-- The pass boundary: q = 1 / l of SOFTMAX (R442), or C and the fresh M of SOFTMAX_PART (R448, R449). -/
def Job.smBoundary (j : Job) (red : RedSt) : RedSt :=
  let at' (l : List W32) (r : Nat) := at! (0 : W32) l r
  if j.op = .softmaxPart then
    { red with
      aux := (List.range 64).map (fun r =>
        if at! 0 red.cnt r = 1 then qnan
        else if feq (at' red.rs1 r) 0 then 0
        else if at! 0 red.pos r = 1 then fnExp2 (fsub (at' red.aux r) (at' red.rs0 r)) else 0),
      rs0 := (List.range 64).map (fun r => if feq (at' red.rs1 r) 0 then smFloor else at' red.rs0 r) }
  else { red with aux := red.rs1.map (fun l => if feq l 0 then 0 else fnRecip l) }

/-- An element of a second pass (R440, R442, R443, R448, R449). A masked position of a NaN row is written too. -/
def Job.smOut (j : Job) (red : RedSt) (r : Nat) (e : El) : El :=
  let m := at! (0 : W32) red.rs0 r
  let l := at! (0 : W32) red.rs1 r
  if at! 0 red.cnt r = 1 then { e with x := qnan, act := true }
  else if feq l 0 || !e.act then { e with x := 0 }
  else
    let y := fnExp2 (fsub (smScore j.k e) m)
    { e with x := if j.op = .softmax then fmul y (at! 0 red.aux r) else y }

/-- The row record of a span (Table 12-4). -/
def smRecord (red : RedSt) : List Nat :=
  (List.range 64).flatMap (fun r =>
    [(at! (0 : W32) red.rs0 r).toNat, (at! (0 : W32) red.rs1 r).toNat, (at! (0 : W32) red.aux r).toNat, 0])

/-- SOFTMAX and SOFTMAX_PART. -/
def Job.runSoftmax (j : Job) (rd : Nat → Byte) (els : TileEls) (p : Place) (red : RedSt) (sums : Sums) : TileOut :=
  if p.pass = 0 then
    let r0 := if p.first then j.smStart rd p red else red
    let ml := (List.range 64).map (fun r => smRow j.k (at! [] els r) (at! 0 r0.rs0 r) (at! 0 r0.rs1 r))
    let bad := r0.cnt.zipIdx.map (fun e => max e.1 (b2n (smBad j.k (at! [] els e.2))))
    let r1 := { r0 with rs0 := ml.map (fun e => e.1), rs1 := ml.map (fun e => e.2), cnt := bad }
    let empty := ((List.range els.length).filter (fun r => feq (at! (0 : W32) r1.rs1 r) 0)).length
    { commits := [], atoms := [], red := if p.last then j.smBoundary r1 else r1,
      sums := if p.last then { sums with emptyLines := sums.emptyLines + empty } else sums }
  else
    let t := mapTile (fun r _ e => j.smOut red r e) els
    let o := j.emit t p.tile sums
    let masked := ((elsOf t).filter (fun e => e.act)).length - ((elsOf els).filter (fun e => e.act)).length
    { commits := oneCommit o.1 ++
        (if p.last && decide (j.op = .softmaxPart) then [spanWrite j.b (256 * p.span) (smRecord red)] else []),
      atoms := [], red := red, sums := { o.2 with active := o.2.active - masked } }

/-- SOFTMAX_FIX (R450): the record's C, or 1 / L, of each row is taken at the span's first tile. -/
def Job.runFix (j : Job) (rd : Nat → Byte) (els : TileEls) (p : Place) (red : RedSt) (sums : Sums) : TileOut :=
  let fin := bit j.sel 0
  let w (r i : Nat) := spanWord rd j.c (256 * p.span + 4 * r + i)
  let r1 :=
    if p.first then
      { red with
        aux := (List.range 64).map (fun r => if fin then (if feq (w r 1) 0 then 0 else fnRecip (w r 1)) else w r 2),
        pos := (List.range 64).map (fun r => b2n (feq (w r (if fin then 1 else 2)) 0)) }
    else red
  let t := mapTile (fun r _ e =>
    let z := decide (at! 0 r1.pos r = 1)
    let f := at! (0 : W32) r1.aux r
    { e with x := if fin then (if z then 0 else fmul e.a f) else if z then e.a else fadd e.a (fmul e.b f) }) els
  let o := j.emit t p.tile sums
  { commits := oneCommit o.1, atoms := [], red := r1, sums := o.2 }

/-! Root-mean-square normalisation (R451 to R454). -/

/-- r of a row: sum of squares, count, ε. -/
def rmsScale (ss : W32) (d : Nat) (eps : W32) : W32 :=
  let q := fadd (fdiv ss (fofInt d)) eps
  if d = 0 ∨ feq q 0 = true ∨ q = inf32 false then 0 else fnRsqrt q

/-- RMSNORM. -/
def Job.runRms (j : Job) (els : TileEls) (p : Place) (red : RedSt) (sums : Sums) : TileOut :=
  let one := bit j.sel 0
  let eps : W32 := BitVec.ofNat 32 (j.par * 65536)
  let gain (x : W32) (e : El) : W32 := if j.b.isSome then fmul x e.b else x
  let folded :=
    let r0 := if p.first then red.fresh false 3 1 else red
    let acc := redFold false 3 1 r0.acc els
    let r1 := { r0 with acc := acc, rs0 := acc.map (fun x => x.setWidth 32),
                        cnt := r0.cnt.zipIdx.map (fun e => e.1 + lineCount 1 els e.2) }
    if p.last then
      { r1 with aux := (List.range 64).map (fun r => rmsScale ((at! 0 r1.acc r).setWidth 32) (at! 0 r1.cnt r) eps) }
    else r1
  let empty := ((List.range els.length).filter (fun r => decide (at! (0 : Nat) folded.cnt r = 0))).length
  let count (s : Sums) : Sums := if p.last then { s with emptyLines := s.emptyLines + empty } else s
  if one then
    let o := j.emit (mapTile (fun _ _ e => { e with x := gain e.x e }) els) p.tile sums
    { commits := oneCommit o.1 ++
        (if p.last then [spanWrite j.c (64 * p.span) (folded.aux.map (fun x => x.toNat))] else []),
      atoms := [], red := folded, sums := count o.2 }
  else if p.pass = 0 then { commits := [], atoms := [], red := folded, sums := count sums }
  else
    let o := j.emit (mapTile (fun r _ e => { e with x := gain (fmul e.x (at! 0 red.aux r)) e }) els) p.tile sums
    { commits := oneCommit o.1, atoms := [], red := red, sums := o.2 }

/-! Position codes (R457 to R459). -/

/-- The lower column of a column's pair, and whether the column is the upper one. -/
def Job.pairOf (j : Job) (c : Nat) : Nat × Nat × Bool :=
  if bit j.sel 0 then
    let h := max 1 (j.par % 64)
    if c % (2 * h) < h then (c, c + h, false) else (c - h, c, true)
  else (c / 2 * 2, c / 2 * 2 + 1, decide (c % 2 = 1))

/-- ROPE. -/
def Job.runRope (j : Job) (els : TileEls) (p : Place) (red : RedSt) (sums : Sums) : TileOut :=
  let t := mapTile (fun r c e =>
    let q := j.pairOf c
    let lo := (elAt els r q.1).getD deadEl
    let hi := (elAt els r q.2.1).getD deadEl
    let ph := lo.c * lo.b
    let co := cosPhase ph
    let si := sinPhase ph
    { e with x :=
        if q.2.2 then fadd (fmul lo.a si) (fmul hi.a co) else fsub (fmul lo.a co) (fmul hi.a si) }) els
  let o := j.emit t p.tile sums
  { commits := oneCommit o.1, atoms := [], red := red, sums := o.2 }

/-! Compress and expand (R400 to R402). -/

/-- COMPRESS: active elements at consecutive positions of the destination's walk. -/
def Job.runCompress (j : Job) (els : TileEls) (red : RedSt) (sums : Sums) : TileOut :=
  let xs := (elsOf els).filter (fun e => e.act)
  match j.dst with
  | none => { commits := [], atoms := [], red := red, sums := sums }
  | some v =>
    let o := xs.zipIdx.foldl (fun (q : List OutByte × Sums) e =>
      let m := emitEl j.cfg v.fmt j.k (v.walkLoc (red.stream + e.2)) e.1 q.2
      (q.1 ++ m.1, m.2)) ([], sums)
    { commits := oneCommit o.1, atoms := [], red := { red with stream := red.stream + xs.length },
      sums := { o.2 with streamed := o.2.streamed + xs.length } }

/-- Place packed elements at the active positions of a tile, in row order then column order. -/
def expandRow (get : Nat → Option W32) : List El → Nat → List El × Nat
  | [], i => ([], i)
  | e :: es, i =>
    if e.act then
      match get i with
      | some x => let q := expandRow get es (i + 1); ({ e with x := x } :: q.1, q.2)
      | none => let q := expandRow get es i; ({ e with x := 0 } :: q.1, q.2)
    else let q := expandRow get es i; (e :: q.1, q.2)

/-- `expandRow` over the rows of a tile. -/
def expandTile (get : Nat → Option W32) : TileEls → Nat → TileEls × Nat
  | [], i => ([], i)
  | r :: rs, i =>
    let q := expandRow get r i
    let w := expandTile get rs q.2
    (q.1 :: w.1, w.2)

/-- EXPAND. -/
def Job.runExpand (j : Job) (rd : Nat → Byte) (els : TileEls) (p : Place) (red : RedSt) (sums : Sums) : TileOut :=
  let get (i : Nat) : Option W32 :=
    match j.a with
    | none => none
    | some w =>
      if i < w.elems then
        let x := rawAt rd w.fmt (w.walkLoc i)
        some (inVal (cfgInt j.cfg) w.fmt x.1 x.2)
      else none
  let q := expandTile get els red.stream
  let o := j.emit q.1 p.tile sums
  { commits := oneCommit o.1, atoms := [], red := { red with stream := q.2 },
    sums := { o.2 with streamed := o.2.streamed + (q.2 - red.stream) } }

/-! One tile. -/

/-- ROTATE (R582 to R584): each row, scaled by k when SRC_B is present, through the mesh. -/
def Job.runRotate (j : Job) (els : TileEls) (p : Place) (red : RedSt) (sums : Sums)
    (rot : Nat → List W32 → List W32) : TileOut :=
  let t := (mapTile (fun r c e =>
      if cfgBypass j.cfg 3 then e else arithStage j.cfg j.k (red.entry j.axis r c) 96 e) els).zipIdx.map (fun row =>
    let ys := rot row.2 (row.1.map (fun e => e.x))
    row.1.zipIdx.map (fun e => { e.1 with x := at! 0 ys e.2 }))
  let o := j.emit t p.tile sums
  { commits := oneCommit o.1, atoms := [], red := red, sums := o.2 }

/-- What input tile `n` does, once every byte it reads is at hand. -/
def Job.run (j : Job) (rd : Nat → Byte) (rows : List Nat) (tap : List W32) (n : Nat) (us : List Nat) (red : RedSt)
    (sums : Sums) (rot : Nat → List W32 → List W32) (free : Nat → Nat) : TileOut :=
  let p := j.place n
  let els := j.load rd rows tap p.tile us
  match j.op with
  | .copy => j.runCopy els p red sums
  | .scatter => j.runScatter els rows red sums
  | .reduce => j.runReduce els p red sums free
  | .softmax | .softmaxPart => j.runSoftmax rd els p red sums
  | .softmaxFix => j.runFix rd els p red sums
  | .rmsnorm => j.runRms els p red sums
  | .rope => j.runRope els p red sums
  | .compress => j.runCompress els red sums
  | .expand => j.runExpand rd els p red sums
  | .rotate => j.runRotate els p red sums rot
  | _ => j.runPlain els p red sums

end Sys2Proof.Machine
end

