-- ==== Sys2Proof/Machine/VerbLife.lean ====
section
/-!
DEFINITION. The end of a verb: committing its output tiles (R202, R569), abandonment (Table 7-3, R364), the steps of
retirement (Table 1-3) with conjunction signals (R290, R347, R348) and completion entries (Table 9-2), preemption and
resumption (R404 to R406, R168).
-/
namespace Sys2Proof.Machine

/-! Verbs in their places. -/

/-- Are two records of one verb? -/
def Verb.same (a b : Verb) : Bool := decide (a.ticket = b.ticket) && decide (a.part = b.part)

/-- Is a queue entry this verb? -/
def QEnt.isVerb (v : Verb) : QEnt → Bool
  | .verb w => v.same w
  | .stream _ => false

/-- The oldest verb of an engine queue: the entry that has not started, behind address-stream ops only. -/
def CoreSt.head (c : CoreSt) : Option Verb := c.queue.findSome? (fun e => match e with | .verb v => some v | .stream _ => none)

/-- Change a verb in an engine queue. -/
def CoreSt.setQueued (c : CoreSt) (v : Verb) : CoreSt :=
  { c with queue := c.queue.map (fun e => if e.isVerb v then .verb v else e) }

/-- VALID of the two chain configurations, as the verbs that they hold make it (Table 10-3). A set that holds no verb is
cleared (notes/assumptions/43.md). -/
def CoreSt.tidy (c : CoreSt) : CoreSt :=
  let put (b : Bool) (w : BitVec 384) : BitVec 384 := if b then w ||| 0x1000 else 0
  { c with cfgA := put (c.active.isSome || c.pre.isSome || !c.retiring.isEmpty) c.cfgA,
           cfgS := put (c.head.any (fun v => decide (v.stage = .admitted))) c.cfgS }

/-- Take a verb out of its core, wherever it stands. -/
def CoreSt.drop (c : CoreSt) (v : Verb) : CoreSt :=
  let act := c.active.any v.same
  CoreSt.tidy
    { c with
      queue := c.queue.filter (fun e => !e.isVerb v), active := if act then none else c.active,
      retiring := c.retiring.filter (fun w => !v.same w), pre := if c.pre.any v.same then none else c.pre,
      preemptReq := c.preemptReq && !act, rdata := if act then [] else c.rdata,
      heldReads := if act then [] else c.heldReads }

/-! Address streams. -/

/-- Rows of a whole view. -/
def View.rows (v : View) : Nat :=
  if v.walker then v.tiles * v.count 1
  else if v.rank = 1 then
    let m := v.count 0 % 4096
    v.count 0 / 4096 * 64 + (if m = 0 then 0 else if m < 64 then 1 else ceilDiv m 64)
  else ceilDiv (v.count 0) 64 * v.count 1 * v.count 2 * v.count 3 * v.count 4 * v.count 5

/-- Rows of the first `n` tiles. -/
def View.rowsUpTo (v : View) (n : Nat) : Nat := (List.range n).foldl (fun a t => a + shapeRows (v.shape t)) 0

/-- Does a verb take its rows from address streams (R385)? -/
def Verb.streams (v : Verb) : Bool :=
  decide (termOf (slotOpnd v.slot 0) = some .stream) || decide (termOf (slotOpnd v.slot 1) = some .stream)

/-- The input tiles of a verb that are complete (R404): those before the first one whose output has not begun to commit. -/
def Verb.complete (v : Verb) : Nat :=
  match v.keeps with
  | [] => v.done
  | e :: _ => e.tile

/-- TILES_DONE (Table 21-7): the complete tiles of the active verb, or of the preempted one. -/
def CoreSt.tilesDone (k : CoreSt) : Nat :=
  match k.active <|> k.pre with
  | some v => v.complete
  | none => 0

/-- The streamed addresses that tiles not yet complete have taken, which stay in the queue (notes/assumptions/52.md). -/
def Verb.keptRows (v : Verb) : Nat := v.keeps.foldl (fun n e => n + e.rows) 0

/-- The addresses that a verb in the chain has still to consume. -/
def Verb.rowsLeft (v : Verb) : Nat :=
  if v.streams then v.job.grid.rows - v.job.grid.rowsUpTo v.complete else 0

/-- The queue after its streams gave `n` addresses: an op that has given its last one leaves its entry (R327). -/
def consume : List QEnt → Nat → List QEnt
  | [], _ => []
  | .verb v :: q, _ => .verb v :: q
  | .stream m :: q, n =>
    let k := min n (m.count - m.used)
    if m.used + k = m.count then consume q (n - k) else .stream { m with used := m.used + k } :: q

/-! Output tiles. -/

/-- Output bytes of input tile `n` split by device, one tile each. -/
def splitTiles (ticket part n : Nat) (bs : List OutByte) : List OutTile :=
  (bs.foldl (fun l b => insertNat (gaDev b.addr.toNat) l) []).map (fun d =>
    { ticket := ticket, part := part, tile := n, bytes := bs.filter (fun b => decide (gaDev b.addr.toNat = d)), remote := 0,
      begun := false })

/-- The bytes of a tile in address order, later writes over earlier ones (R475). -/
def tileMap (bs : List OutByte) : SMap (Byte × Byte) :=
  bs.foldl (fun m b =>
    let old := (SMap.find m b.addr.toNat).getD (0, 0)
    SMap.put m b.addr.toNat (mergeByte old.1 b.val b.mask, old.2 ||| b.mask)) []

/-- Do the bytes of a tile lie in the own store? -/
def State.tileLocal (s : State) (t : OutTile) : Bool := t.bytes.all (fun b => s.isLocal b.addr.toNat)

/-- The local write of a tile: one entry for each byte, with the bits that are written (R393). -/
def OutTile.writes (t : OutTile) : List WByte :=
  (tileMap t.bytes).map (fun e => { off := gaOff e.1, val := e.2.1, mask := e.2.2 })

/-- Commit a local tile of core `c` in one step (R202); with it the first address left unwritten because its word is
poisoned and only partly covered (R224). -/
def State.commitLocal (s : State) (c : CoreId) (t : OutTile) : State × Option Nat :=
  let ws := t.writes
  let s1 := s.checkWrite ws
  (s.storeWrite (.commit c.val) ws, (ws.find? (fun b => poisonStops s1.store.poison ws b.off)).map (fun b => s.ga b.off))

/-- Does a tile belong to a verb? -/
def OutTile.ofVerb (t : OutTile) (v : Verb) : Bool := decide (t.ticket = v.ticket) && decide (t.part = v.part)

/-- Does an outstanding request serve a verb of core `c`? -/
def RemReq.ofVerb (r : RemReq) (c : CoreId) (v : Verb) : Bool :=
  decide (r.core = c.val) && decide (r.ticket = v.ticket) && decide (r.part = v.part)

/-! The mesh log (R598). -/

/-- The place of a core among the cores of its partition, and how many there are. -/
def State.coreRank (s : State) (p : Nat) (c : CoreId) : Nat × Nat :=
  (((s.coresOf p).findIdx? (fun d => decide (d = c))).getD 0, (s.coresOf p).length)

/-- Set the recorded count of a core. -/
def State.setMeshCount (s : State) (p : Nat) (c : CoreId) (n : Nat) : State :=
  s.setDom (K.meshLogCounts p) (patch (s.dsgl (K.meshLogCounts p)) (4 * (s.coreRank p c).1) (leBytes 4 n))

/-- The entries of a core's mesh log whose tiles are complete: those before the first tile that is not (R404). -/
def CoreSt.meshComplete (k : CoreSt) : Nat :=
  (((k.retiring ++ k.active.toList).flatMap (fun v => v.keeps)).head?.map (fun e => e.cursor)).getD k.meshCursor

/-- MESH_LOG_COUNTS of a core that records follows the tiles that are complete (R598). -/
def State.syncMesh (s : State) (c : CoreId) (p : Nat) : State :=
  if s.meshRecord p then s.setMeshCount p c s.cores[c].meshComplete else s

/-! Memos. -/

/-- The memo registers that a verb writes. -/
def Verb.memos (v : Verb) : List MReg :=
  if slotMemoEn v.slot then
    (List.range v.op.sumKinds.length).map (fun i => (Fin.ofNat 16 (slotMemoBase v.slot + i) : MReg))
  else []

/-- Take one from the pending counts of registers (R291). -/
def Thread.unpend (h : Thread) (ks : List MReg) : Thread :=
  ks.foldl (fun h k => { h with pend := vmod h.pend k (fun n => n - 1) }) h

/-! Abandonment. -/

/-- A core's tile leaves the mesh and its queue (R404). -/
def State.leaveMesh (s : State) (c : CoreId) : State :=
  s.onMesh (fun m => { m with granted := if m.granted = some c.val then none else m.granted,
                              waiting := m.waiting.filter (fun w => w.1 ≠ c.val) })

/-- The pending signals once a verb is abandoned (R290): none that waits for it is applied. One whose clause may still push
stays, marked. -/
def dropSigs (ticket : Nat) (l : List PendSig) : List PendSig :=
  (l.filter (fun g => g.opened || !g.tickets.contains ticket)).map (fun g =>
    if g.tickets.contains ticket then { g with tickets := g.tickets.filter (fun n => n ≠ ticket), dropped := true } else g)

/-- The write buffer without the output of an abandoned verb that has not begun to commit; what has begun goes on without
its verb. -/
def orphan (v : Verb) (l : List OutTile) : List OutTile :=
  (l.filter (fun t => !t.ofVerb v || t.begun)).map (fun t => if t.ofVerb v then { t with ticket := 0 } else t)

/-- The same for outstanding requests: those of its tile transactions go on, the others are forgotten. -/
def orphanReqs (c : CoreId) (v : Verb) (l : List RemReq) : List RemReq :=
  (l.filter (fun r => !r.ofVerb c v || decide (r.type = 0x03) || decide (r.type = 0x04))).map (fun r =>
    if r.ofVerb c v then { r with ticket := 0 } else r)

/-- Abandon a verb (Table 7-3, R364): tiles whose commit has begun complete and the others go, it settles from its meters,
its entries, signal and pending memos go, its remote answers will be discarded (notes/assumptions/29.md), and the rounding
generator and the cursor of the mesh log go back to its last complete tile (R422, R598). A verb that waits at step 6 has
settled and written its memos. -/
def State.abandon (s : State) (c : CoreId) (v : Verb) : State :=
  let p := pid v.part
  let inChain := s.cores[c].active.any v.same
  let s2 := (s.settle p v.res v.metered).onPart p (fun q =>
    { q with
      sb := q.sb.filter (fun e => e.ticket ≠ v.ticket),
      energyWait := q.energyWait && !decide (q.energyQ.head? = some v.ticket),
      energyQ := q.energyQ.filter (fun n => n ≠ v.ticket),
      sigs := dropSigs v.ticket q.sigs })
  let first := if inChain then v.keeps.head? else none
  let s3 := (s2.onCore c (fun k => { (k.drop v) with
    wbuf := orphan v k.wbuf, lfsr := (first.map (fun e => e.lfsr)).getD k.lfsr,
    meshCursor := (first.map (fun e => e.cursor)).getD k.meshCursor })).syncMesh c v.part
  let s4 := s3.onFab (fun f => { f with outstanding := orphanReqs c v f.outstanding })
  let s5 := s4.forEach (List.finRange 4) (fun u h => u.onTap h (fun k =>
    if inChain && decide (termOf (slotOpnd v.slot 1) = some .tap) then
      { k with bufs := k.bufs.filter (fun b => b.1 ≠ c.val),
               bus := k.bus.map (fun b => if b.dest = c.val then { b with wanted := false } else b) }
    else k))
  (if inChain then s5.leaveMesh c else s5).onThread (tid v.thread) (fun h => if v.waits6 then h else h.unpend v.memos)

/-- A partition fault of a verb: raised, and the verb abandoned (R629, step 1). -/
def State.verbFault (s : State) (c : CoreId) (v : Verb) (kind cause addr : Nat) : State :=
  (s.raiseFault (pid v.part) kind cause c.val false v.ticket addr).abandon c v

/-- A descriptor fault of a verb (R267, R390, R465): `low` is the value of LAST_DESC_FAULT [15:0]. -/
def State.descFault (s : State) (c : CoreId) (v : Verb) (cause low : Nat) : State :=
  ((s.bump (K.descFaults v.part)).setSgl (K.lastDescFault v.part) (low % 65536 + 65536 * cause)).verbFault c v 3 cause
    v.clause.toNat

/-! Remote output tiles (R569). -/


/-- Take the leading bytes of one 192-byte run. -/
def takeRun (base : Nat) : SMap (Byte × Byte) → SMap (Byte × Byte) × SMap (Byte × Byte)
  | [] => ([], [])
  | e :: l => if e.1 < base + 192 then let q := takeRun base l; (e :: q.1, q.2) else ([], e :: l)

/-- A tile's bytes in runs of at most 192 bytes, one TILE_DATA flit each. -/
def tileRuns : Nat → SMap (Byte × Byte) → List (SMap (Byte × Byte))
  | 0, _ => []
  | _, [] => []
  | n + 1, e :: l => let q := takeRun e.1 (e :: l); q.1 :: tileRuns n q.2

/-- The runs of a tile: row after row. -/
def OutTile.runs (t : OutTile) : List (SMap (Byte × Byte)) :=
  (t.bytes.foldl (fun l b => insertNat b.row l) []).flatMap (fun r =>
    let m := tileMap (t.bytes.filter (fun b => decide (b.row = r)))
    tileRuns m.length m)

/-- The payload of a run: its first address, its bytes and its byte mask. A byte of which only a nibble is written goes
with the other nibble free, since a flit's mask has one bit a byte (notes/assumptions/30.md). -/
def runData (free : Byte) (r : SMap (Byte × Byte)) : Nat × List Byte × Nat :=
  match r with
  | [] => (0, [], 0)
  | e :: _ =>
    let n := (r.getLast?.map (fun x => x.1)).getD e.1 + 1 - e.1
    let byte (i : Nat) : Byte := match SMap.find r (e.1 + i) with
      | some x => mergeByte free x.1 x.2
      | none => 0
    (e.1, (List.range n).map byte,
      (List.range n).foldl (fun a i => a + (if (SMap.find r (e.1 + i)).isSome then 2 ^ i else 0)) 0)

/-- How many tile transactions a core has open. -/
def CoreSt.openTiles (c : CoreSt) : Nat := (c.wbuf.filter (fun t => t.remote ≠ 0)).length

/-- The output of input tile `n` of a verb begins to commit (R404): that tile and those before it are complete, and so are
the next ones that left no output in the buffer `l`. -/
def Verb.begin (v : Verb) (l : List OutTile) (n : Nat) : Verb :=
  { v with keeps := (v.keeps.dropWhile (fun e => decide (e.tile ≤ n))).dropWhile (fun e =>
      !l.any (fun t => t.ofVerb v && decide (t.tile = e.tile) && !t.begun)) }

/-- A tile of the write buffer begins to commit: every part of its output has begun, and the addresses of tiles now
complete are consumed. -/
def CoreSt.begin (k : CoreSt) (t : OutTile) : CoreSt :=
  let buf := k.wbuf.map (fun x =>
    if x.ticket = t.ticket ∧ x.part = t.part ∧ x.tile = t.tile then { x with begun := true } else x)
  let late (v : Verb) : Verb := if t.ofVerb v then v.begin buf t.tile else v
  let k1 := { k with wbuf := buf, retiring := k.retiring.map late }
  match k.active with
  | none => k1
  | some v => { k1 with active := some (late v), queue := consume k.queue (v.keptRows - (late v).keptRows) }

/-- Ask for the commit of a remote tile: TILE_OPEN. -/
def State.openTile (s : State) (c : CoreId) (t : OutTile) : State :=
  match t.bytes with
  | [] => s
  | b :: _ =>
    let tag := s.fab.nextTag
    let r : RemReq := { tag := tag, type := 0x03, part := t.part, thread := 80, core := c.val, dev := gaDev b.addr.toNat,
                        tick := 0, addr := b.addr, dst := 0, ticket := t.ticket }
    let mark (l : List OutTile) : List OutTile :=
      l.zipIdx.map (fun e => if some e.2 = l.findIdx? (fun x => x.remote = 0) then { e.1 with remote := 1 + tag.toNat } else e.1)
    (s.sendReq r t.runs.length 0 []).onCore c (fun k => { k.begin t with wbuf := mark (k.begin t).wbuf })

/-- Commit the oldest output tile of a core whose commit has not been asked for (R202, R569). -/
def State.commitOldest (s : State) (c : CoreId) : State :=
  let k := s.cores[c]
  match k.wbuf.find? (fun t => t.remote = 0) with
  | none => s
  | some t =>
    if s.tileLocal t then
      let r := s.commitLocal c t
      let rest (l : List OutTile) : List OutTile := l.eraseIdx ((l.findIdx? (fun x => x.remote = 0)).getD l.length)
      let s1 := (r.1.onCore c (fun k => { k.begin t with wbuf := rest (k.begin t).wbuf })).syncMesh c t.part
      match r.2 with
      | none => s1
      | some a =>
        match s1.cores[c].verbs.find? (fun v => t.ofVerb v) with
        | some v => s1.verbFault c v 2 2 a
        | none => s1.raiseFault (pid t.part) 2 2 c.val false t.ticket a
    else if k.openTiles < 2 ∧ s.fab.outstanding.length < 2048 ∧
        s.outstandingOf (fun r => decide (r.core = c.val)) < 24 then (s.openTile c t).syncMesh c t.part
    else s

/-! Signals. -/

/-- The cause of the address fault that a signal to `ref` takes on this device, if any (R347, R348). -/
def State.signalCause (s : State) (p : PartId) (ref : Nat) : Option Nat :=
  if conjRefOk ref = false then some 5
  else if s.devOk (gaDev ref) = false then some 6
  else if s.isLocal ref ∧ s.conjRights (conjIdx (gaOff ref)) s.ownDev p.val = false then some 5
  else none

/-- Count a refused right (R348): the reference is legal and local. -/
def State.countRights (s : State) (ref : Nat) : State :=
  if conjRefOk ref ∧ s.isLocal ref = true then s.bump K.conjRightsFaults else s

/-- Apply a signal of a thread's clause (R347, R348, R351, R354): checked and applied here, or handed to the fabric. -/
def State.emitSignal (s : State) (t : ThreadId) (p : PartId) (ref v : Nat) : State :=
  match s.signalCause p ref with
  | some c => (s.countRights ref).threadAccessFault t p 1 c ref
  | none =>
    if s.isLocal ref then s.applySignal (conjIdx (gaOff ref)) v s.ownDev p.val 0
    else s.sendMsg (s.mkMsg 0x06 p.val (gaDev ref) 0 ref v [])

/-- Step 5 of Table 1-3 (R290): the signals for which this verb was the last of its clause to reach the step. -/
def State.signalStep (s : State) (p : PartId) (ticket : Nat) : State :=
  let gs := s.parts[p].sigs.map (fun g => { g with tickets := g.tickets.filter (fun n => n ≠ ticket) })
  let due := gs.filter (fun g => g.tickets.isEmpty && !g.opened && !g.dropped)
  let s1 := s.onPart p (fun q => { q with sigs := gs.filter (fun g => !(g.tickets.isEmpty && !g.opened)) })
  s1.forEach due (fun u g => u.emitSignal (tid g.thread) p g.ref.toNat g.value.toNat)

/-! Retirement. -/

/-- The value of a summary kind (Table 10-9). LAST_REDUCED of another axis than 3, and EMPTY_LINES of axis 3, have no
value in the spec: a free function of the verb's configuration and reduction (R15). -/
def Verb.sumVal (v : Verb) (kind : Nat) : W64 :=
  let axis3 := decide (cfgBits v.cfg 228 227 = 3)
  let free := Config.openSum v.cfg kind v.red.acc v.red.cnt
  match kind with
  | 1 => BitVec.ofNat 64 v.sums.active
  | 2 => BitVec.ofNat 64 v.sums.streamed
  | 3 => BitVec.ofNat 64 v.sums.saturated
  | 4 => BitVec.ofNat 64 v.sums.nanOut
  | 5 => BitVec.ofNat 64 v.sums.infOut
  | 6 => v.sums.maxMag
  | 7 => if axis3 then v.sums.last else free
  | _ => if axis3 then free else BitVec.ofNat 64 v.sums.emptyLines

/-- Step 3: the memo summaries. -/
def State.memoStep (s : State) (v : Verb) : State :=
  let vals := v.op.sumKinds.map v.sumVal
  s.onThread (tid v.thread) (fun h =>
    ((v.memos.zip vals).foldl (fun h e => { h with m := vset h.m e.1 e.2 }) h).unpend v.memos)

/-- Is the completion ring of a partition full? -/
def State.complFull (s : State) (p : PartId) : Bool :=
  decide (s.act (K.complEntries p.val) ≤ (s.parts[p].produced - s.parts[p].consumed).toNat)

/-- Does a verb write a completion entry (R329)? -/
def State.wantsEntry (s : State) (v : Verb) : Bool := slotComplete v.slot && decide (s.act (K.complEnable v.part) = 1)

/-- A completion entry (Table 9-2). -/
def complEntry (c : CoreId) (v : Verb) (phase : Bool) (tick : Nat) : List Byte :=
  leBytes 32 (v.clause.toNat + v.ticket % 2 ^ 32 * 2 ^ 64 + slotOp v.slot * 2 ^ 96 + c.val * 2 ^ 108 +
    b2n v.second * 2 ^ 114 + b2n v.resumed * 2 ^ 115 + b2n phase * 2 ^ 127 + tick % 2 ^ 64 * 2 ^ 128 +
    v.energy % 2 ^ 64 * 2 ^ 192)

/-- Steps 6 and 7 of a verb that writes an entry into a ring that has room (R329, R330, R334). -/
def State.entryStep (s : State) (c : CoreId) (v : Verb) : State :=
  let p := pid v.part
  let n := s.parts[p].produced.toNat
  let size := max 1 (s.act (K.complEntries p.val))
  let off := gaOff (s.act (K.complBase p.val)) + 32 * (n % size)
  let s1 := s.storeWrite (.commit c.val) (wbytes off (complEntry c v (decide (n / size % 2 = 0)) s.tick))
  let s2 := s1.onPart p (fun q => { q with produced := q.produced + 1 })
  let vec := s2.act (K.complVector p.val)
  if vec = 0xFF then s2 else s2.msix vec

/-- A verb that has done its last step: counted and gone. -/
def State.retireDone (s : State) (c : CoreId) (v : Verb) : State :=
  let s1 := s.onCore c (fun k => { (k.drop v) with retired := wrap64 (k.retired + 1) })
  (s1.add64 K.telVerbs 1).add64 (K.telPartVerbs v.part) 1

/-- Steps 6 and 7, or the wait for room at step 6 (R331). -/
def State.lastSteps (s : State) (c : CoreId) (v : Verb) : State :=
  if s.wantsEntry v = false then s.retireDone c v
  else if s.complFull (pid v.part) then
    if v.waits6 then s
    else (s.bump (K.completionStalls v.part)).onCore c (fun k =>
      { k with retiring := k.retiring.map (fun w => if v.same w then { v with waits6 := true } else w) })
  else (s.entryStep c v).retireDone c v

/-- Steps 2 to 7 of Table 1-3. Once settled, the verb holds no reservation and no meter. -/
def State.retireVerb (s : State) (c : CoreId) (v : Verb) : State :=
  let p := pid v.part
  let s1 := s.onPart p (fun q => { q with sb := q.sb.filter (fun e => e.ticket ≠ v.ticket) })
  let s2 := (s1.memoStep v).settle p v.res v.metered
  let w := { v with energy := v.metered / 1000, res := 0, metered := 0 }
  (s2.signalStep p v.ticket).lastSteps c w

/-- Is step 1 of a verb complete: no output tile is left in the write buffer and no atomic awaits its answer? -/
def State.stepOneDone (s : State) (c : CoreId) (v : Verb) : Bool :=
  !s.cores[c].wbuf.any (fun t => t.ofVerb v) && !s.fab.outstanding.any (fun r => r.ofVerb c v)

/-- Every verb of a partition that is pushed and neither retired nor abandoned. -/
def State.verbsOf (s : State) (p : Nat) : List Verb :=
  (List.finRange 64).flatMap (fun c => s.cores[c].verbs.filter (fun v => decide (v.part = p)))

/-- May a verb do steps 2 to 7 now: in replayable directed mode only in ticket order (R643)? -/
def State.retireTurn (s : State) (v : Verb) : Bool :=
  !(s.replay v.part && !s.auto v.part) || (s.verbsOf v.part).all (fun w => decide (v.ticket ≤ w.ticket))

/-- VERB_RETIRE (R22): the oldest verb that has left the chain retires once its output is committed. -/
def State.applyRetire (s : State) (c : CoreId) : State :=
  match s.cores[c].retiring with
  | [] => s
  | v :: _ =>
    if s.coreGo c (pid v.part) ∧ v.waits6 = false ∧ s.stepOneDone c v = true ∧ s.retireTurn v = true then
      s.retireVerb c v
    else s

/-- COMPLETION_STALL_END (R331): a retirement that waits at step 6 goes on once an entry is free. -/
def State.applyStallEnd (s : State) (c : CoreId) : State :=
  match s.cores[c].retiring with
  | [] => s
  | v :: _ => if v.waits6 ∧ s.coreGo c (pid v.part) then s.lastSteps c v else s

/-! Preemption. -/

/-- Mark or clear the torn marks of a verb (R344, R345). -/
def Part.setTorn (q : Part) (ticket : Nat) (b : Bool) : Part :=
  { q with sb := q.sb.map (fun e => if e.ticket = ticket then { e with torn := b && e.write } else e) }

/-- Has a tap burst for core `c` begun that its verb has not taken yet (R404)? -/
def State.tapBusy (s : State) (c : CoreId) : Bool :=
  (List.finRange 4).any (fun h =>
    s.tap[h].bus.any (fun b => decide (b.dest = c.val) && b.wanted) || s.tap[h].bufs.any (fun b => decide (b.1 = c.val)))

/-- Is a preempted verb abandoned at once by a pending FLUSH 3 (Table 9-5)? -/
def State.flushKills (s : State) (c : CoreId) (v : Verb) : Bool :=
  (decide (s.cores[c].flush = 3) && s.cores[c].flushFor.contains v.ticket) ||
    decide (s.threads[tid v.thread].flush = 3)

/-- Count and abandon a verb that a FLUSH removes (R364), with the addresses that it has not consumed. -/
def State.flushAbandon (s : State) (c : CoreId) (v : Verb) : State :=
  let n := if s.cores[c].active.any v.same || s.cores[c].pre.any v.same then v.rowsLeft else 0
  ((s.bump K.flushAbandoned).abandon c v).onCore c (fun k => { k with queue := consume k.queue n })

/-- The context of a verb that is preempted (R405): as it was when it took its first tile that is not complete, with the
rounding state, which is `g` when every tile is complete. -/
def Verb.context (v : Verb) (g : W32) : Verb :=
  match v.keeps with
  | [] => { v with stage := .preempted, rnd := some g }
  | e :: _ => { v with stage := .preempted, done := e.tile, red := e.red, sums := e.sums, keeps := [], rnd := some e.lfsr }

/-- A core whose verb is preempted (R404, R422): output that has not begun to commit is discarded, and the rounding
generator and the cursor of the mesh log go back to the last complete tile. -/
def CoreSt.preempt (k : CoreSt) (v : Verb) : CoreSt :=
  let w := v.context k.lfsr
  CoreSt.tidy
    { k with active := none, pre := some w, preemptReq := false, rdata := [], heldReads := [],
             lfsr := w.rnd.getD k.lfsr, meshCursor := (v.keeps.head?.map (fun e => e.cursor)).getD k.meshCursor,
             wbuf := k.wbuf.filter (fun t => !t.ofVerb v || t.begun || decide (t.tile < w.done)) }

/-- May the running verb of a core be preempted now: asked for, powered, at a tile boundary, with no tap tile begun
(R404), and its partition not in reset (R362)? -/
def State.mayPreempt (s : State) (c : CoreId) (v : Verb) : Bool :=
  s.cores[c].preemptReq && s.coreUp c.val && !s.inFault && !s.tapBusy c && decide (s.parts[pid v.part].state ≠ 6) &&
    !(decide (v.op = .scatter) && decide (v.red.stream ≠ 0))

/-- PREEMPTION (R404, R405): at the tile boundary the running verb's context is saved and its write entries are torn. -/
def State.applyPreemption (s : State) (c : CoreId) : State :=
  match s.cores[c].active with
  | none => s
  | some v =>
    if s.mayPreempt c v = false then s
    else
      let w := v.context s.cores[c].lfsr
      let s0 := if v.op = .rotate then s.leaveMesh c else s
      let s1 := (s0.onCore c (fun k => k.preempt v)).syncMesh c v.part
      let s2 := (s1.onPart (pid v.part) (fun q => q.setTorn v.ticket true)).bump (K.tornMarked v.part)
      let s3 := s2.bump (K.preemptions c.val)
      if s3.flushKills c w then s3.flushAbandon c w else s3

/-- VERB_RESUME (R406, R168, R345): a preempted verb goes on, topped up when its cluster's scale has risen. While it waits
for its top-up, later verbs of its partition are admitted: R158 orders admissions only (notes/assumptions/55.md). -/
def State.applyResume (s : State) (c : CoreId) : State :=
  match s.cores[c].pre with
  | none => s
  | some v =>
    let p := pid v.part
    if s.startGo c p = false ∨ s.cores[c].active.isSome then s
    else
      let now := s.scaleOf c.val
      let d := topUp v.res v.scale now
      if d ≠ 0 ∧ s.canReserve p d = false then
        if v.topWait then s
        else (s.bump (K.energyWaits v.part)).onCore c (fun k => { k with pre := some { v with topWait := true } })
      else
        let w := { v with stage := .running, resumed := true, res := v.res + d, scale := max v.scale now, topWait := false,
                          rnd := none }
        let s1 := if d = 0 then s else s.reserve p d
        let s2 := s1.onCore c (fun k =>
          CoreSt.tidy { k with pre := none, active := some w, cfgA := w.cfg, lfsr := v.rnd.getD k.lfsr })
        s2.onPart p (fun q => q.setTorn v.ticket false)

end Sys2Proof.Machine
end

