-- ==== Sys2Proof/Machine/Clauses.lean ====
section
/-!
DEFINITION. Threads at work (chapter 8): pushing verbs and address-stream ops (R279 to R284, R288, R289, R328, R336,
R645), waiting on conjunctions (R352, R357), fetching clauses (R293, R294), executing one in the order of Table 8-10,
and resuming from a stopping point (R292).
-/
namespace Sys2Proof.Machine

/-! Where a clause goes on. -/

/-- Go past the current instruction or push of the clause. -/
def Thread.advance (h : Thread) : Thread :=
  if h.cl.active = false then h
  else if (h.cl.step = 3 ∨ h.cl.step = 5) ∧ h.cl.sub = 0 then { h with cl := { h.cl with sub := 1 } }
  else { h with cl := { h.cl with step := h.cl.step + 1, sub := 0 } }

/-- Leave the stopping point of a thread and go past it. -/
def State.resumeThread (s : State) (t : ThreadId) : State :=
  s.onThread t (fun h => { h with wait := .none }.advance)

/-! Pushing. -/

/-- The engine queue that a push of thread `t` enters. -/
def pushCore (t : ThreadId) (o : PushOp) : CoreId :=
  match o with
  | .verb _ slot _ _ => if h : t.val < 64 then ⟨t.val, h⟩ else cid (slotCore slot)
  | .stream v => cid (asCore v)

/-- Would a push go beyond STOP_AFTER (R645)? -/
def State.stopHolds (s : State) (t : ThreadId) (p : PartId) : Bool :=
  let n := s.sgl (K.stopAfter p.val)
  decide (n ≠ 0) && decide (n < (if t.val < 64 then s.threads[t].verbsPushed else s.parts[p].ticket) + 1)

/-- The verb that a push makes: what it captures (R279, R280), and its ticket. -/
def State.newVerb (s : State) (t : ThreadId) (p : PartId) (second : Bool) (slot : BitVec 128) (adv : W32)
    (imm : Option W64) : Verb :=
  let c := pushCore t (.verb second slot adv imm)
  let h := s.threads[t]
  let k := (List.range 4).findSome? (fun f =>
    let o := slotOpnd slot f
    if opndKind o = 3 ∧ opndSub o = 2 then some (h.sget (Fin.ofNat 64 (bits o 5 0))) else none)
  { slot := slot, adv := adv, k := k, imm := imm,
    caps := Vector.ofFn (fun f : Fin 4 =>
      let o := slotOpnd slot f.val
      if opndKind o = 2 then some s.cores[c].walkers[(Fin.ofNat 8 (bits o 2 0) : Fin 8)] else none),
    descs := Vector.replicate 4 none, ticket := s.parts[p].ticket + 1, part := p.val, thread := t.val,
    clause := BitVec.ofNat 64 (s.clauseAddr t), second := second, stage := .queued, cfg := 0, res := 0, scale := 0,
    metered := 0, tiles := 0, done := 0, red := RedSt.zero, sums := Sums.zero, topWait := false, resumed := false,
    awaited := 0, waits6 := false, energy := 0, fullCounted := false, hazCounted := false, keeps := [], rnd := none }

/-- A verb enters an engine queue of cluster `k`: its clock runs, and the planner period has seen work (R115, R180). -/
def State.clusterBusy (s : State) (k : ClusterId) : State :=
  s.onAon (fun a => { a with clocks := { a.clocks with
    stopped := vset a.clocks.stopped k false, idle := vset a.clocks.idle k 0, ran := vset a.clocks.ran k true } })

/-- A verb pushed (R289, R291, R336). -/
def State.pushAccepted (s : State) (t : ThreadId) (p : PartId) (v : Verb) : State :=
  let c := pushCore t (.verb v.second v.slot v.adv v.imm)
  let s1 := (s.onCore c (fun k => { k with queue := k.queue ++ [.verb v] })).clusterBusy (Fin.ofNat 8 (c.val / 8))
  let s2 := s1.onPart p (fun q =>
    { q with ticket := v.ticket,
             sigs := q.sigs.map (fun g =>
               if g.thread = t.val ∧ g.opened then { g with tickets := g.tickets ++ [v.ticket] } else g) })
  s2.onThread t (fun h =>
    let h1 := { h with verbsPushed := wrap64 (h.verbsPushed + 1), holding := false,
                       cl := { h.cl with pushed := h.cl.pushed ++ [v.ticket] } }
    let h2 := v.memos.foldl (fun h k => { h with pend := vmod h.pend k (fun n => n + 1) }) h1
    if slotTry v.slot then h2.pset (Fin.ofNat 8 (slotPreg v.slot)) true else h2)

/-- A push waits for room (R289, R328). -/
def State.pushWaits (s : State) (t : ThreadId) (o : PushOp) : State :=
  (s.bump (K.queueWaits (pushCore t o).val)).onThread t (fun h => { h with wait := .push o })

/-- The push of a verb slot (R288, R289, R306, R645). -/
def State.pushVerb (s : State) (t : ThreadId) (p : PartId) (second : Bool) (slot : BitVec 128) (adv : W32)
    (imm : Option W64) : State × Next :=
  let o := PushOp.verb second slot adv imm
  let preg : PReg := Fin.ofNat 8 (slotPreg slot)
  let full := decide (16 ≤ s.cores[pushCore t o].used)
  if slotGuard slot ∧ s.threads[t].pget preg = false then (s, .done)
  else if slotTry slot ∧ full ∧ s.replay p.val = false then
    ((s.setP t preg false).onThread t (fun h => { h with pushRejected := sat32 (h.pushRejected + 1) }), .done)
  else if s.stopHolds t p then (s.onThread t (fun h => { h with holding := true }), .wait)
  else if full then (s.pushWaits t o, .wait)
  else (s.pushAccepted t p (s.newVerb t p second slot adv imm), .done)

/-- An address-stream op with the register values of its push (R283, R284). -/
def State.newStream (s : State) (t : ThreadId) (p : PartId) (v : W64) : Stream :=
  let h := s.threads[t]
  { part := p.val, thread := t.val, mode := asMode v, rb := h.sget (asRb v), rs := h.sget (asRs v), isize := asIsize v,
    shift := asShift v, count := asCount v, used := 0 }

/-- The push of an address-stream op (R283). -/
def State.pushStream (s : State) (t : ThreadId) (p : PartId) (v : W64) : State × Next :=
  let c := pushCore t (.stream v)
  if 16 ≤ s.cores[c].used then (s.pushWaits t (.stream v), .wait)
  else (s.onCore c (fun k => { k with queue := k.queue ++ [.stream (s.newStream t p v)] }), .done)

/-- A push. -/
def State.push (s : State) (t : ThreadId) (p : PartId) (o : PushOp) : State × Next :=
  match o with
  | .verb second slot adv imm => s.pushVerb t p second slot adv imm
  | .stream v => s.pushStream t p v

/-- The SLOT of a fault in a push (Table 8-13). -/
def PushOp.slotNo : PushOp → Nat
  | .verb second _ _ _ => 4 + b2n second
  | .stream _ => 8

/-- PUSH_RESUME (R289): a push that waited is accepted once its queue has room. A core that a swap has taken out of the
partition meanwhile is refused as at the push (R257, Table 8-13, cause 9). -/
def State.applyPushResume (s : State) (t : ThreadId) : State :=
  match s.threads[t].wait, s.threadPart t with
  | .push o, some p =>
    if s.threadGo t p = false then s
    else if bit (s.coreMask p.val) (pushCore t o).val = false then s.threadFault t p 9 o.slotNo
    else if s.cores[pushCore t o].used < 16 then
      match s.push t p o with
      | (s1, .done) => s1.resumeThread t
      | (s1, _) => s1.onThread t (fun h => { h with wait := .none })
    else s
  | _, _ => s

/-! Conjunctions. -/

/-- WAIT_GE (R347, R348, R352, R357). -/
def State.waitConj (s : State) (t : ThreadId) (p : PartId) (ref v : Nat) : State × Next :=
  let set (u : State) (reg : Bool) (tag : BitVec 16) : State :=
    u.onThread t (fun h => { h with wait := .conj (BitVec.ofNat 64 ref) (BitVec.ofNat 32 v) reg tag u.tick })
  match s.signalCause p ref with
  | some c => ((s.countRights ref).threadAccessFault t p 1 c ref, .stop)
  | none =>
  if s.isLocal ref then
    if v ≤ s.conjVal (conjIdx (gaOff ref)) then (s, .done) else (set s false 0, .wait)
  else
    let tag := s.fab.nextTag
    let s1 := s.onFab (fun f => { f with nextTag := f.nextTag + 1 })
    (set (s1.sendMsg (s1.mkMsg 0x07 p.val (gaDev ref) tag.toNat ref (v + 2 ^ 32 * t.val) [])) true tag, .wait)

/-- WAIT_SATISFIED (R352): a thread whose local counter has reached its value resumes. -/
def State.applyWaitSatisfied (s : State) (t : ThreadId) : State :=
  match s.threads[t].wait, s.threadPart t with
  | .conj ref v _ _ _, some p =>
    if s.isLocal ref.toNat ∧ v.toNat ≤ s.conjVal (conjIdx (gaOff ref.toNat)) ∧ s.threadGo t p = true then
      s.resumeThread t
    else s
  | _, _ => s

/-- The conjunction op of a clause: its kind, reference and value (Table 8-8). -/
def Thread.conjOf (h : Thread) (ps : List W32) : Option (Nat × W64 × W32) :=
  (conjSlot ps).map (fun c =>
    (conjOp c, if conjNsrc c then (immSlot ps).getD 0 else h.sget (conjNreg c),
      if conjVsrc c then lo32 (h.sget (Fin.ofNat 64 (bits c.toNat 21 16))) else BitVec.ofNat 32 (conjValue c)))

/-- Open the clause's SIGNAL_AT_RETIRE, so that its pushes join it (R290). -/
def State.openSig (s : State) (t : ThreadId) (p : PartId) (ref : W64) (v : W32) : State :=
  if s.parts[p].sigs.any (fun g => decide (g.thread = t.val) && g.opened) then s
  else s.onPart p (fun q =>
    { q with sigs := q.sigs ++ [{ thread := t.val, ref := ref, value := v, tickets := [], opened := true, dropped := false }] })

/-- Close it after the pushes: when no verb of the clause was pushed it is applied now; when every pushed verb has
reached step 5 already, too; and never when one of them was abandoned (R290). -/
def State.closeSig (s : State) (t : ThreadId) (p : PartId) : State :=
  match s.parts[p].sigs.find? (fun g => decide (g.thread = t.val) && g.opened) with
  | none => s
  | some g =>
    let rest (l : List PendSig) : List PendSig := l.filter (fun x => !(decide (x.thread = t.val) && x.opened))
    if g.dropped then s.onPart p (fun q => { q with sigs := rest q.sigs })
    else if g.tickets.isEmpty then
      (s.onPart p (fun q => { q with sigs := rest q.sigs })).emitSignal t p g.ref.toNat g.value.toNat
    else s.onPart p (fun q => { q with sigs := rest q.sigs ++ [{ g with opened := false }] })

/-! Fetching (R293, R294). -/

/-- The count at which thread `t` fetches next. -/
def State.nextFetch (s : State) (t : ThreadId) (r : Fin 80) : W32 :=
  let h := s.threads[t]
  match h.fetchq.getLast? with
  | some e => e.1 + BitVec.ofNat 32 (e.2.length / 2)
  | none => if h.cl.active then s.rings[r].pc + BitVec.ofNat 32 h.cl.words else s.rings[r].pc

/-- Is the ring of a thread in use? -/
def State.ringOn (s : State) (r : Fin 80) : Bool := (s.ringInfo r).isSome

/-- The parcels of `n` words of a ring from count `k`. -/
def State.ringParcels (s : State) (r : Fin 80) (k : W32) (n : Nat) : List W32 :=
  (List.range n).flatMap (fun i =>
    let a := gaOff (s.ringAddr r (k + BitVec.ofNat 32 i))
    [BitVec.ofNat 32 (s.readWord a 4), BitVec.ofNat 32 (s.readWord (a + 4) 4)])

/-- What the store finds in `n` words of a ring from count `k` (R222, R223). -/
def State.checkRing (s : State) (r : Fin 80) (k : W32) (n : Nat) : State :=
  s.forEach (List.range n) (fun u i => u.checkRead (gaOff (s.ringAddr r (k + BitVec.ofNat 32 i))) 8)

/-- Is one of `n` words of a ring from count `k` poisoned? -/
def State.ringPoison (s : State) (r : Fin 80) (k : W32) (n : Nat) : Bool :=
  (List.range n).any (fun i => s.poisoned (gaOff (s.ringAddr r (k + BitVec.ofNat 32 i))))

/-- CLAUSE_FETCH: a thread fetches the next whole clause of its ring. -/
def State.applyFetch (s : State) (t : ThreadId) : State :=
  match s.threadPart t, s.threadRing t with
  | some p, some r =>
    if s.threadGo t p = false ∨ s.partHeld p ∨ s.ringOn r = false ∨ 4 ≤ s.threads[t].fetchq.length then s
    else
      let k := s.nextFetch t r
      let avail := (s.rings[r].tail - k).toNat
      if avail = 0 then s
      else
        let n := hdrWords (at! 0 (s.ringParcels r k 1) 0)
        if avail < n then s
        else if (s.checkRing r k n).ringPoison r k n then (s.checkRing r k n).threadAccessFault t p 2 1 (s.ringAddr r k)
        else
          let stop := k + BitVec.ofNat 32 n
          let s1 := (s.checkRing r k n).onThread t (fun h => { h with fetchq := h.fetchq ++ [(k, s.ringParcels r k n)] })
          let s2 := s1.onRing r (fun q =>
            { q with fetch := if (q.fetch - q.retire).toNat < (stop - q.retire).toNat then stop else q.fetch })
          s2.countLines (askerOf t) (gaOff (s.ringAddr r k)) (8 * n)
  | _, _ => s

/-! Executing (Table 8-10). -/

/-- Step 7: the clause retires (R287, R295, R297). -/
def State.retireClause (s : State) (t : ThreadId) (r : Fin 80) : State :=
  let h := s.threads[t]
  let q := s.rings[r]
  let next := q.pc + BitVec.ofNat 32 h.cl.words
  let pc : W32 := match h.cl.redirect with
    | some n => BitVec.ofInt 32 n
    | none => next
  let hold := match h.cl.mark with
    | some true => some next
    | some false => none
    | none => q.hold
  let fq := if h.cl.redirect.isSome then [] else h.fetchq
  let retire := hold.getD pc
  let fetch := if retire = q.retire then q.fetch else match fq.getLast? with
    | some e => e.1 + BitVec.ofNat 32 (e.2.length / 2)
    | none => retire
  (s.onThread t (fun h => { h with cl := ClauseSt.reset, fetchq := fq, clausesRetired := wrap64 (h.clausesRetired + 1) })).onRing
    r (fun q => { q with pc := pc, hold := hold, retire := retire, fetch := fetch })

/-- Take the step at which a clause stands. -/
def State.clauseStep (s : State) (t : ThreadId) (p : PartId) (r : Fin 80) : State × Next :=
  let h := s.threads[t]
  let ps := h.cl.parcels
  let conj := h.conjOf ps
  let go (x : State × Next) : State × Next :=
    match x with
    | (u, .done) => (u.onThread t Thread.advance, .done)
    | y => y
  match h.cl.step with
  | 1 =>
    match s.clauseFault t p ps h.cl.words with
    | some f => (s.threadFault t p f.1 f.2, .stop)
    | none => go (s, .done)
  | 2 =>
    match conj with
    | some (1, ref, v) => go (s.waitConj t p ref.toNat v.toNat)
    | _ => go (s, .done)
  | 3 =>
    match (ctlSlot ps h.cl.sub).bind decodeCtl with
    | some o => go (s.runCtl t p ((immSlot ps).getD 0) (h.cl.sub + 1) o)
    | none => go (s, .done)
  | 4 =>
    match streamSlot ps with
    | some v => go (s.pushStream t p v)
    | none => go (s, .done)
  | 5 =>
    let s1 := match conj with
      | some (2, ref, v) => s.openSig t p ref v
      | _ => s
    match verbSlot ps h.cl.sub with
    | some v => go (s1.pushVerb t p (decide (h.cl.sub = 1)) v (advFor v (advSlot ps)) (immSlot ps))
    | none => go (s1, .done)
  | 6 =>
    -- a reference that faults leaves the thread before the step (R629)
    let bad (ref : W64) := (s.signalCause p ref.toNat).isSome
    match conj with
    | some (2, ref, _) =>
      if (s.parts[p].sigs.any (fun g => decide (g.thread = t.val) && g.opened && g.tickets.isEmpty && !g.dropped)) && bad ref then
        (s.emitSignal t p ref.toNat 0, .stop)
      else go (s.closeSig t p, .done)
    | some (3, ref, v) =>
      if bad ref then (s.emitSignal t p ref.toNat v.toNat, .stop) else go (s.emitSignal t p ref.toNat v.toNat, .done)
    | _ => go (s, .done)
  | _ => (s.retireClause t r, .stop)

/-- Take steps until the clause waits, stops or retires. -/
def State.runClause (s : State) (t : ThreadId) (p : PartId) (r : Fin 80) : Nat → State
  | 0 => s
  | n + 1 =>
    match s.clauseStep t p r with
    | (s1, .done) => s1.runClause t p r n
    | (s1, _) => s1

/-- CLAUSE_EXECUTE (R286): a thread opens the clause at its program counter, when it has none open, and takes its steps
until it waits, stops or retires. -/
def State.applyExecute (s : State) (t : ThreadId) : State :=
  match s.ready t, s.threadRing t with
  | some p, some r =>
    if s.threads[t].cl.active then s.runClause t p r 10
    else match s.threads[t].fetchq with
      | [] => s
      | e :: l =>
        if e.1 ≠ s.rings[r].pc then s
        else
          (s.onThread t (fun h =>
            { h with fetchq := l,
                     cl := { h.cl with active := true, parcels := e.2, words := e.2.length / 2, step := 1, sub := 0, pushed := [] } })).runClause
            t p r 10
  | _, _ => s

/-! Commands of one op. -/

/-- The cause for which a verb slot is malformed for a thread (causes 8 to 11, 14 and 15 of Table 8-13), if any. -/
def State.slotCause (s : State) (t : ThreadId) (p : PartId) (slot : BitVec 128) (adv : W32) (imm : Option W64) :
    Option Nat :=
  if (64 ≤ t.val ∧ s.auto p.val) ∨ (t.val < 64 ∧ verbReadsS slot = true) then some 7
  else if verbOk (decide (t.val < 64)) slot (some adv) = false then some 8
  else if 64 ≤ t.val ∧ bit (s.coreMask p.val) (slotCore slot) = false then some 9
  else if verbMemoOk slot = false then some 10
  else if verbAdvOk slot (some adv) = false then some 11
  else if verbReadsImm slot ∧ imm.isNone then some 14
  else if verbNoneOk slot = false then some 15
  else none

/-- VERB_PUSH: the push of a verb slot by a thread that may step. -/
def State.applyVerbPush (s : State) (t : ThreadId) (second : Bool) (slot : BitVec 128) (adv : W32) (imm : Option W64) :
    State :=
  match s.ready t with
  | none => s
  | some p =>
    match s.slotCause t p slot adv imm with
    | some c => s.threadFault t p c (4 + b2n second)
    | none => (s.pushVerb t p second slot (advFor slot (some adv)) imm).1

/-- The cause for which an address-stream op is malformed for a thread, if any. -/
def State.streamCause (s : State) (t : ThreadId) (p : PartId) (v : W64) : Option Nat :=
  if t.val < 64 ∨ s.auto p.val then some 7
  else if bit (s.coreMask p.val) (asCore v) = false then some 9
  else if streamFieldsOk v = false then some 13
  else none

/-- ADDRESS_STREAM_PUSH: the push of an address-stream op by a thread that may step. -/
def State.applyStreamPush (s : State) (t : ThreadId) (v : W64) : State :=
  match s.ready t with
  | none => s
  | some p =>
    match s.streamCause t p v with
    | some c => s.threadFault t p c 8
    | none => (s.pushStream t p v).1

/-- WAIT_GE. -/
def State.applyWaitGe (s : State) (t : ThreadId) (ref : W64) (v : W32) : State :=
  match s.ready t with
  | none => s
  | some p => (s.waitConj t p ref.toNat v.toNat).1

/-- SIGNAL_AT_RETIRE (R290): of the verbs that the thread's clause has pushed and that have not reached step 5, or at
once when there is none. -/
def State.applySignalAtRetire (s : State) (t : ThreadId) (ref : W64) (v : W32) : State :=
  match s.ready t with
  | none => s
  | some p =>
    let live := (s.verbsOf p.val).filter (fun w => decide (w.thread = t.val) && !w.waits6 && s.threads[t].cl.pushed.contains w.ticket)
    if live.isEmpty then s.emitSignal t p ref.toNat v.toNat
    else s.onPart p (fun q =>
      { q with sigs := q.sigs ++ [{ thread := t.val, ref := ref, value := v, tickets := live.map (fun w => w.ticket),
                                    opened := false, dropped := false }] })

/-- SIGNAL_NOW (R355): the thread's stores and atomics are performed before it steps on. -/
def State.applySignalNow (s : State) (t : ThreadId) (ref : W64) (v : W32) : State :=
  match s.ready t with
  | none => s
  | some p => s.emitSignal t p ref.toNat v.toNat

/-- MEMO_WAIT_END (R291): the pending count of the memo is zero. The instruction of a clause is then taken again by the
clause, and one that came alone is performed. -/
def State.applyMemoWaitEnd (s : State) (t : ThreadId) : State :=
  match s.threads[t].wait, s.threadPart t with
  | .memo k row, some p =>
    if s.threads[t].pend[k] = 0 ∧ s.threadGo t p = true then
      let s1 := s.onThread t (fun h => { h with wait := .none })
      match row.bind decodeCtl with
      | some o => s1.insn t 0 o
      | none => s1
    else s
  | _, _ => s

/-- FENCE_RELEASE (R301): every verb and address-stream op of the thread has retired or been abandoned. -/
def State.applyFenceRelease (s : State) (t : ThreadId) : State :=
  match s.threads[t].wait, s.threadPart t with
  | .fence, some p => if s.threadBusy t = false ∧ s.threadGo t p = true then s.resumeThread t else s
  | _, _ => s

/-! Commands. -/

/-- CLAUSE_FETCH. -/
def execClauseFetch (t : ThreadId) (s : State) : Host.Outcome State Fault Refusal :=
  .next (s.applyFetch t)

/-- CLAUSE_EXECUTE. -/
def execClauseExecute (t : ThreadId) (s : State) : Host.Outcome State Fault Refusal :=
  .next (s.applyExecute t)

/-- WAIT_GE. -/
def execWaitGe (t : ThreadId) (ref : W64) (v : W32) (s : State) : Host.Outcome State Fault Refusal :=
  .next (s.applyWaitGe t ref v)

/-- WAIT_SATISFIED. -/
def execWaitSatisfied (t : ThreadId) (s : State) : Host.Outcome State Fault Refusal :=
  .next (s.applyWaitSatisfied t)

/-- SIGNAL_AT_RETIRE. -/
def execSignalAtRetire (t : ThreadId) (ref : W64) (v : W32) (s : State) : Host.Outcome State Fault Refusal :=
  .next (s.applySignalAtRetire t ref v)

/-- SIGNAL_NOW. -/
def execSignalNow (t : ThreadId) (ref : W64) (v : W32) (s : State) : Host.Outcome State Fault Refusal :=
  .next (s.applySignalNow t ref v)

/-- VERB_PUSH. -/
def execVerbPush (t : ThreadId) (second : Bool) (slot : BitVec 128) (adv : W32) (imm : Option W64) (s : State) :
    Host.Outcome State Fault Refusal :=
  .next (s.applyVerbPush t second slot adv imm)

/-- PUSH_RESUME. -/
def execPushResume (t : ThreadId) (s : State) : Host.Outcome State Fault Refusal :=
  .next (s.applyPushResume t)

/-- ADDRESS_STREAM_PUSH. -/
def execAddressStreamPush (t : ThreadId) (slot : W64) (s : State) : Host.Outcome State Fault Refusal :=
  .next (s.applyStreamPush t slot)

/-- MEMO_WAIT_END. -/
def execMemoWaitEnd (t : ThreadId) (s : State) : Host.Outcome State Fault Refusal :=
  .next (s.applyMemoWaitEnd t)

/-- FENCE_RELEASE. -/
def execFenceRelease (t : ThreadId) (s : State) : Host.Outcome State Fault Refusal :=
  .next (s.applyFenceRelease t)

end Sys2Proof.Machine
end

