-- ==== Sys2Proof/Machine/Rotation.lean ====
section
/-!
DEFINITION. The rotation of a mesh slot (R577, Table 17-1) and what its receivers return (R583, R585). Angles and products
are taken in fixed point at 60 fractional bits, whose rounding the bound of R585 is widened by (notes/assumptions/63.md).
-/
namespace Sys2Proof.Machine

/-- One, in fixed point. -/
abbrev fixOne : Int := 2 ^ 60

/-- Cosine and sine, in fixed point. -/
structure Angle where
  cos : Int
  sin : Int
  deriving DecidableEq, Repr

/-- The angle of 1 / 2^(n + 2) turns, by halving the quarter turn. -/
def turnOf : Nat → Angle
  | 0 => { cos := 0, sin := fixOne }
  | n + 1 =>
    let a := turnOf n
    let c : Int := Nat.sqrt ((fixOne + a.cos) * fixOne / 2).toNat
    { cos := c, sin := a.sin * fixOne / (2 * c) }

/-- The sum of two angles. -/
def Angle.add (a b : Angle) : Angle :=
  { cos := (a.cos * b.cos - a.sin * b.sin) / fixOne, sin := (a.sin * b.cos + a.cos * b.sin) / fixOne }

/-- The angle 2π × c / 65,536 of a code (R577). -/
def codeAngle (c : Nat) : Angle :=
  (List.range 16).foldl (fun a i =>
    if bit c i = false then a
    else if i = 15 then { cos := -a.cos, sin := -a.sin }
    else a.add (turnOf (14 - i))) { cos := fixOne, sin := 0 }

/-- The code index of interferometer `m` of layer `l` (R577). -/
def codeIndex (l m : Nat) : Nat := 63 * (l / 2) + 32 * (l % 2) + m

/-- CODE of an interferometer (Table 17-1). -/
def slotCode (slot : List Byte) (i : Nat) : Nat := ofLe ((slot.drop (2 * i)).take 2)

/-- The sign bit of output `j` (Table 17-1). -/
def slotSign (slot : List Byte) (j : Nat) : Bool := bit (ofLe ((slot.drop (4032 + j / 8)).take 1)) (j % 8)

/-- Interferometers of a layer. -/
def layerSize (l : Nat) : Nat := if l % 2 = 0 then 32 else 31

/-- The rotations of interferometers `m` on of a layer, over their input pairs in order (R577). -/
def pairsOf (slot : List Byte) (l : Nat) : Nat → Nat → List Int → List Int
  | m, n + 1, x :: y :: xs =>
    let a := codeAngle (slotCode slot (codeIndex l m))
    (a.cos * x - a.sin * y) / fixOne :: (a.sin * x + a.cos * y) / fixOne :: pairsOf slot l (m + 1) n xs
  | _, _, xs => xs

/-- G_l (R577). -/
def layer (slot : List Byte) (x : List Int) (l : Nat) : List Int :=
  if l % 2 = 0 then pairsOf slot l 0 (layerSize l) x else x.take 1 ++ pairsOf slot l 0 (layerSize l) (x.drop 1)

/-- U = D × G_63 × … × G_0 of a slot, applied to 64 integers: the outputs in fixed point (R577). -/
def rotation (slot : List Byte) (q : List Int) : List Int :=
  ((List.range 64).foldl (layer slot) (q.map (fun x => x * fixOne))).zipIdx.map (fun e =>
    if slotSign slot e.2 then -e.1 else e.1)

/-- The most that the fixed point can be off after 64 layers. -/
abbrev fixSlack : Int := 2 ^ 30

/-- The codes that R585 leaves to a receiver for the output `u` of the rotation, the squared norm `n` of the input codes, and
2^`t` steps of the encoded row to a receiver code, `t` counted from 2^−6: the least and the greatest. -/
def receiverWindow (u : Int) (n t : Nat) : Int × Int :=
  let w : Int := (Nat.sqrt (n * (fixOne * fixOne).toNat) : Int) + fixSlack
  let step : Int := 2 ^ t * fixOne
  (max (-511) (-((w - 64 * u) / step)), min 511 ((64 * u + w) / step))

/-- A receiver code (R583, R585): free within −511 to 511, and within its window when every input was fresh. -/
def receiverCode (free : Int) (w : Option (Int × Int)) : Int :=
  let r := w.getD (-511, 511)
  r.1 + (free - r.1) % max 1 (r.2 - r.1 + 1)

end Sys2Proof.Machine
end

