-- ==== Sys2Proof/Machine/Scoreboard.lean ====
section
/-!
DEFINITION. From the engine queue to the chain: recording a verb with its operand checks (R266, R267, R337 to R339, R383
to R390, R465, R471, R472, R503, R595, R597), scoreboard admission with the window check (R190, R340, R341), energy
admission (R156 to R159), and the start of a verb (R375).
-/
namespace Sys2Proof.Machine

/-! Which fields are what. -/

/-- Is field `f` an output of the verb (R338, R472)? -/
def Op.isOut (o : Op) (sel f : Nat) : Bool :=
  decide (f = 0) || (decide (o = .softmaxPart) && decide (f = 2)) || (decide (o = .rmsnorm) && bit sel 0 && decide (f = 3))

/-- Is field `f` exempt from the tile grid (R383, R472): a packed source, a per-span operand or a table? -/
def Op.offGrid (o : Op) (sel : Nat) (auto : Bool) (f : Nat) : Bool :=
  match o, f with
  | .expand, 1 => true
  | .reduce, 0 => true
  | .softmaxPart, 2 => true
  | .softmaxFix, 3 => true
  | .rmsnorm, 3 => bit sel 0
  | .gather, 1 => auto
  | .scatter, 0 => auto
  | _, _ => false

/-- Does the entry give the path as "int32 when R415 permits" (R466)? -/
def Op.intPath : Op → Bool
  | .dequant | .func | .softmax | .softmaxPart | .softmaxFix | .rmsnorm | .rope | .scatter | .rotate => false
  | _ => true

/-- Does the verb transpose its tiles, so that DST has the transposed shapes? -/
def Op.transposes (o : Op) (sel : Nat) : Bool :=
  (decide (o = .permute) && decide (sel = 1)) || (decide (o = .reshard) && bit sel 0)

/-- The field whose operand is the tile grid (R383); 4 where no store operand is. -/
def Verb.gridField (v : Verb) : Nat :=
  let st (f : Nat) : Bool := decide (termOf (slotOpnd v.slot f) = some .store)
  match v.op with
  | .expand | .fill | .gather => 0
  | .scatter => if st 1 then 1 else if st 2 then 2 else if st 3 then 3 else 4
  | _ => if st 1 then 1 else 0

/-! Counting rows and addresses. -/

/-- The address-stream ops of an engine queue ahead of its first verb. -/
def CoreSt.streamsAhead (c : CoreSt) : List Stream :=
  (c.queue.takeWhile (fun e => match e with | .verb _ => false | .stream _ => true)).filterMap (fun e =>
    match e with | .verb _ => none | .stream m => some m)

/-- Addresses that the verbs which have started still take from the front of the streams (R385). -/
def CoreSt.rowsOwed (c : CoreSt) : Nat :=
  ((c.active.toList ++ c.pre.toList).map Verb.rowsLeft).foldl (· + ·) 0

/-- The ops that hold addresses `skip` to `skip + n − 1` of those not yet consumed, each with how many it gives. -/
def takeStreams : List Stream → Nat → Nat → List (Stream × Nat)
  | [], _, _ => []
  | m :: ms, skip, n =>
    let have' := m.count - m.used
    if have' ≤ skip then takeStreams ms (skip - have') n
    else if n = 0 then []
    else
      let k := min n (have' - skip)
      (m, k) :: takeStreams ms 0 (n - k)

/-- The ops that the head verb of a core will consume for `n` rows. -/
def CoreSt.streamsFor (c : CoreSt) (n : Nat) : List (Stream × Nat) := takeStreams c.streamsAhead c.rowsOwed n

/-- Addresses at hand for the head verb of a core. -/
def CoreSt.rowsReady (c : CoreSt) : Nat :=
  (c.streamsAhead.foldl (fun a m => a + (m.count - m.used)) 0) - c.rowsOwed

/-- Bytes of an index of a mode-2 op. -/
def Stream.isizeBytes (m : Stream) : Nat := 2 ^ (m.isize + 1)

/-! Operands as intervals. -/

/-- A format from its code. -/
def fmtOf (code : Nat) : Fmt := (Fmt.ofCode code).getD (.float fp32)

/-- The format code of operand field `f`, 0 where it has none; a stream's rows have the format of the paired operand
(R385), a tap the channel's (R387). -/
def State.fmtCode (s : State) (v : Verb) (f : Fin 4) : Nat :=
  let own (g : Fin 4) : Nat :=
    match termOf (slotOpnd v.slot g.val) with
    | some .store => ((v.view g).map (fun w => w.code)).getD 0
    | some .tap => s.act (K.tapFormat (slotOpnd v.slot g.val % 4))
    | _ => 0
  match termOf (slotOpnd v.slot f.val) with
  | some .stream => if f = 0 then own 1 else own 0
  | _ => own f

/-- Bytes of one addressed row of a verb (R385). -/
def State.rowLen (s : State) (v : Verb) : Nat :=
  let code := if v.op = .scatter then s.fmtCode v 1 else if v.streams then s.fmtCode v 0 else s.fmtCode v 1
  runBytes (fmtOf code) (v.job.grid.shape 0).2.1

/-- An interval that an operand takes: its bounds, whether it is written, and the right it needs. -/
structure Span where
  lo : Int
  hi : Int
  write : Bool
  right : Right
  field : Nat
  deriving DecidableEq, Repr

/-- The 64-bit values of an interval's bounds. A bound below zero wraps, and so meets reserved address bits. -/
def Span.bounds (i : Span) : Nat × Nat := ((i.lo % 2 ^ 64).toNat, (if i.hi < 0 then (i.hi % 2 ^ 64).toNat else i.hi.toNat))

/-- The bounds rounded to granules (R338). -/
def Span.rounded (i : Span) : Nat × Nat := granule i.bounds.1 i.bounds.2

/-- The right that an output of a verb needs (R190). -/
def Verb.outRight (v : Verb) : Right := if v.op = .scatter ∧ bit (advSelect v.adv) 0 then .atomic else .write

/-- The window of a partition that contains an address (R386). -/
def State.windowAt (s : State) (p a : Nat) : Option (Nat × Nat) :=
  (List.range 8).findSome? (fun j =>
    let len := s.act (K.windowLength p j)
    let base := s.act (K.windowBase p j)
    if 0 < len ∧ base ≤ a ∧ a < base + len then some (base, base + len - 1) else none)

/-- The interval of an op's rows (R386); none when no window contains s[RS] of a mode-2 op. -/
def State.streamBounds (s : State) (m : Stream) (len : Nat) : Option (Int × Int) :=
  match m.mode with
  | 0 => some (m.rb.toNat, (m.rb.toNat : Int) + len - 1)
  | 1 =>
    let a : Int := m.rb.toNat
    let b : Int := a + ((m.count : Int) - 1) * m.rs.toInt
    some (min a b, max a b + len - 1)
  | _ => (s.windowAt m.part m.rs.toNat).map (fun w => ((w.1 : Int), (w.2 : Int)))

/-- The hull of the intervals of the ops that a verb consumes, and the index tables that it reads. -/
def State.streamSpans (s : State) (v : Verb) (ops : List (Stream × Nat)) : Option (List Span) :=
  let len := s.rowLen v
  let f := if v.op = .scatter then 0 else 1
  let hulls := ops.map (fun e => s.streamBounds e.1 len)
  if hulls.any Option.isNone then none
  else
    let l := hulls.filterMap id
    match l with
    | [] => some []
    | h :: t =>
      let hull := t.foldl (fun a b => (min a.1 b.1, max a.2 b.2)) h
      let tables := (ops.filter (fun e => decide (e.1.mode = 2))).map (fun e =>
        ((e.1.rb.toNat : Int), (e.1.rb.toNat : Int) + e.1.isizeBytes * e.1.count - 1))
      some ({ lo := hull.1, hi := hull.2, write := decide (f = 0), right := if f = 0 then v.outRight else .read, field := f } ::
        (match tables with
          | [] => []
          | a :: r =>
            let w := r.foldl (fun x y => (min x.1 y.1, max x.2 y.2)) a
            [{ lo := w.1, hi := w.2, write := false, right := .read, field := f }]))

/-- The intervals of the store operands of a verb (R269, R389). -/
def Verb.storeSpans (v : Verb) : List Span :=
  (List.finRange 4).filterMap (fun f =>
    (v.view f).map (fun w =>
      let out := v.op.isOut (advSelect v.adv) f.val
      { lo := w.bounds.1, hi := w.bounds.2, write := out, right := if out then (if f = 0 then v.outRight else .write) else .read,
        field := f.val }))

/-- Every interval of a verb (R338, R472); none when a mode-2 op has no window. -/
def State.spans (s : State) (v : Verb) (ops : List (Stream × Nat)) : Option (List Span) :=
  if v.streams then (s.streamSpans v ops).map (fun l => v.storeSpans ++ l) else some v.storeSpans

/-! Checks at recording. -/

/-- The verb with its pronouns resolved (R266). -/
def State.resolve (s : State) (v : Verb) : Verb :=
  { v with descs := Vector.ofFn (fun f : Fin 4 =>
      let o := slotOpnd v.slot f.val
      if opndKind o = 1 then some (BitVec.ofNat 512 (s.readWord (descOff v.part (bits o 11 0)) 64)) else none) }

/-- The first failing check of Table 7-6. -/
def descCause (d : BitVec 512) (tag : Nat) (out : Bool) : Option Nat :=
  let rank := descBits d 74 72
  let ext (k : Nat) := descBits d (159 + 32 * k) (128 + 32 * k)
  let str (k : Nat) := descBits d (351 + 32 * k) (320 + 32 * k)
  let f := Fmt.ofCode (descBits d 71 64)
  let al := (f.map Fmt.align).getD 1
  if descBits d 88 88 = 0 then some 1
  else if descBits d 83 80 ≠ tag then some 2
  else if f = none then some 3
  else if rank = 0 ∨ rank = 7 ∨ (List.range rank).any (fun k => decide (ext k = 0)) then some 4
  else if descBits d 79 75 ≠ 0 ∨ descBits d 87 84 ≠ 0 ∨ descBits d 127 90 ≠ 0 ∨ descBits d 351 320 ≠ 0 ∨
      (List.range 6).any (fun k => decide (rank ≤ k) && (decide (ext k ≠ 0) || (decide (k ≠ 0) && decide (str k ≠ 0)))) then
    some 5
  else if out ∧ descBits d 89 89 = 1 then some 6
  else if descBits d 63 0 % al ≠ 0 ∨
      (List.range rank).any (fun k => decide (k ≠ 0) && decide (str k % al ≠ 0)) ∨
      (f.any Fmt.isBlock ∧ ext 0 % 32 ≠ 0) then some 7
  else none

/-- Does a walker set pass cause 8 of Table 10-7? -/
def walkerOk (w : Vector W64 16) : Bool :=
  let n (i : Fin 16) := wsWord w i
  let code := n 1 % 256
  let f := Fmt.ofCode code
  let al := (f.map Fmt.align).getD 1
  let c0 := bits (n 2) 6 0
  let c1 := bits (n 3) 6 0
  let bc := bit (n 2) 7
  let counts := [bits (n 5) 31 0, bits (n 7) 31 0, bits (n 9) 31 0, bits (n 11) 31 0]
  decide (n 1 < 2 ^ 8) && decide (n 2 < 2 ^ 8) && decide (n 3 < 2 ^ 7) && decide (n 5 < 2 ^ 32) && decide (n 7 < 2 ^ 32) &&
    decide (n 9 < 2 ^ 32) && decide (n 11 < 2 ^ 32) && decide (n 13 = 0) && decide (n 14 = 0) && decide (n 15 = 0) &&
    f.isSome && decide (1 ≤ c0) && decide (c0 ≤ 64) && decide (1 ≤ c1) && decide (c1 ≤ 64) &&
    counts.all (fun x => decide (x ≠ 0)) && decide (counts.foldl (· * ·) 1 ≤ 16777216) &&
    decide (n 0 % al = 0) &&
    ((c1 :: counts).zip [n 4, n 6, n 8, n 10, n 12]).all (fun e => decide (e.1 ≤ 1) || decide (e.2 % al = 0)) &&
    (!f.any Fmt.isBlock || (decide (c0 % 32 = 0) && !bc)) &&
    (!f.any (fun g => decide (g.width = 4)) || f.any Fmt.isBlock || decide (c0 % 2 = 0) || bc)

/-- Table 7-6 over the pronouns of a verb: LAST_DESC_FAULT [15:0] and cause. -/
def Verb.descBad (v : Verb) : Option (Nat × Nat) :=
  (List.finRange 4).findSome? (fun f =>
    (v.descs[f]).bind (fun d =>
      let o := slotOpnd v.slot f.val
      (descCause d (bits o 15 12) (v.op.isOut (advSelect v.adv) f.val)).map (fun c => (bits o 15 0, c))))

/-- Cause 8 over the walker sets of a verb. -/
def Verb.walkerBad (v : Verb) : Option (Nat × Nat) :=
  (List.finRange 4).findSome? (fun f =>
    (v.caps[f]).bind (fun w => if walkerOk w then none else some (bits (slotOpnd v.slot f.val) 2 0, 8)))

/-- Do two views have equal tile counts and, tile for tile, equal (or transposed) shapes? A transposed tile has no
partial row. -/
def sameShapes (g w : View) (tr : Bool) : Bool :=
  (List.range g.tiles).all (fun t =>
    if tr then decide ((g.shape t).2.2 = 0) && decide (w.shape t = shapeT (g.shape t)) else decide (w.shape t = g.shape t))

/-- Cause 9: R383. -/
def Verb.gridBad (v : Verb) (auto : Bool) : Option (Nat × Nat) :=
  let g := v.job.grid
  let sel := advSelect v.adv
  (List.finRange 4).findSome? (fun f =>
    (v.view f).bind (fun w =>
      let bad :=
        if f.val = v.gridField then decide (16777216 < g.tiles)
        else if v.op.offGrid sel auto f.val then false
        else decide (w.tiles ≠ g.tiles) || (!(decide (f = 0) && v.op.transposes sel) && !sameShapes g w false)
      if bad then some (f.val, 9) else none))

/-- Cause 10. The rows of a stream destination have SRC_A's format (R385). -/
def State.formBad (s : State) (v : Verb) : Option (Nat × Nat) :=
  let sel := advSelect v.adv
  let blk (f : Fin 4) := (fmtOf (s.fmtCode v f)).isBlock
  if v.op.predField sel ∧ (v.view 3).any (fun w => !w.fmt.isInt) then some (3, 10)
  else if blk 0 ∧ advPredEn v.adv ∧ !advPredZero v.adv then some (0, 10)
  else if v.op = .compress ∧ blk 0 then some (0, 10)
  else if v.op = .expand ∧ blk 1 then some (1, 10)
  else none

/-- SPAN of a verb (R471). -/
def Verb.spanOf (v : Verb) : Nat :=
  match v.op with
  | .reduce => advParam v.adv
  | .softmax | .softmaxPart | .softmaxFix | .rmsnorm => v.job.grid.span
  | _ => 0

/-- How many spans the grid has. -/
def Verb.spanCount (v : Verb) : Nat :=
  let n := v.job.grid.tiles
  if v.spanOf = 0 then 1 else n / v.spanOf

/-- Is operand `f` a per-span operand of `n` elements a span in format `code` (R472)? -/
def Verb.perSpan (v : Verb) (f : Fin 4) (n code : Nat) : Bool :=
  (v.view f).any (fun w => decide (w.code = code) && decide (w.elems = n * v.spanCount))

/-- The first checked constraint of a verb's entry that fails, as a field code (R465). -/
def State.entryBad (s : State) (v : Verb) (auto : Bool) : Option Nat :=
  let sel := advSelect v.adv
  let par := advParam v.adv
  let g := v.job.grid
  let gf := if v.gridField = 4 then 1 else v.gridField
  let dst := v.view 0
  let dstIs (p : Fmt → Bool) : Bool := dst.any (fun w => p w.fmt)
  let isF (f : Fmt) : Bool := match f with | .float _ => true | _ => false
  let isF8 (f : Fmt) : Bool := match f with | .float x => decide (x = e4m3) || decide (x = e5m2) | _ => false
  let codeOf (f : Fin 4) : Nat := s.fmtCode v f
  let first (l : List (Bool × Nat)) : Option Nat := (l.find? (fun e => !e.1)).map (fun e => e.2)
  let span : Bool × Nat := (v.spanOf = 0 || decide (g.tiles % max 1 v.spanOf = 0), gf)
  let outFB : Bool × Nat := (dstIs (fun f => isF f || f.isBlock), 0)
  let tr : List (Bool × Nat) := if v.op.transposes sel then [(dst.any (fun w => sameShapes g w true), 0)] else []
  let k := decide (termOf (slotOpnd v.slot 2) = some .scalar)
  first (match v.op with
    | .quant => [(dstIs (fun f => f.isInt || f.isBlock || isF8 f), 0), (k || dstIs Fmt.isBlock, 2)]
    | .dequant => [(dstIs isF, 0)]
    | .compare => [(dstIs (fun f => !f.isBlock), 0)]
    | .reduce =>
      [span, (dstIs (fun f => !f.isBlock), 0), ((sel % 8 < 5) || decide (codeOf 0 = 0x10), 0),
        (dst.any (fun w => decide (w.elems = (if advAxis v.adv = 3 then 1 else 64) * v.spanCount)), 0)]
    | .softmax => [span, outFB]
    | .softmaxPart => [span, outFB, (v.perSpan 2 256 0x01, 2)]
    | .softmaxFix => [span, (v.perSpan 3 256 0x01, 3)]
    | .rmsnorm => [span, (decide (par = 0) || (decide (par < 0x7F80)), 1)] ++
        (if bit sel 0 then [(v.perSpan 3 64 0x01, 3)] else [])
    | .rope =>
      let pair := if bit sel 0 then 2 * (par % 64) else 2
      [(decide (codeOf 2 = 0x10), 2), (decide (codeOf 3 = 0x10), 3),
        ((List.range g.tiles).all (fun t => decide ((g.shape t).2.1 % max 1 pair = 0) && decide ((g.shape t).2.2 % max 1 pair = 0)), 1)]
    | .copy => [(decide (codeOf 0 = codeOf 1), 0), (!(advPredEn v.adv && dstIs Fmt.isBlock), 0)]
    | .permute | .reshard => tr
    | .compress => [(dst.any (fun w => decide (g.elems ≤ w.elems)), 0)]
    | .gather =>
      if auto then [((v.view 1).any (fun w => !w.walker && decide (w.rank = 2)), 1), (decide (codeOf 2 = 0x10), 2)] else []
    | .scatter =>
      (if auto then
        [(dst.any (fun w => !w.walker && decide (w.rank = 2) && decide (w.code = codeOf 1)), 0), (decide (codeOf 2 = 0x10), 2)]
       else []) ++
      (if bit sel 0 then [(decide (codeOf 1 = 0x01) || decide (codeOf 1 = 0x10), 1)] else [])
    | .rotate => [outFB, ((List.range g.tiles).all (fun t => decide ((g.shape t).2.1 = 64) && decide ((g.shape t).2.2 = 0)), 1)]
    | _ => [])

/-- The tap check of R503. -/
def State.tapBad (s : State) (c : CoreId) (v : Verb) : Bool :=
  decide (termOf (slotOpnd v.slot 1) = some .tap) &&
    (let h := slotOpnd v.slot 1 % 4
     decide (s.act (K.tapEnable h) = 0) || !bit (s.act (K.tapCoreMask h)) c.val)


/-- The mesh checks of R595 and R597. -/
def State.meshBad (s : State) (v : Verb) : Bool :=
  let slot := advSelect v.adv % 8
  decide (v.op = .rotate) &&
    ((s.replay v.part && decide (s.act (K.meshLogMode v.part) = 0)) ||
      (!s.meshReplay v.part && (decide (s.act K.meshEnable = 0) || decide (s.act (K.slotValid slot) = 0))))

/-- The first check that fails at recording, beyond the descriptors and walker sets: LAST_DESC_FAULT [15:0] and cause. -/
def State.operandBad (s : State) (c : CoreId) (v : Verb) : Option (Nat × Nat) :=
  let auto := s.auto v.part
  ((v.gridBad auto <|> s.formBad v) <|> ((s.entryBad v auto).map (fun f => (f, 11)))) <|>
    (if s.tapBad c v then some (1, 12) else if s.meshBad v then some (advSelect v.adv % 8, 13) else none)

/-! Recording (R337 to R339). -/

/-- May verbs of `p` be recorded and admitted on core `c`? -/
def State.admitGo (s : State) (c : CoreId) (p : PartId) : Bool :=
  s.coreGo c p && s.enabled p.val && decide (s.parts[p].state = 1) && !s.parts[p].halting && decide (s.mood ≠ .quiesce)

/-- Is every verb of the partition (in autonomous mode, of the core) with a lower ticket recorded, retired or abandoned?
-/
def State.recordTurn (s : State) (c : CoreId) (v : Verb) : Bool :=
  (List.finRange 64).all (fun d =>
    (s.auto v.part && decide (d ≠ c)) ||
      s.cores[d].verbs.all (fun w => decide (w.part ≠ v.part) || decide (v.ticket ≤ w.ticket) || decide (w.stage ≠ .queued)))

/-- Scoreboard entries that a verb needs (R338): one for each store or stream operand and one for its index tables. -/
def Verb.entries (v : Verb) (ops : List (Stream × Nat)) : Nat :=
  v.storeSpans.length + (if v.streams then 1 else 0) + (if ops.any (fun e => decide (e.1.mode = 2)) then 1 else 0)

/-- The rows that the head verb takes from its streams; a tap SCATTER without a store grid takes whole tiles of what
stands ahead of it (notes/assumptions/28.md). -/
def CoreSt.withTiles (c : CoreSt) (v : Verb) : Verb :=
  let n := if v.gridField = 4 then max 1 (c.rowsReady / 64) else 0
  let w := { v with tiles := n }
  { w with tiles := w.op.passes (advSelect w.adv) * w.job.grid.tiles }

/-- Record a verb whose checks passed. -/
def State.recorded (s : State) (c : CoreId) (v : Verb) (l : List Span) : State :=
  let es := l.map (fun i =>
    let g := i.rounded
    { ticket := v.ticket, core := c.val, write := i.write, lo := g.1, hi := g.2, torn := false : SbEntry })
  (s.onPart (pid v.part) (fun q => { q with sb := q.sb ++ es })).onCore c (fun k => k.setQueued { v with stage := .recorded })

/-- The address that a mode-2 op names when no window contains it (R386). -/
def State.noWindow (s : State) (ops : List (Stream × Nat)) : Nat :=
  ((ops.find? (fun e => decide (e.1.mode = 2) && (s.windowAt e.1.part e.1.rs.toNat).isNone)).map
    (fun e => e.1.rs.toNat)).getD 0

/-- VERB_RECORD (R337): once the verb's turn has come, its streams hold its addresses (R385) and its entries are free,
pronouns are resolved, operands checked, and the entries taken. -/
def State.applyRecord (s : State) (c : CoreId) : State :=
  match s.cores[c].head with
  | none => s
  | some u =>
    let p := pid u.part
    if u.stage ≠ .queued ∨ s.admitGo c p = false ∨ s.recordTurn c u = false then s
    else
      let v0 := s.resolve u
      let bad := v0.descBad <|> v0.walkerBad
      let v := s.cores[c].withTiles v0
      let want := if v.streams && bad.isNone then v.job.grid.rows else 0
      let ops := s.cores[c].streamsFor want
      if s.cores[c].rowsReady < want then s
      else if 256 < s.parts[p].sb.length + v.entries ops then
        if u.fullCounted then s
        else (s.bump (K.sbFullWaits p.val)).onCore c (fun k => k.setQueued { u with fullCounted := true })
      else
        match bad with
        | some e => s.descFault c v0 e.2 e.1
        | none =>
          match s.operandBad c v with
          | some e => s.descFault c v e.2 e.1
          | none =>
            match s.spans v ops with
            | some l => s.recorded c v l
            | none => s.verbFault c v 1 3 (s.noWindow ops)

/-! Admission. -/

/-- Does a lower ticket hold an entry in a hazard with an entry of this verb (R340)? -/
def State.hazard (s : State) (c : CoreId) (v : Verb) : Bool :=
  let sb := s.parts[pid v.part].sb
  let mine := sb.filter (fun e => decide (e.ticket = v.ticket))
  sb.any (fun e =>
    decide (e.ticket < v.ticket) && (!s.auto v.part || decide (e.core = c.val)) &&
      mine.any (fun m => (e.write || m.write) && !disjoint e.lo e.hi m.lo m.hi))

/-- The first operand interval that fails R190: cause and address. -/
def State.spanCause (s : State) (v : Verb) (l : List Span) : Option (Nat × Nat) :=
  l.findSome? (fun i =>
    let g := i.rounded
    (s.addrCause v.part g.1 g.2 i.right true).map (fun k => (k, i.bounds.1)))

/-- Has the output another shape than the grid: a transposed one that is not square? -/
def Verb.offShape (v : Verb) : Bool :=
  v.op.transposes (advSelect v.adv) && (v.view 0).any (fun w => !sameShapes v.job.grid w false)

/-- Width code of a verb's grid operands (R372). -/
def State.laneOf (s : State) (v : Verb) (auto : Bool) : Nat :=
  let sel := advSelect v.adv
  let w := (List.finRange 4).foldl (fun m f =>
    let code := s.fmtCode v f
    if code = 0 ∨ v.op.offGrid sel auto f.val ∨ (f.val = 3 ∧ v.op.predField sel = true) ∨
        (f.val = 0 ∧ v.offShape = true) then m
    else max m (fmtWidth code)) 0
  laneCode w

/-- The width factor of R156 from the widest operand element. -/
def State.widthFactor (s : State) (v : Verb) : Nat :=
  let w := (List.finRange 4).foldl (fun m f =>
    let code := s.fmtCode v f
    if code = 0 then m else max m (fmtWidth code)) 0
  if w ≤ 8 then 3 else if w ≤ 16 then 4 else 6

/-- Does the verb take the int32 path (R415, R466)? FILL has no input operand, and takes it for an integer destination
(notes/assumptions/31.md). -/
def State.intOf (s : State) (v : Verb) : Bool :=
  let isI (f : Fin 4) : Bool := let c := s.fmtCode v f; decide (c = 0) || (fmtOf c).isInt
  v.op.intPath && (v.view 0).any (fun w => !w.fmt.isBlock) && isI 1 && isI 2 && isI 3 &&
    (decide (v.op ≠ .fill) || (fmtOf (s.fmtCode v 0)).isInt)

/-- D and F of R470: deep-tier bytes, and 256-byte units on other devices. -/
def State.rangeCost (s : State) (v : Verb) (ops : List (Stream × Nat)) : Nat × Nat :=
  let auto := s.auto v.part
  let table (f : Nat) := auto && ((decide (v.op = .gather) && decide (f = 1)) || (decide (v.op = .scatter) && decide (f = 0)))
  let len := s.rowLen v
  let far (a : Nat) := !s.isLocal a
  let one (i : Span) : Nat × Nat :=
    let g := i.rounded
    if table i.field then
      let n := v.job.grid.rows * len
      (if tierOf (gaOff g.1) = .deep then n else 0, if far g.1 then ceilDiv n 256 else 0)
    else (deepBytes g.1 g.2, if far g.1 then ceilDiv (g.2 + 1 - g.1) 256 else 0)
  let st := v.storeSpans.map one
  let rows := ops.map (fun e =>
    match s.streamBounds e.1 len with
    | none => (0, 0)
    | some b => let a := b.1.toNat; (if tierOf (gaOff a) = .deep then e.2 * len else 0, if far a then e.2 * len else 0))
  let tables := (s.streamSpans v ops).getD [] |>.drop 1 |>.map one
  let sum (l : List (Nat × Nat)) (f : Nat × Nat → Nat) : Nat := l.foldl (fun a e => a + f e) 0
  (sum st Prod.fst + sum rows Prod.fst + sum tables Prod.fst,
    sum st Prod.snd + ceilDiv (sum rows Prod.snd) 256 + sum tables Prod.snd)

/-- The reservation of a verb now (R156, R470). -/
def State.resOf (s : State) (c : CoreId) (v : Verb) (ops : List (Stream × Nat)) : Nat :=
  let d := s.rangeCost v ops
  reservation v.tiles v.op.cost (s.widthFactor v) (s.scaleOf c.val) d.1 d.2

/-- The chain configuration of a verb (R374). -/
def State.cfgOf (s : State) (v : Verb) : BitVec 384 :=
  buildCfg v.op v.slot v.adv (s.fmtCode v 1) (s.fmtCode v 2) (s.fmtCode v 3) (s.fmtCode v 0) (s.laneOf v (s.auto v.part))
    (s.intOf v) v.spanOf

/-- Find a verb of a partition by its ticket, with its core. -/
def State.findVerb (s : State) (p ticket : Nat) : Option (CoreId × Verb) :=
  (List.finRange 64).findSome? (fun c =>
    (s.cores[c].verbs.find? (fun v => decide (v.part = p) && decide (v.ticket = ticket))).map (fun v => (c, v)))

/-- Admit a verb (R157, R375): the reservation is made and the shadow configuration built. -/
def State.admitVerb (s : State) (c : CoreId) (v : Verb) (res : Nat) : State :=
  let cfg := s.cfgOf v
  let w := { v with stage := .admitted, res := res, scale := s.scaleOf c.val, cfg := cfg }
  (s.reserve (pid v.part) res).onCore c (fun k => CoreSt.tidy { k.setQueued w with cfgS := cfg })

/-- The reservation that the head verb of a core needs now. -/
def State.headRes (s : State) (c : CoreId) (v : Verb) : Nat :=
  s.resOf c v (s.cores[c].streamsFor (if v.streams then v.job.grid.rows else 0))

/-- Serve the admission order of a partition (R158, R159): let in at its head while R157 holds, raise the fault of a head
whose reservation exceeds RESERVE_CAP, and put a head that fails otherwise into energy wait. -/
def State.pumpEnergy (s : State) (p : PartId) : Nat → State
  | 0 => s
  | n + 1 =>
    match s.parts[p].energyQ with
    | [] => s
    | t :: _ =>
      match s.findVerb p.val t with
      | none => s.onPart p (fun q => { q with energyQ := q.energyQ.drop 1, energyWait := false })
      | some (c, v) =>
        let r := s.headRes c v
        if s.admitGo c p = false then s
        else if s.act (K.reserveCap p.val) < r then s.verbFault c v 4 1 v.clause.toNat
        else if s.canReserve p r then
          ((s.onPart p (fun q => { q with energyQ := q.energyQ.drop 1, energyWait := false })).admitVerb c v r).pumpEnergy p n
        else if s.parts[p].energyWait then s
        else ((s.bump (K.energyWaits p.val)).onPart p (fun q => { q with energyWait := true })).onCore c
          (fun k => k.setQueued { v with stage := .energyWait })

/-- SCOREBOARD_ADMIT (R340, R341, R190, R157 to R159): the head verb of a core, once recorded, is admitted when no hazard
stands, its windows allow it and its energy can be reserved; else it waits. -/
def State.applyAdmit (s : State) (c : CoreId) : State :=
  match s.cores[c].head with
  | none => s
  | some v =>
    let p := pid v.part
    if v.stage ≠ .recorded ∨ s.admitGo c p = false ∨ s.parts[p].energyQ.contains v.ticket then s
    else if s.hazard c v then
      if v.hazCounted then s
      else (s.bump (K.sbHazardWaits p.val)).onCore c (fun k => k.setQueued { v with hazCounted := true })
    else
      let ops := s.cores[c].streamsFor (if v.streams then v.job.grid.rows else 0)
      match s.spans v ops with
      | none => s.verbFault c v 1 3 (s.noWindow ops)
      | some l =>
        match s.spanCause v l with
        | some e => s.verbFault c v 1 e.1 e.2
        | none =>
          if s.act (K.reserveCap p.val) < s.resOf c v ops then s.verbFault c v 4 1 v.clause.toNat
          else
            (s.onPart p (fun q => { q with energyQ := q.energyQ ++ [v.ticket] })).pumpEnergy p
              (s.parts[p].energyQ.length + 1)

/-- ENERGY_WAIT_END (R158): the head of a partition's admission order is admitted once R157 holds, and a preempted verb
that waits for its top-up may resume. -/
def State.applyEnergyWaitEnd (s : State) (p : PartId) : State :=
  let s1 := s.pumpEnergy p s.parts[p].energyQ.length
  s1.forEach (s1.coresOf p.val) (fun u c =>
    if u.cores[c].pre.any (fun v => v.topWait) then u.applyResume c else u)

/-- VERB_START (R375): the admitted verb enters the chain and the two configurations are swapped. -/
def State.applyStart (s : State) (c : CoreId) : State :=
  match s.cores[c].head with
  | none => s
  | some v =>
    if v.stage ≠ .admitted ∨ s.cores[c].active.isSome ∨ s.cores[c].pre.isSome ∨ s.startGo c (pid v.part) = false then s
    else
      s.onCore c (fun k => CoreSt.tidy
        { k with queue := k.queue.filter (fun e => !e.isVerb v), active := some { v with stage := .running, awaited := s.tick },
                 cfgA := k.cfgS, cfgS := k.cfgA, rdata := [], heldReads := [] })

/-! Commands. -/

/-- VERB_RECORD. -/
def execVerbRecord (c : CoreId) (s : State) : Host.Outcome State Fault Refusal :=
  .next (s.applyRecord c)

/-- SCOREBOARD_ADMIT. -/
def execScoreboardAdmit (c : CoreId) (s : State) : Host.Outcome State Fault Refusal :=
  .next (s.applyAdmit c)

/-- ENERGY_WAIT_END. -/
def execEnergyWaitEnd (p : PartId) (s : State) : Host.Outcome State Fault Refusal :=
  .next (s.applyEnergyWaitEnd p)

/-- VERB_START. -/
def execVerbStart (c : CoreId) (s : State) : Host.Outcome State Fault Refusal :=
  .next (s.applyStart c)

end Sys2Proof.Machine
end

