-- ==== Sys2Proof/Machine/Verbs.lean ====
section
/-!
DEFINITION. Verbs in the chain: the rows that a tile addresses (R284, R385, R473, R474), its reads with forwarding from
the write buffer (R211 to R214, R223), remote reads (R570), the mesh in ROTATE (R582, R583, R596 to R600), the tile
itself with its output, meters and rounding state, and the commands of the verbs.
-/
namespace Sys2Proof.Machine

/-! Bytes that a chain reads. -/

/-- The value and mask that a buffered tile will write at an address. -/
def OutTile.at (t : OutTile) (a : Nat) : Byte × Byte :=
  (t.bytes.filter (fun b => decide (b.addr.toNat = a))).foldl (fun o b => (mergeByte o.1 b.val b.mask, o.2 ||| b.mask)) (0, 0)

/-- The newest buffered tile of a core that writes any byte of [a, a + n). -/
def CoreSt.newestOver (k : CoreSt) (a n : Nat) : Option OutTile :=
  k.wbuf.reverse.find? (fun t => t.bytes.any (fun b => decide (a ≤ b.addr.toNat) && decide (b.addr.toNat < a + n)))

/-- The byte at a global address as the chain of core `c` reads it: from its write buffer (R212), from the own store,
or from the answers of remote reads. -/
def State.chainByte (s : State) (c : CoreId) (a : Nat) : Byte :=
  match s.cores[c].newestOver a 1 with
  | some t => (t.at a).1
  | none =>
    if s.isLocal a then s.store.mem.read (gaOff a)
    else
      match s.cores[c].rdata.find? (fun e => decide (e.1 ≤ a) && decide (a < e.1 + e.2.length)) with
      | some e => at! 0 e.2 (a - e.1)
      | none => 0

/-- A read cut at line boundaries: one request each (R381). -/
def cutLines : Nat → Nat × Nat → List (Nat × Nat)
  | 0, _ => []
  | f + 1, (a, n) =>
    if n = 0 then []
    else
      let m := min n (128 - a % 128)
      (a, m) :: cutLines f (a + m, n - m)

/-- A request of Ingest: one distinct line, by its global line number, and the pieces of it that the tile reads (R381). -/
abbrev LineReq := Nat × List (Nat × Nat)

/-- The line requests of a list of stretches: each line once, however many stretches it supplies. -/
def lineReads (l : List (Nat × Nat)) : List LineReq :=
  (l.flatMap (fun e => cutLines (e.2 / 128 + 2) e)).foldl (fun m e =>
    SMap.put m (e.1 / 128) ((SMap.find m (e.1 / 128)).getD [] ++ [e])) []

/-- The local offset of a request's line. -/
def LineReq.off (r : LineReq) : Nat := gaOff (128 * r.1)

/-- The newest buffered tile of a core that writes any byte of a request. -/
def CoreSt.bufferOf (k : CoreSt) (r : LineReq) : Option OutTile :=
  k.wbuf.reverse.find? (fun t => t.bytes.any (fun b =>
    r.2.any (fun e => decide (e.1 ≤ b.addr.toNat) && decide (b.addr.toNat < e.1 + e.2))))

/-- Does a buffered tile write every byte of a request whole? -/
def OutTile.covers (t : OutTile) (r : LineReq) : Bool :=
  r.2.all (fun e => (List.range e.2).all (fun i => decide ((t.at (e.1 + i)).2 = 0xFF)))

/-- The buffered tile that a request meets in part only (R213). -/
def CoreSt.partly (k : CoreSt) (r : LineReq) : Option OutTile :=
  (k.bufferOf r).bind (fun t => if t.covers r then none else some t)

/-- The first such tile of a list of requests. -/
def CoreSt.overlap (k : CoreSt) (l : List LineReq) : Option OutTile :=
  if k.wbuf.isEmpty then none else l.findSome? k.partly

/-- The lines of the requests that an overlap holds. -/
def CoreSt.heldLines (k : CoreSt) (l : List LineReq) : List Nat :=
  if k.wbuf.isEmpty then [] else (l.filter (fun r => (k.partly r).isSome)).map Prod.fst

/-- How many requests are forwarded from the write buffer (R212). -/
def CoreSt.forwards (k : CoreSt) (l : List LineReq) : Nat :=
  if k.wbuf.isEmpty then 0 else (l.filter (fun r => (k.bufferOf r).isSome)).length

/-- The requests that the own store serves. -/
def State.fromStore (s : State) (c : CoreId) (l : List LineReq) : List LineReq :=
  let k := s.cores[c]
  l.filter (fun r => s.isLocal (128 * r.1) && (k.wbuf.isEmpty || (k.bufferOf r).isNone))

/-- What reading a list of requests comes to. -/
inductive Fetched where
  /-- Every byte is at hand. -/
  | ready (s : State)
  /-- The tile waits: for a commit, a remote answer or power. -/
  | wait (s : State)
  /-- An array that is not live in the mood is needed (R113). -/
  | power
  /-- The verb faulted. -/
  | stop (s : State)

/-- Count the reads that an overlap holds, each once (R213). -/
def State.countOverlaps (s : State) (c : CoreId) (l : List LineReq) : State :=
  let new := (s.cores[c].heldLines l).filter (fun x => !s.cores[c].heldReads.contains x)
  (s.addSat K.overlapWaits new.length).onCore c (fun k => { k with heldReads := k.heldReads ++ new })

/-- Commit the tiles of a core until none meets a request in part (R213). A remote tile is only asked to commit. -/
def State.clearOverlaps (s : State) (c : CoreId) (v : Verb) (l : List LineReq) : Nat → Fetched
  | 0 => .wait s
  | n + 1 =>
    match s.cores[c].overlap l with
    | none => .ready s
    | some t =>
      if s.tileLocal t then
        let s1 := s.commitOldest c
        if s1.cores[c].active.any v.same then s1.clearOverlaps c v l n else .stop s1
      else if t.remote = 0 then .wait (s.commitOldest c)
      else .wait s

/-- Is a remote byte at hand? -/
def CoreSt.hasByte (k : CoreSt) (a : Nat) : Bool := k.rdata.any (fun e => decide (e.1 ≤ a) && decide (a < e.1 + e.2.length))

/-- The stretch of its line that a request needs: from the first byte to the last of its pieces. -/
def LineReq.hull (r : LineReq) : Nat × Nat :=
  let lo := r.2.foldl (fun m e => min m e.1) (128 * r.1 + 127)
  (lo, r.2.foldl (fun m e => max m (e.1 + e.2)) lo - lo)

/-- The stretches of other devices' lines that a tile needs and that are neither at hand nor in the write buffer (R186).
-/
def State.missing (s : State) (c : CoreId) (l : List LineReq) : List (Nat × Nat) :=
  let k := s.cores[c]
  ((l.filter (fun r => !s.isLocal (128 * r.1) && (k.bufferOf r).isNone)).map LineReq.hull).filter (fun e =>
    !(k.hasByte e.1 && k.hasByte (e.1 + e.2 - 1)))

/-- Send READ requests for runs that are not outstanding yet, as far as R570 allows. -/
def State.askRuns (s : State) (c : CoreId) (v : Verb) : List (Nat × Nat) → State
  | [] => s
  | r :: rs =>
    let out := s.fab.outstanding.any (fun o => o.ofVerb c v && decide (o.addr.toNat = r.1) && decide (o.type = 0x01))
    if out then s.askRuns c v rs
    else if s.fab.outstanding.length < 2048 ∧ s.outstandingOf (fun o => decide (o.core = c.val)) < 24 then
      let q : RemReq := { tag := 0, type := 0x01, part := v.part, thread := 80, core := c.val, dev := gaDev r.1, tick := 0,
                          addr := BitVec.ofNat 64 r.1, dst := 0, ticket := v.ticket }
      (s.sendReq q 0 r.2 []).askRuns c v rs
    else s

/-- The lines that a tile takes from the own store. -/
def State.countReads (s : State) (c : CoreId) (l : List LineReq) : State :=
  s.takeLines (.chain c.val) ((s.fromStore c l).map (fun r => r.off / 128))

/-- What the own store finds in the words of a tile's reads (R222, R223). -/
def State.checkReads (s : State) (c : CoreId) (l : List LineReq) : State :=
  if s.store.single.isEmpty && s.store.latent.isEmpty then s
  else s.forEach ((s.fromStore c l).flatMap Prod.snd) (fun u e => u.checkRead (gaOff e.1) e.2)

/-- The first poisoned word that a tile reads from the own store (R223). -/
def State.poisonRead (s : State) (c : CoreId) (l : List LineReq) : Option Nat :=
  if s.store.poison.isEmpty then none
  else ((s.fromStore c l).flatMap Prod.snd).findSome? (fun e =>
    (s.store.poison.find? (fun w => decide (w < gaOff e.1 + e.2) && decide (gaOff e.1 < w + 8))).map s.ga)

/-- Bring the bytes of a list of stretches to the chain of core `c`. -/
def State.fetchAll (s : State) (c : CoreId) (v : Verb) (l : List (Nat × Nat)) : Fetched :=
  let reqs := lineReads l
  if reqs.any (fun r => s.isLocal (128 * r.1) && !s.live r.off) then .power
  else
    match (s.countOverlaps c reqs).clearOverlaps c v reqs (s.cores[c].wbuf.length + 1) with
    | .ready s0 =>
      let s1 := s0.checkReads c reqs
      match s1.poisonRead c reqs with
      | some a => .stop (s1.verbFault c v 2 1 a)
      | none =>
        let miss := s1.missing c reqs
        if miss.isEmpty then .ready s1 else .wait (s1.askRuns c v miss)
    | r => r

/-! Rows by address. -/

/-- Where the index of address `i` of a mode-2 op lies (R284). -/
def Stream.indexAt (m : Stream) (i : Nat) : Nat := (m.rb.toNat + i * m.isizeBytes) % 2 ^ 64

/-- Address `i` of an op (Table 8-9, R284). -/
def Stream.address (m : Stream) (rd : Nat → Byte) (i : Nat) : Nat :=
  match m.mode with
  | 0 => m.rb.toNat
  | 1 => (m.rb + BitVec.ofNat 64 i * m.rs).toNat
  | _ =>
    let x := ofLe ((List.range m.isizeBytes).map (fun j => rd (m.indexAt i + j)))
    (m.rs + BitVec.ofNat 64 (x * 2 ^ m.shift)).toNat

/-- The `n` addresses of an engine queue's streams after the first `skip`, each as its op and place. -/
def streamFront : List QEnt → Nat → Nat → List (Stream × Nat)
  | [], _, _ => []
  | .verb _ :: _, _, _ => []
  | .stream m :: q, skip, n =>
    let d := min skip (m.count - m.used)
    let k := min n (m.count - m.used - d)
    (List.range k).map (fun i => (m, m.used + d + i)) ++ streamFront q (skip - d) (n - k)

/-- Is it an autonomous GATHER or SCATTER, which takes a table and an index operand? -/
def Verb.tabled (v : Verb) (auto : Bool) : Bool := auto && (decide (v.op = .gather) || decide (v.op = .scatter))

/-- The stretches that give a tile its row addresses, and those of an expanding verb's predicate, which must be at hand
before the rest can be named. -/
def State.firstReads (s : State) (c : CoreId) (v : Verb) (j : Job) (p : Place) : List (Nat × Nat) :=
  let h := j.grid.shape p.tile
  if v.streams then
    (streamFront s.cores[c].queue v.keptRows (shapeRows h)).filterMap (fun e =>
      if e.1.mode = 2 then some (e.1.indexAt e.2, e.1.isizeBytes) else none)
  else if v.tabled (s.auto v.part) then
    match j.b with
    | some w => (List.range (shapeRows h)).map (fun r => ((w.loc p.tile r 0).addr, 4))
    | none => []
  else if v.op = .expand ∧ cfgBits j.cfg 320 320 = 1 then
    match j.c with
    | some w => w.tileReads h p.tile
    | none => []
  else []

/-- The table of an autonomous GATHER or SCATTER. -/
def Job.table (j : Job) : Option View := if j.op = .gather then j.a else j.dst

/-- Row `r` of a table. -/
def View.tableRow (v : View) (r : Nat) : Nat := ((v.base : Int) + r * v.stride 1).toNat % 2 ^ 64

/-- The row addresses of a tile (R474), or the address fault of an index that is out of range (R473). -/
def State.rowsOf (s : State) (c : CoreId) (v : Verb) (j : Job) (p : Place) (rd : Nat → Byte) : Except Nat (List Nat) :=
  let n := shapeRows (j.grid.shape p.tile)
  if v.streams then .ok ((streamFront s.cores[c].queue v.keptRows n).map (fun e => e.1.address rd e.2))
  else if v.tabled (s.auto v.part) then
    match j.b, j.table with
    | some w, some t =>
      let ix := (List.range n).map (fun r => (rawAt rd w.fmt (w.loc p.tile r 0)).1)
      match ix.find? (fun i => decide (t.count 1 ≤ i)) with
      | some i => .error (t.tableRow i)
      | none => .ok (ix.map t.tableRow)
    | _, _ => .ok []
  else .ok []

/-- The first addressed row that fails the window check of R191, or that an accumulating SCATTER meets misaligned. -/
def State.rowCause (s : State) (v : Verb) (rows : List Nat) (len : Nat) : Option (Nat × Nat) :=
  let r := if v.op = .scatter then v.outRight else .read
  rows.findSome? (fun a =>
    match s.addrCause v.part a (a + len - 1) r true with
    | some k => some (k, a)
    | none => if r = .atomic ∧ a % 4 ≠ 0 then some (2, a) else none)

/-! The mesh in ROTATE. -/

/-- q_i of R582: x × Q / S to the nearest integer, ties to even, clamped. -/
def meshCode (b : Nat) (e : Int) (x : W32) : Int :=
  let q : Int := 2 ^ (b - 1)
  match fval x with
  | .fin neg m ex =>
    let n : Int := roundTo 0 0 neg m (ex + (b : Int) - 1 - e) 0
    clampInt (-(q - 1)) (q - 1) (if neg then -n else n)
  | _ => 0

/-- E of R582; none for a dark row. -/
def meshExp (xs : List W32) : Option Int := (amaxLog (xs.map fval)).map (fun l => l + 1)

/-- The receiver range k of R583. -/
def meshRange (b : Nat) (qs : List Int) : Nat :=
  let t := qs.foldl (fun a q => a + (q * q).toNat) 0
  let q2 := (2 ^ (b - 1)) ^ 2
  ((List.range 3).find? (fun k => decide (t ≤ 4 ^ k * q2))).getD 3

/-- Does the NaN rule of the ROTATE entry make a row NaN? -/
def meshNan (xs : List W32) : Bool := xs.any (fun x => fisNan x || fisInf x)

/-- The outputs of one row for the receiver codes `rs` (R582, R583). -/
def meshRow (b : Nat) (rs : List Int) (xs : List W32) : List W32 :=
  if meshNan xs then List.replicate 64 qnan
  else match meshExp xs with
    | none => List.replicate 64 0
    | some e =>
      let k := meshRange b (xs.map (meshCode b e))
      (List.range 64).map (fun j => fofDyadic (at! 0 rs j) (e + k - 9))

/-- The receiver codes of a row: analog, so free, within ±511 and, with every input fresh, within R585 of the slot's
rotation of the encoded row. `free` gives the free values. -/
def receiverRow (slot : List Byte) (fresh : Bool) (b : Nat) (xs : List W32) (free : Nat → Int) : List Int :=
  match meshExp xs with
  | none => List.replicate 64 0
  | some e =>
    let qs := xs.map (meshCode b e)
    let n := qs.foldl (fun a q => a + (q * q).toNat) 0
    let us := if fresh then (rotation slot qs).map some else List.replicate 64 none
    us.zipIdx.map (fun u => receiverCode (free u.2) (u.1.map (fun x => receiverWindow x n (meshRange b qs + b - 4))))

/-- The DAC resolution of a ROTATE. -/
def meshBits (par : Nat) : Nat := if par % 16 = 0 then 8 else par % 16


/-- Entries of a core's share of a mesh log. -/
def State.meshShare (s : State) (p : Nat) : Nat := s.act (K.meshLogLength p) / (max 1 (s.coresOf p).length * 8192)

/-- The local offset of the entry at a core's cursor. -/
def State.meshEntry (s : State) (p : Nat) (c : CoreId) : Nat :=
  gaOff (s.act (K.meshLogBase p)) + (s.coreRank p c).1 * s.meshShare p * 8192 + s.cores[c].meshCursor * 8192

/-- The recorded count of a core (MESH_LOG_COUNTS). -/
def State.meshCount (s : State) (p : Nat) (c : CoreId) : Nat :=
  ofLe (((s.dsgl (K.meshLogCounts p)).drop (4 * (s.coreRank p c).1)).take 4)


/-- A data fault of the mesh (R596, R600): MESH_LAST_ERROR is written. -/
def State.meshFault (s : State) (c : CoreId) (v : Verb) (kcause mcause : Nat) : State :=
  (s.setSgl K.meshLastError (mcause + 256 * c.val)).verbFault c v 2 kcause 0

/-- Whether a ROTATE tile may go on (R592, R596 to R600). A replayed entry is read by Ingest, and faults as its reads do. -/
def State.meshTurn (s : State) (c : CoreId) (v : Verb) : Fetched :=
  let p := v.part
  let off := s.meshEntry p c
  if s.meshReplay p then
    if s.meshCount p c ≤ s.cores[c].meshCursor then .stop (s.meshFault c v 6 4)
    else if s.live off = false ∨ s.live (off + 8191) = false then .power
    else
      let u := s.checkRead off 8192
      match u.store.poison.find? (fun w => decide (w < off + 8192) && decide (off < w + 8)) with
      | some w => .stop (u.verbFault c v 2 1 (u.ga (max w off)))
      | none => .ready u
  else if s.meshRecord p ∧ s.meshShare p ≤ s.cores[c].meshCursor then .stop (s.meshFault c v 6 3)
  else if s.mesh.granted = some c.val then .ready s
  else if s.mesh.state = 7 then .stop (s.meshFault c v 5 1)
  else if s.act K.meshEnable = 0 then .stop (s.meshFault c v 5 2)
  else if s.mesh.waiting.any (fun w => decide (w.1 = c.val)) then .wait s
  else if s.lvl < 5 then .power
  else .wait (s.onMesh (fun m => { m with waiting := m.waiting ++ [(c.val, s.tick)] }))

/-- The r_j of row `r` of the tile, which is `xs` at its drive: from the log in replay (R599), else from the receivers. -/
def State.meshRead (s : State) (c : CoreId) (v : Verb) (r : Nat) (xs : List W32) : List Int :=
  if s.meshReplay v.part then
    (List.range 64).map (fun j => sext 16 (s.readWord (s.meshEntry v.part c + 128 * r + 2 * j) 2))
  else
    receiverRow (s.dact (K.slotCodes s.mesh.loaded)) s.mesh.fresh (meshBits (advParam v.adv)) xs
      (fun j => Config.receiver (s.freeCtr * 4096 + 64 * r + j))

/-- The log entry of a tile (R598): r_j of each row, zero where no light was read. -/
def State.meshLogEntry (s : State) (c : CoreId) (v : Verb) (rows : List (List W32)) : List Byte :=
  (List.range 64).flatMap (fun r =>
    let xs := at! [] rows r
    if xs.isEmpty || meshNan xs || (meshExp xs).isNone then List.replicate 128 0
    else (s.meshRead c v r xs).flatMap (fun x => leBytes 2 (BitVec.ofInt 16 x).toNat))

/-- What the mesh keeps of a ROTATE tile that has passed: its log entry, written through the core's general credits, the
cursor, and the mesh free again (R598, R599). -/
def State.meshDone (s : State) (c : CoreId) (v : Verb) (rows : List (List W32)) : State :=
  let p := v.part
  let off := s.meshEntry p c
  let s1 := if s.meshRecord p then s.storeWrite (.chain c.val) (wbytes off (s.meshLogEntry c v rows))
    else if s.meshReplay p then s.countLines (.chain c.val) off 8192 else s
  let s2 := if s.meshRecord p || s.meshReplay p then s1.onCore c (fun k => { k with meshCursor := k.meshCursor + 1 }) else s1
  s2.onMesh (fun m => if m.granted = some c.val then { m with granted := none } else m)

/-! One input tile. -/

/-- Bits that the write buffer of a core holds (R202). -/
def CoreSt.bufBits (k : CoreSt) : Nat :=
  k.wbuf.foldl (fun a t => t.bytes.foldl (fun a b => a + popcount 8 b.mask.toNat) a) 0

/-- The same of the tiles that a tile would add. -/
def commitBits (l : List (List OutByte)) : Nat :=
  l.foldl (fun a t => t.foldl (fun a b => a + popcount 8 b.mask.toNat) a) 0

/-- Issue the atomics of an accumulating SCATTER in order from number `i` on (R476, R207). Answers how many have been
issued when a remote one must wait for room, or none when a word is poisoned. -/
def State.issueAtoms (s : State) (c : CoreId) (v : Verb) (code : Nat) : List (Nat × W32) → Nat → State × Option Nat
  | [], i => (s, some i)
  | (a, x) :: l, i =>
    if s.isLocal a then
      let u := s.checkRead (gaOff a) 4
      if u.poisoned (gaOff a) then (u.verbFault c v 2 2 a, none)
      else ((u.atomLocal (.chain c.val) code 32 (gaOff a) x.toNat 0).2).issueAtoms c v code l (i + 1)
    else if s.fab.outstanding.length < 2048 ∧ s.outstandingOf (fun o => decide (o.core = c.val)) < 24 then
      let q : RemReq := { tag := 0, type := 0x05, part := v.part, thread := 80, core := c.val, dev := gaDev a, tick := 0,
                          addr := BitVec.ofNat 64 a, dst := 0, ticket := v.ticket }
      (s.sendReq q (code + x.toNat * 2 ^ 64) 0 []).issueAtoms c v code l (i + 1)
    else (s, some i)

/-- What trying the next input tile of a core comes to. -/
inductive Tried where
  /-- There is nothing to run. -/
  | idle
  /-- The tile needs an island that the mood does not power (Table 4-5). -/
  | power
  /-- The state after the try. -/
  | next (s : State)

/-- The tap tile at hand for a core, on the channel of its verb. -/
def State.tapTile (s : State) (c : CoreId) (v : Verb) : Option (List W32) :=
  (s.tap[(Fin.ofNat 4 (slotOpnd v.slot 1 % 4) : Fin 4)].bufs.find? (fun b => decide (b.1 = c.val))).map (fun b => b.2)

/-- Take it from its buffer. -/
def State.takeTap (s : State) (c : CoreId) (v : Verb) : State :=
  s.onTap (Fin.ofNat 4 (slotOpnd v.slot 1 % 4)) (fun h =>
    { h with bufs := h.bufs.eraseIdx ((h.bufs.findIdx? (fun b => decide (b.1 = c.val))).getD h.bufs.length) })

/-- Does the verb read the tap? -/
def Verb.isTap (v : Verb) : Bool := decide (termOf (slotOpnd v.slot 1) = some .tap)

/-- What a verb keeps of a tile that it takes, until the tile is complete: nothing when its output is not in the buffer
and every tile before it is complete, nor of a tap tile, which runs to completion (R404). After its last tile it holds no
streamed address back. -/
def Verb.keepsAfter (v : Verb) (e : Keep) (buffered ended : Bool) : List Keep :=
  if v.isTap || (!buffered && v.keeps.isEmpty) then []
  else (v.keeps ++ [e]).map (fun k => { k with rows := if ended then 0 else k.rows })

/-- The state once a tile has left the chain: its output in the write buffer, its meters, summaries and rounding state
kept, the addresses of complete tiles consumed, and the verb out of the chain after its last tile. `e` is what the verb
carried into the tile. -/
def State.tileDone (s : State) (c : CoreId) (v : Verb) (out : TileOut) (lfsr : W32) (e : Keep) : State :=
  let tiles := out.commits.flatMap (splitTiles v.ticket v.part v.done)
  let ended := decide (v.tiles ≤ v.done + 1)
  let w := { v with done := v.done + 1, red := out.red, sums := out.sums, awaited := s.tick,
                    metered := meterTile v.metered v.res (Config.meterPj s.freeCtr),
                    keeps := v.keepsAfter e (!tiles.isEmpty) ended }
  let s1 := (s.onCore c (fun k => CoreSt.tidy
    { k with wbuf := k.wbuf ++ tiles, lfsr := lfsr, rdata := [], heldReads := [],
             queue := consume k.queue (v.keptRows + e.rows - w.keptRows),
             active := if ended then none else some w, preemptReq := k.preemptReq && !ended,
             retiring := if ended then k.retiring ++ [{ w with stage := .retiring }] else k.retiring })).syncMesh c v.part
  ((s1.add64 K.telTiles 1).add64 (K.telPartTiles v.part) 1).tickFree

/-- Run a tile whose bytes are all at hand. -/
def State.runTile (s : State) (c : CoreId) (v : Verb) (j : Job) (rows : List Nat) (reqs : List LineReq) : Tried :=
  let rd := s.chainByte c
  let p := j.place v.done
  let k := s.cores[c]
  let us := if cfgRound v.cfg = 5 then drawUs (shapeSize (j.grid.shape p.tile)) k.lfsr else ([], k.lfsr)
  let rot (r : Nat) (xs : List W32) : List W32 := meshRow (meshBits j.par) (s.meshRead c v r xs) xs
  let free (i : Nat) : Nat := Config.reduceU us.2 i % 65536
  let tap := (s.tapTile c v).getD []
  let out := j.run rd rows tap v.done us.1 v.red v.sums rot free
  if out.commits.any (fun t => t.any (fun b => s.isLocal b.addr.toNat && !s.live (gaOff b.addr.toNat))) ||
      out.atoms.any (fun a => s.isLocal a.1 && !s.live (gaOff a.1)) then .power
  else if !k.wbuf.isEmpty && decide (131072 < k.bufBits + commitBits out.commits) then .next s
  else
    let s1 := (s.countReads c reqs).addSat K.forwarded (k.forwards reqs)
    let code := if j.fmtA.isInt then 0x1 else 0x2
    match s1.issueAtoms c v code (out.atoms.drop v.red.stream) v.red.stream with
    | (s2, none) => .next s2
    | (s2, some i) =>
      if i < out.atoms.length then
        .next (s2.onCore c (fun k => { k with active := some { v with red := { v.red with stream := i } } }))
      else
        let s3 := if v.isTap then s2.takeTap c v else s2
        let xs := ((j.load rd rows tap p.tile us.1).map (fun r =>
          r.map (fun e => (if cfgBypass v.cfg 3 then e else arithStage v.cfg j.k (0, 0) 96 e).x)))
        let s4 := if v.op = .rotate then s3.meshDone c v xs else s3
        let o2 := if v.op = .scatter then { out with red := { out.red with stream := 0 } } else out
        let e : Keep := { tile := v.done, red := v.red, sums := v.sums, lfsr := k.lfsr, cursor := k.meshCursor,
                          rows := if v.streams then rows.length else 0 }
        .next (s4.tileDone c v o2 us.2 e)

/-- Is a tap tile that has begun waiting for the verb (R404)? -/
def State.tapBegun (s : State) (c : CoreId) (v : Verb) : Bool := v.isTap && (s.tapTile c v).isSome

/-- Does a verb stand within a tile: some of an accumulating SCATTER's atomics are out? -/
def Verb.midTile (v : Verb) : Bool := decide (v.op = .scatter) && decide (v.red.stream ≠ 0)

/-- The verb that core `c` runs, as it stands now: a commit may have completed tiles of it. -/
def State.verbNow (s : State) (c : CoreId) (v : Verb) : Verb := s.cores[c].active.getD v

/-- Try the next input tile of the verb that core `c` runs. -/
def State.tryTile (s : State) (c : CoreId) : Tried :=
  match s.cores[c].active with
  | none => .idle
  | some v =>
    if s.coreGo c (pid v.part) = false ∨ (s.cores[c].preemptReq ∧ s.tapBegun c v = false ∧ v.midTile = false) then .idle
    else if v.isTap ∧ (s.tapTile c v).isNone then .idle
    else
      let j := v.job
      let p := j.place v.done
      let first := s.firstReads c v j p
      match s.fetchAll c v first with
      | .power => .power
      | .wait u | .stop u => .next u
      | .ready s1 =>
        let v1 := s1.verbNow c v
        match s1.rowsOf c v1 j p (s1.chainByte c) with
        | .error a => .next (s1.verbFault c v1 1 8 a)
        | .ok rows =>
          match s1.rowCause v1 rows (s1.rowLen v1) with
          | some e => .next (s1.verbFault c v1 1 e.1 e.2)
          | none =>
            let l := j.reads (s1.chainByte c) rows v1.done v1.red.stream
            match s1.fetchAll c v1 l with
            | .power => .power
            | .wait u | .stop u => .next u
            | .ready s2 =>
              let v2 := s2.verbNow c v1
              if v2.op = .rotate then
                match s2.meshTurn c v2 with
                | .power => .power
                | .wait u | .stop u => .next u
                | .ready s3 => s3.runTile c v2 j rows (lineReads (first ++ l))
              else s2.runTile c v2 j rows (lineReads (first ++ l))

/-- One input tile of the verb `o`, when that is what core `c` runs. -/
def State.applyVerb (s : State) (o : Op) (c : CoreId) : State :=
  if s.cores[c].active.any (fun v => decide (v.op = o)) then
    match s.tryTile c with
    | .next s1 => s1
    | _ => s
  else s

/-- TILE_COMMIT (R202, R569): the oldest output tile of a core commits, or asks for its remote commit. `waiting` requests of
other sources to lines that a local tile writes wait for it (R203, R221). -/
def State.applyCommit (s : State) (c : CoreId) (waiting : Nat) : State :=
  match s.cores[c].wbuf.find? (fun t => decide (t.remote = 0)) with
  | none => s
  | some t =>
    if s.coreUp c.val = false ∨ s.inFault ∨ (t.bytes.any (fun b => s.isLocal b.addr.toNat && !s.live (gaOff b.addr.toNat))) then s
    else (if s.tileLocal t then s.addSat K.commitWaits waiting else s).commitOldest c

/-! Commands. -/

/-- ADD. -/
def execVerbAdd (c : CoreId) (s : State) : Host.Outcome State Fault Refusal :=
  .next (s.applyVerb .add c)

/-- SUB. -/
def execVerbSub (c : CoreId) (s : State) : Host.Outcome State Fault Refusal :=
  .next (s.applyVerb .sub c)

/-- MUL. -/
def execVerbMul (c : CoreId) (s : State) : Host.Outcome State Fault Refusal :=
  .next (s.applyVerb .mul c)

/-- FMA. -/
def execVerbFma (c : CoreId) (s : State) : Host.Outcome State Fault Refusal :=
  .next (s.applyVerb .fma c)

/-- MIN. -/
def execVerbMin (c : CoreId) (s : State) : Host.Outcome State Fault Refusal :=
  .next (s.applyVerb .min c)

/-- MAX. -/
def execVerbMax (c : CoreId) (s : State) : Host.Outcome State Fault Refusal :=
  .next (s.applyVerb .max c)

/-- ABS. -/
def execVerbAbs (c : CoreId) (s : State) : Host.Outcome State Fault Refusal :=
  .next (s.applyVerb .abs c)

/-- NEG. -/
def execVerbNeg (c : CoreId) (s : State) : Host.Outcome State Fault Refusal :=
  .next (s.applyVerb .neg c)

/-- LDEXP. -/
def execVerbLdexp (c : CoreId) (s : State) : Host.Outcome State Fault Refusal :=
  .next (s.applyVerb .ldexp c)

/-- CONVERT. -/
def execVerbConvert (c : CoreId) (s : State) : Host.Outcome State Fault Refusal :=
  .next (s.applyVerb .convert c)

/-- QUANT. -/
def execVerbQuant (c : CoreId) (s : State) : Host.Outcome State Fault Refusal :=
  .next (s.applyVerb .quant c)

/-- DEQUANT. -/
def execVerbDequant (c : CoreId) (s : State) : Host.Outcome State Fault Refusal :=
  .next (s.applyVerb .dequant c)

/-- FUNC. -/
def execVerbFunc (c : CoreId) (s : State) : Host.Outcome State Fault Refusal :=
  .next (s.applyVerb .func c)

/-- COMPARE. -/
def execVerbCompare (c : CoreId) (s : State) : Host.Outcome State Fault Refusal :=
  .next (s.applyVerb .compare c)

/-- SELECT. -/
def execVerbSelect (c : CoreId) (s : State) : Host.Outcome State Fault Refusal :=
  .next (s.applyVerb .select c)

/-- REDUCE. -/
def execVerbReduce (c : CoreId) (s : State) : Host.Outcome State Fault Refusal :=
  .next (s.applyVerb .reduce c)

/-- SOFTMAX. -/
def execVerbSoftmax (c : CoreId) (s : State) : Host.Outcome State Fault Refusal :=
  .next (s.applyVerb .softmax c)

/-- SOFTMAX_PART. -/
def execVerbSoftmaxPart (c : CoreId) (s : State) : Host.Outcome State Fault Refusal :=
  .next (s.applyVerb .softmaxPart c)

/-- SOFTMAX_FIX. -/
def execVerbSoftmaxFix (c : CoreId) (s : State) : Host.Outcome State Fault Refusal :=
  .next (s.applyVerb .softmaxFix c)

/-- RMSNORM. -/
def execVerbRmsnorm (c : CoreId) (s : State) : Host.Outcome State Fault Refusal :=
  .next (s.applyVerb .rmsnorm c)

/-- ROPE. -/
def execVerbRope (c : CoreId) (s : State) : Host.Outcome State Fault Refusal :=
  .next (s.applyVerb .rope c)

/-- COPY. -/
def execVerbCopy (c : CoreId) (s : State) : Host.Outcome State Fault Refusal :=
  .next (s.applyVerb .copy c)

/-- PERMUTE. -/
def execVerbPermute (c : CoreId) (s : State) : Host.Outcome State Fault Refusal :=
  .next (s.applyVerb .permute c)

/-- SHIFT. -/
def execVerbShift (c : CoreId) (s : State) : Host.Outcome State Fault Refusal :=
  .next (s.applyVerb .shift c)

/-- COMPRESS. -/
def execVerbCompress (c : CoreId) (s : State) : Host.Outcome State Fault Refusal :=
  .next (s.applyVerb .compress c)

/-- EXPAND. -/
def execVerbExpand (c : CoreId) (s : State) : Host.Outcome State Fault Refusal :=
  .next (s.applyVerb .expand c)

/-- GATHER. -/
def execVerbGather (c : CoreId) (s : State) : Host.Outcome State Fault Refusal :=
  .next (s.applyVerb .gather c)

/-- SCATTER. -/
def execVerbScatter (c : CoreId) (s : State) : Host.Outcome State Fault Refusal :=
  .next (s.applyVerb .scatter c)

/-- ROTATE. -/
def execVerbRotate (c : CoreId) (s : State) : Host.Outcome State Fault Refusal :=
  .next (s.applyVerb .rotate c)

/-- RESHARD. -/
def execVerbReshard (c : CoreId) (s : State) : Host.Outcome State Fault Refusal :=
  .next (s.applyVerb .reshard c)

/-- FILL_VERB. -/
def execVerbFill (c : CoreId) (s : State) : Host.Outcome State Fault Refusal :=
  .next (s.applyVerb .fill c)

/-- TILE_COMMIT. -/
def execTileCommit (c : Commit) (s : State) : Host.Outcome State Fault Refusal :=
  .next (s.applyCommit c.core c.waiting)

/-- VERB_RETIRE. -/
def execVerbRetire (c : CoreId) (s : State) : Host.Outcome State Fault Refusal :=
  .next (s.applyRetire c)

/-- COMPLETION_STALL_END. -/
def execCompletionStallEnd (c : CoreId) (s : State) : Host.Outcome State Fault Refusal :=
  .next (s.applyStallEnd c)

/-- PREEMPTION. -/
def execPreemption (c : CoreId) (s : State) : Host.Outcome State Fault Refusal :=
  .next (s.applyPreemption c)

/-- VERB_RESUME. -/
def execVerbResume (c : CoreId) (s : State) : Host.Outcome State Fault Refusal :=
  .next (s.applyResume c)

end Sys2Proof.Machine
end

