-- ==== Sys2Proof/Machine/Partitions.lean ====
section
/-!
DEFINITION. Partitions as units: thread states (Table 8-14), partition resets (R252 to R256, Table 7-3, R323, R421, R601),
removal of a core (R249), FLUSH (R362 to R368, R695), halts and releases (R629 to R631), stop-after-N (R645 to R648) and
stalemate (R619 to R625).
-/
namespace Sys2Proof.Machine

/-! Threads. -/

/-- Does a thread wait on an empty ring? -/
def State.ringEmpty (s : State) (t : ThreadId) : Bool :=
  let h := s.threads[t]
  match s.threadRing t with
  | none => true
  | some r => !h.cl.active && h.fetchq.isEmpty && decide (s.rings[r].tail = s.rings[r].pc)

/-- THREAD_STATE (Table 8-14). A thread that a hold lets go on to its next clause boundary or stopping point still runs, and
so does one that awaits a remote answer, which is no stopping point of R292 (notes/assumptions/56.md). -/
def State.threadState (s : State) (t : ThreadId) : Nat :=
  let h := s.threads[t]
  match s.threadPart t with
  | none => 0
  | some p =>
    if h.run = 5 then 5
    else if h.holding || (s.partHeld p && !h.unsettled) then 6
    else match h.wait with
      | .conj .. => 3
      | .push _ | .memo .. | .fence => 4
      | .remote _ => 1
      | .none => if s.ringEmpty t then 2 else 1

/-! Doorbell registers. -/

/-- The partition that a doorbell register serves (Table 9-1). -/
def State.doorbellPart (s : State) (r : Fin 96) : Option PartId :=
  if r.val < 16 then some (pid r.val)
  else if r.val < 32 then some (pid (r.val - 16))
  else s.corePart (r.val - 32)

/-- Discard a doorbell (R247, R254, R320, R323, R325). -/
def State.discardDoorbell (s : State) (r : Fin 96) (v : Nat) : State :=
  let p := ((s.doorbellPart r).map (fun p => p.val)).getD noPart
  s.logRec 0x0241 1 p r.val v

/-- Discard the doorbells that are held for a partition (R323). -/
def State.dropHeldDoorbells (s : State) (p : PartId) : State :=
  let mine (e : Event) : Bool := match e with
    | .doorbell r _ => decide (s.doorbellPart r = some p)
    | _ => false
  let gone := s.aon.held.filter mine
  (s.onAon (fun a => { a with held := a.held.filter (fun e => !mine e) })).forEach gone (fun u e =>
    match e with
    | .doorbell r v => u.discardDoorbell r v.toNat
    | _ => u)

/-- Set a doorbell register. -/
def State.setDoorbell (s : State) (r : Fin 96) (v : W32) : State :=
  s.onLink (fun l => { l with doorbells := vset l.doorbells r v })

/-- Zero the counts of a feed or clause ring and its doorbell register (R321, R323). -/
def State.zeroRing (s : State) (r : Fin 80) : State :=
  (s.onRing r (fun _ => RingPos.reset)).setDoorbell
    (if r.val < 64 then Fin.ofNat 96 (32 + r.val) else Fin.ofNat 96 (r.val - 64)) 0

/-- Zero the counts of a completion ring. -/
def State.zeroCompl (s : State) (p : PartId) : State :=
  (s.onPart p (fun q => { q with produced := 0, consumed := 0 })).setDoorbell (Fin.ofNat 96 (16 + p.val)) 0

/-! Partition reset. -/

/-- Load the rounding generator of a core (R421). -/
def State.seedCore (s : State) (c : CoreId) : State :=
  s.onCore c (fun k => { k with lfsr := BitVec.ofNat 32 (s.act (K.lfsrSeed c.val)) })

/-- Abandon every verb of a partition on a core. -/
def State.abandonOn (s : State) (p : PartId) (c : CoreId) : State :=
  s.forEach (s.cores[c].verbs.filter (fun v => decide (v.part = p.val))) (fun u v => u.abandon c v)

/-- A core as a partition reset leaves it (Table 7-3, R421, R601). -/
def State.clearCore (s : State) (c : CoreId) : State :=
  s.onCore c (fun _ => CoreSt.reset (BitVec.ofNat 32 (s.act (K.lfsrSeed c.val))))

/-- A thread as a reset leaves it (R298, R310): its count of rejected pushes is kept. -/
def State.clearThread (s : State) (t : ThreadId) : State :=
  s.onThread t (fun h => { Thread.reset with pushRejected := h.pushRejected })

/-- In recording mode the counts of a mesh log go with its cursors (R601). -/
def State.clearMeshCounts (s : State) (p : PartId) : State :=
  if s.meshRecord p.val then s.setDom (K.meshLogCounts p.val) (List.replicate 256 0) else s

/-- A core after a reset of partition `p` (Table 7-3): tiles whose commit has started go on, and so does the retirement of a
verb of another partition that the core had before (R255). -/
def State.clearPartCore (s : State) (p : PartId) (c : CoreId) : State :=
  let old := s.cores[c]
  (s.clearCore c).onCore c (fun k =>
    { k with wbuf := old.wbuf.filter (fun t => t.begun), retiring := old.retiring.filter (fun v => v.part ≠ p.val) })

/-- Table 7-3 for partition `p`, as it is composed in the active set. The answers of its outstanding remote requests
will match no request, and so are discarded on arrival; a tile transaction goes on. -/
def State.resetEffects (s : State) (p : PartId) : State :=
  let cs := s.coresOf p.val
  let s1 := s.forEach cs (fun u c => u.abandonOn p c)
  let s2 := s1.onFab (fun f => { f with outstanding := f.outstanding.filter (fun r =>
    decide (r.part ≠ p.val) || decide (r.type = 0x03) || decide (r.type = 0x04)) })
  let s3 := (s2.forEach cs (fun u c => u.clearPartCore p c)).forEach (cs.map (fun c => tid c.val) ++ s.ctlThread p.val)
    State.clearThread
  let s4 := s3.dropHeldDoorbells p
  let s5 := ((s4.forEach (cs.map (fun c => tid c.val)) State.zeroRing).zeroRing (tid (64 + p.val))).zeroCompl p
  let s6 := s5.onPart p (fun q => { Part.reset with state := 1, deadlineSeen := q.deadlineSeen })
  (((s6.clearMeshCounts p).setSgl (K.stopAfter p.val) 0).setSgl (K.stopState p.val) 0).setDom (K.waitGraph p.val) []

/-- Begin a partition reset (R252): the partition is in state 6. -/
def State.beginReset (s : State) (p : PartId) : State :=
  if s.parts[p].state = 6 then s else s.onPart p (fun q => { q with state := 6, resetTick := s.tick })

/-- Does a tap burst for a core of the partition still run (Table 7-3, R491)? -/
def State.tapOwes (s : State) (p : PartId) : Bool :=
  (List.finRange 4).any (fun h => s.tap[h].bus.any (fun b => bit (s.coreMask p.val) b.dest))

/-- PART_RESET_COMPLETE (R253). In Fault nothing settles (R137). -/
def State.applyResetComplete (s : State) (p : PartId) : State :=
  if s.parts[p].state ≠ 6 ∨ s.tapOwes p ∨ s.inFault then s else (s.resetEffects p).bump32 (K.partResetCount p.val)

/-- R256: every enabled partition set as a partition reset would, with no count, and every thread and core cleared
(R298, R310, R421). -/
def State.resetAllParts (s : State) : State :=
  let s1 := s.forEach ((List.finRange 16).filter (fun p => s.enabled p.val)) State.resetEffects
  (s1.forEach (List.finRange 80) State.clearThread).forEach (List.finRange 64) State.clearCore

/-- Withdraw what a flushed thread has under way (R363): its clause, its fetched clauses and its waits. A signal of its
clause whose verbs run on keeps waiting for them (notes/assumptions/33.md). -/
def State.withdraw (s : State) (t : ThreadId) : State :=
  let pushed := s.threads[t].cl.pushed
  let s1 := s.onThread t (fun h => { h with cl := ClauseSt.reset, fetchq := [], wait := .none, holding := false })
  match s.threadPart t with
  | none => s1
  | some p =>
    let mine (g : PendSig) : Bool := decide (g.thread = t.val) && g.opened
    let due := s1.parts[p].sigs.filter (fun g => mine g && g.tickets.isEmpty && !g.dropped && !pushed.isEmpty)
    let s2 := s1.onPart p (fun q =>
      { q with sigs := (q.sigs.filter (fun g => !(mine g && (g.tickets.isEmpty || g.dropped)))).map (fun g =>
          if mine g then { g with opened := false } else g) })
    s2.forEach due (fun u g => u.emitSignal t p g.ref.toNat g.value.toNat)

/-! Removal of a core (R249). -/

/-- The verbs of a partition that are queued or preempted on a core. One that waits at step 6 has run. -/
def CoreSt.unrun (k : CoreSt) (p : PartId) : List Verb :=
  (k.queue.filterMap (fun e => match e with | .verb v => some v | .stream _ => none) ++ k.pre.toList).filter
    (fun v => decide (v.part = p.val))

/-- Abandon what a removed core holds of a partition, with what its own thread has under way: how many verbs that were. -/
def State.removeCore (s : State) (p : PartId) (c : CoreId) : State × Nat :=
  let vs := s.cores[c].unrun p
  (((s.forEach vs (fun u v => (u.abandon c v).bump K.partAbandoned)).onCore c (fun k =>
    { k with queue := k.queue.filter (fun e => match e with | .stream m => m.part ≠ p.val | .verb _ => true) })).withdraw
      (tid c.val), vs.length)

/-- Remove cores from a partition at a swap: one record for the partition. -/
def State.removeCores (s : State) (p : PartId) (cs : List CoreId) : State :=
  let r := cs.foldl (fun (a : State × Nat) c => let q := a.1.removeCore p c; (q.1, a.2 + q.2)) (s, 0)
  if r.2 = 0 then r.1 else r.1.logRec 0x0223 1 p.val r.2 0

/-! FLUSH. -/

/-- Does a flush of object `u` reach a verb or stream of thread `owner` on core `c`? A core of a directed partition
flushes whatever its queue holds (R695); any other object what its thread pushed. -/
def flushReaches (u : ThreadId) (directed : Bool) (c : CoreId) (owner : Nat) : Bool :=
  if directed then decide (u.val = c.val) else decide (owner = u.val)

/-- Drop the address-stream ops that a flush reaches, but for the addresses that a verb in the chain has still to take.
-/
def dropStreams (reach : Nat → Bool) : List QEnt → Nat → List QEnt
  | [], _ => []
  | .verb v :: q, n => .verb v :: dropStreams reach q n
  | .stream m :: q, n =>
    let k := min n (m.count - m.used)
    if reach m.thread then
      if k = 0 then dropStreams reach q 0 else .stream { m with count := m.used + k } :: dropStreams reach q (n - k)
    else .stream m :: dropStreams reach q (n - k)

/-- FLUSH on one core: the queued verbs and address-stream ops it reaches are abandoned when the value is 2 or 3, and for
3 a running verb is preempted and a preempted one abandoned (Table 9-5). -/
def State.flushCore (s : State) (u : ThreadId) (directed : Bool) (v : Nat) (c : CoreId) : State :=
  let k := s.cores[c]
  let reach (o : Nat) : Bool := flushReaches u directed c o
  if v < 2 then s
  else
    let queued := k.queue.filterMap (fun e => match e with
      | .verb w => if reach w.thread then some w else none
      | .stream _ => none)
    let s1 := s.forEach queued (fun x w => x.flushAbandon c w)
    let s2 := s1.onCore c (fun k => { k with queue := dropStreams reach k.queue k.rowsOwed })
    if v < 3 then s2
    else
      let s3 := s2.forEach (s2.cores[c].pre.toList.filter (fun w => reach w.thread)) (fun x w => x.flushAbandon c w)
      if s3.cores[c].active.any (fun w => reach w.thread) then s3.onCore c CoreSt.askPreempt else s3

/-- Tickets of the verbs on a core. -/
def CoreSt.tickets (k : CoreSt) : List Nat := k.verbs.map (fun v => v.ticket)

/-- FLUSH of object `u` with value `v`, applied (R362 to R364, R695). In Fault it is pending only: nothing settles (R137). -/
def State.applyFlush (s : State) (u : ThreadId) (p : PartId) (v : Nat) : State :=
  if h : u.val < 64 then
    let c : CoreId := ⟨u.val, h⟩
    if s.auto p.val then
      let s1 := s.onThread u (fun t => { t with flush := max t.flush v })
      if s.inFault then s1 else (s1.withdraw u).flushCore u false v c
    else
      let s1 := s.onCore c (fun k => { k with flush := max k.flush v, flushFor := k.tickets })
      if s.inFault then s1 else s1.flushCore u true v c
  else
    let s1 := s.onThread u (fun t => { t with flush := max t.flush v })
    if s.inFault then s1 else (s1.withdraw u).forEach (s.coresOf p.val) (fun x c => x.flushCore u false v c)

/-- Has a thread pushed a verb that has neither retired nor been abandoned? -/
def State.threadVerbs (s : State) (t : ThreadId) : Bool :=
  (List.finRange 64).any (fun c => s.cores[c].verbs.any (fun v => decide (v.thread = t.val)))

/-- Does the reset of its partition clear a pending FLUSH (R362)? -/
def State.resetting (s : State) (p : Option PartId) : Bool := p.any (fun p => decide (s.parts[p].state = 6))

/-- FLUSH_COMPLETE (R365): every verb of the flushed thread is gone, so its ring positions move to the tail. -/
def State.applyFlushComplete (s : State) (t : ThreadId) : State :=
  if s.threads[t].flush = 0 ∨ s.threadVerbs t ∨ s.resetting (s.threadPart t) then s
  else
    let set (u : State) : State := match s.threadRing t with
      | none => u
      | some r => u.onRing r (fun q => { q with pc := q.tail, fetch := q.tail, retire := q.tail, hold := none })
    let s1 := set (s.onThread t (fun h => { h with flush := 0, run := 0, faultWord := 0, faultAddr := 0 }))
    s1.logRec 0x0230 0 (((s.threadPart t).map (fun p => p.val)).getD noPart) t.val 0

/-- CORE_FLUSH_COMPLETE (R695): at a verb boundary, where the core has no verb running; a preempted one counts as running
(R368). -/
def State.applyCoreFlushComplete (s : State) (c : CoreId) : State :=
  let k := s.cores[c]
  if k.flush = 0 ∨ k.active.isSome ∨ k.pre.isSome ∨ k.verbs.any (fun v => k.flushFor.contains v.ticket) ∨
      s.resetting (s.corePart c.val) then s
  else
    (s.onCore c (fun k => { k with flush := 0, flushFor := [] })).logRec 0x0230 0
      (((s.corePart c.val).map (fun p => p.val)).getD noPart) c.val 0

/-! Halts and releases. -/

/-- PARTITION_HALTED (R629, step 5): no verb of the partition is in a chain any more, and every thread holds. -/
def State.applyHalted (s : State) (p : PartId) : State :=
  if s.parts[p].halting ∧ s.parts[p].state ≠ 6 ∧
      (s.coresOf p.val).all (fun c => !s.cores[c].active.any (fun v => decide (v.part = p.val))) ∧
      (s.threadsOf p.val).all (fun t => !s.threads[t].unsettled) then
    s.onPart p (fun q => { q with state := 4, halting := false })
  else s

/-- PARTITION_FAULT (R628 to R630): the fault as it is raised; the verb with its ticket is abandoned. -/
def State.applyPartitionFault (s : State) (p : PartId) (f : FaultInfo) : State :=
  if f.kind = 0 ∨ s.enabled p.val = false ∨ s.parts[p].state = 6 ∨ s.inFault then s
  else
    let s1 := s.raiseFault p f.kind.val f.cause.toNat f.unit.val f.control f.ticket.toNat f.addr.toNat
    if f.control then s1.holdThread (tid (64 + f.unit.val))
    else match s1.cores[f.unit].verbs.find? (fun v => decide (v.part = p.val) && decide (v.ticket = f.ticket.toNat)) with
      | some v => s1.abandon f.unit v
      | none => s1

/-- The release of a halted partition (R631). -/
def State.release (s : State) (p : PartId) : State :=
  let old := s.parts[p].state
  let s1 := s.onPart p (fun q => { q with state := 1, faulted := false, halting := false, stopped := false, quiet := 0 })
  (s1.forEach (s1.threadsOf p.val) (fun u t => u.onThread t (fun h => { h with holding := false }))).logRec 0x0222 0 p.val
    old 0

/-! Stop after N. -/

/-- Does a thread hold, wait on a conjunction, or wait on an empty ring (R646)? -/
def State.stands (s : State) (t : ThreadId) : Bool :=
  let h := s.threads[t]
  h.holding || (match h.wait with
    | .conj .. => true
    | .none => decide (h.run ≠ 5) && s.ringEmpty t
    | _ => false)

/-- Does stop-after-N have some thread hold, and every other one stand? -/
def State.stopsAll (s : State) (p : PartId) : Bool :=
  let ts := s.threadsOf p.val
  ts.any (fun t => s.threads[t].holding) && ts.all s.stands

/-- Has the partition a verb that is neither retired nor abandoned? -/
def State.busy (s : State) (p : PartId) : Bool := !(s.verbsOf p.val).isEmpty

/-- STOP_REACHED (R646). A partition fault comes first. -/
def State.applyStopReached (s : State) (p : PartId) : State :=
  if s.enabled p.val ∧ s.parts[p].state = 1 ∧ s.parts[p].halting = false ∧ s.stopsAll p ∧ s.busy p = false then
    ((s.onPart p (fun q => { q with state := 5, stopped := true })).setSgl (K.stopState p.val) 2).logRec 0x0221 0 p.val
      (s.sgl (K.stopAfter p.val)) 0
  else s

/-- A write of STOP_AFTER (R645, R647): what held before looks at the new value at its next push, once released. -/
def State.applyStopAfter (s : State) (p : PartId) (n : Nat) : State :=
  let s1 := (s.setSgl (K.stopAfter p.val) n).setSgl (K.stopState p.val) (if n = 0 then 0 else 1)
  if s.parts[p].state ≠ 1 ∨ s.parts[p].halting then s1
  else s1.forEach (s1.threadsOf p.val) (fun u t => u.onThread t (fun h => { h with holding := false }))

/-! Stalemate. -/

/-- A thread entry of WAIT_GRAPH (Table 18-6). -/
def State.waitEntry (s : State) (t : ThreadId) : List Byte :=
  match s.threads[t].wait with
  | .conj ref v _ _ _ =>
    let here := s.isLocal ref.toNat
    leBytes 4 t.val ++ leBytes 4 v.toNat ++ leBytes 8 ref.toNat ++
      leBytes 4 (if here then s.conjVal (conjIdx (gaOff ref.toNat)) else 0xFFFFFFFF) ++ leBytes 4 (b2n !here) ++
      leBytes 8 (s.clauseAddr t)
  | _ => []

/-- A signal entry of WAIT_GRAPH. -/
def sigEntry (g : SigRec) : List Byte :=
  leBytes 8 g.ref ++ leBytes 4 g.value ++ leBytes 2 (if g.kind = 2 then 0 else g.dev % 4096 + 4096 * g.part) ++
    leBytes 2 g.kind ++ leBytes 8 g.tick

/-- WAIT_GRAPH of a partition now (R625). -/
def State.graphOf (s : State) (p : PartId) : List Byte :=
  let es := (((List.finRange 80).filter (fun t => (s.threadsOf p.val).contains t)).map s.waitEntry).filter (fun e => !e.isEmpty)
  let gs := s.parts[p].hist
  leBytes 8 (p.val + 256 * es.length + 65536 * gs.length) ++ leBytes 8 s.tick ++ es.flatten ++
    (gs.map sigEntry).flatten

/-- STALEMATE (R622): the stalemate timer of a partition has fired, after 256 quiet ticks. -/
def State.applyStalemate (s : State) (p : PartId) : State :=
  if s.parts[p].state = 1 ∧ s.enabled p.val ∧ 256 ≤ s.parts[p].quiet then
    let s1 := (s.setSgl (K.stalemateTick p.val) s.tick).bump (K.stalemateCount p.val)
    let s2 := (s1.setDom (K.waitGraph p.val) (s.graphOf p)).onPart p (fun q => { q with state := 3, quiet := 0 })
    (s2.logRec 0x0220 2 p.val s.tick 0).notify 5 (K.stalemateTick p.val) s.tick
  else s

/-! Commands. -/

/-- PART_RESET_COMPLETE. -/
def execPartResetComplete (p : PartId) (s : State) : Host.Outcome State Fault Refusal :=
  .next (s.applyResetComplete p)

/-- FLUSH_COMPLETE. -/
def execFlushComplete (t : ThreadId) (s : State) : Host.Outcome State Fault Refusal :=
  .next (s.applyFlushComplete t)

/-- CORE_FLUSH_COMPLETE. -/
def execCoreFlushComplete (c : CoreId) (s : State) : Host.Outcome State Fault Refusal :=
  .next (s.applyCoreFlushComplete c)

/-- STALEMATE. -/
def execStalemate (p : PartId) (s : State) : Host.Outcome State Fault Refusal :=
  .next (s.applyStalemate p)

/-- PARTITION_FAULT. -/
def execPartitionFault (p : PartId) (f : FaultInfo) (s : State) : Host.Outcome State Fault Refusal :=
  .next (s.applyPartitionFault p f)

/-- PARTITION_HALTED. -/
def execPartitionHalted (p : PartId) (s : State) : Host.Outcome State Fault Refusal :=
  .next (s.applyHalted p)

/-- STOP_REACHED. -/
def execStopReached (p : PartId) (s : State) : Host.Outcome State Fault Refusal :=
  .next (s.applyStopReached p)

end Sys2Proof.Machine
end

