-- ==== Sys2Proof/Machine/Dictionary.lean ====
section
/-!
DEFINITION. The values of the object dictionary (chapters 3, 19 and 21): objects that show an engine's own state are
computed from that state, the others are held as plain data; captures of DOMAIN objects; and the checks that R684 places
on a value.
-/
namespace Sys2Proof.Machine

/-! Clocks (Table 4-2, Table 4-9, R115, R126, R137). -/

/-- Is cluster `c` powered (Table 4-2)? -/
def State.clusterUp (s : State) (c : Nat) : Bool := if c < 2 then decide (5 ≤ s.lvl) else decide (6 ≤ s.lvl)

/-- Halved in Brace and after a warning in Quiesce (R126, R131). -/
def State.half (s : State) (mhz : Nat) : Nat := if s.aon.mood.halved then mhz / 2 else mhz

/-- CLUSTER_CLOCK of cluster `c`, in MHz. -/
def State.clusterMhz (s : State) (c : ClusterId) : Nat :=
  if s.inFault || !s.clusterUp c.val || s.aon.clocks.stopped[c] then 0 else s.half (pointClock s.aon.clocks.points[c])

/-- The points that the store and control clocks follow: those chosen, and in Brace those held before the dip (R179). -/
def State.heldPoints (s : State) : Vector Nat 8 := if s.mood = .brace then s.aon.clocks.dip else s.aon.clocks.points

/-- The highest clock of these points, which the store and the control cores follow (notes/assumptions/7.md). -/
def State.topMhz (s : State) : Nat :=
  (List.finRange 8).foldl (fun m c => if s.clusterUp c.val then max m (pointClock s.heldPoints[c]) else m) 200

/-- STORE_CLOCK, in MHz (R137). -/
def State.storeMhz (s : State) : Nat := if s.storeUp then (if s.inFault then 200 else s.half s.topMhz) else 0
/-- CONTROL_CLOCK, in MHz. -/
def State.controlMhz (s : State) : Nat := if s.storeUp && !s.inFault then s.half s.topMhz else 0
/-- LISTEN_CLOCK, in MHz. -/
def State.listenMhz (s : State) : Nat := if decide (4 ≤ s.lvl) && !s.inFault then s.half 100 else 0

/-! Scalar objects that show an engine's state. -/

/-- CHAIN_STATE (Table 10-11). -/
def State.chainState (s : State) (c : CoreId) : Nat :=
  let k := s.cores[c]
  if k.pre.isSome then 3
  else if k.active.isSome then
    match s.tryTile c with
    | .next _ => 1
    | _ => 2
  else match s.corePart c.val with
    | some p => if s.partHeld p || decide (s.parts[p].state = 5) then 4 else 0
    | none => 0

/-- FLUSH_STATE of a core or a control core: the value of the flush that is pending. -/
def State.flushState (s : State) (u : ThreadId) : Nat :=
  if u.val < 64 then max s.threads[u].flush s.cores[cid u.val].flush else s.threads[u].flush

/-- The objects of a thread (Table 8-14). -/
def State.threadVal (s : State) (t : ThreadId) (j : Nat) : Nat :=
  let h := s.threads[t]
  let at? (f : RingPos → W32) : Nat :=
    match s.threadRing t with
    | some r => s.ringAddr r (f s.rings[r])
    | none => 0
  match j with
  | 1 => s.threadState t
  | 2 => at? RingPos.pc
  | 3 => at? RingPos.fetch
  | 4 => at? RingPos.retire
  | 5 => match (s.threadRing t).bind (fun r => (s.rings[r].hold).map (fun n => s.ringAddr r n)) with
    | some a => a
    | none => 2 ^ 64 - 1
  | 6 => h.faultWord.toNat
  | 7 => h.faultAddr.toNat
  | 8 => h.pushRejected
  | 9 => h.clausesRetired
  | _ => h.verbsPushed

/-- Ledger figures (Table 21-4) as 64-bit words. -/
def State.ledgerVal (s : State) (j : Nat) : Option Nat :=
  match j with
  | 2 => some (w64 s.ledger.pool).toNat
  | 3 => some (w64 s.ledger.deposits).toNat
  | 4 => some (w64 s.ledger.poolSpent).toNat
  | 5 => some (w64 s.ledger.totalReserved).toNat
  | 6 => some (w64 s.ledger.totalSpent).toNat
  | _ => none

/-- Figures of a sub-ledger (Table 21-4). -/
def State.subVal (s : State) (p : PartId) (j : Nat) : Option Nat :=
  let b := s.ledger.subs[p]
  match j with
  | 2 => some (w64 b.balance).toNat
  | 3 => some (w64 b.reserved).toNat
  | 4 => some (w64 b.spent).toNat
  | _ => none

/-- Objects of the mood machine (Table 4-9). -/
def State.moodVal (s : State) (j : Nat) : Option Nat :=
  let m := s.aon.mood
  match j with
  | 1 => some m.cur.code
  | 2 => some m.target.code
  | 8 => some m.ret.code
  | 9 => some m.entryTick
  | 10 => some m.phase
  | _ => none

/-- Clock objects (Table 4-9). -/
def State.clockVal (s : State) (j : Nat) : Option Nat :=
  if 1 ≤ j ∧ j ≤ 8 then some (s.clusterMhz (Fin.ofNat 8 (j - 1)))
  else match j with
    | 9 => some s.storeMhz
    | 10 => some s.controlMhz
    | 11 => some s.listenMhz
    | 12 => some (b2n s.aon.clocks.surge)
    | _ => none

/-- Objects of a supply monitor (Table 21-4). -/
def Mon.val (m : Mon) (j : Nat) : Option Nat :=
  match j with
  | 1 => some m.mv
  | 2 => some m.state
  | 3 => some m.minMv
  | _ => none

/-- Objects of a partition (Table 21-5). -/
def State.partVal (s : State) (p : PartId) (j : Nat) : Option Nat :=
  match j with
  | 5 => some (s.partState p)
  | 10 => some (if s.enabled p.val then (s.threadsOf p.val).length else 0)
  | _ => none

/-- Objects of a core (Table 21-7). LFSR_STATE of a preempted verb is that of its context (R405). -/
def State.coreVal (s : State) (c : CoreId) (j : Nat) : Option Nat :=
  let k := s.cores[c]
  match j with
  | 1 => some k.queue.length
  | 4 => some (s.flushState (tid c.val))
  | 8 => some (s.chainState c)
  | 9 => some k.tilesDone
  | 11 => some k.retired
  | 13 => some ((k.pre.bind (fun v => v.rnd)).getD k.lfsr).toNat
  | _ => none

/-- TAP_LINK (Table 14-5). -/
def TapCh.link (t : TapCh) : Nat := if t.linkM && t.linkV then 2 else if t.training then 1 else 0

/-- Objects of a tap channel (Table 21-10). -/
def TapCh.val (t : TapCh) (j : Nat) : Option Nat :=
  match j with
  | 5 => some t.link
  | 6 => some t.heldBanks.toNat
  | 13 => some t.clock
  | _ => none

/-- Does a read find the word of an offset poisoned: marked before, or by this read (R223)? -/
def State.badWord (s : State) (off : Nat) : Bool := s.poisoned off || s.store.latent.contains (off / 8 * 8)

/-- The words of an aligned range, poisoned ones as zero (R233, R650). -/
def State.digestBytes (s : State) (off n : Nat) : List Byte :=
  ((List.range (n / 8)).map (fun w =>
    if s.badWord (off + 8 * w) then List.replicate 8 0 else s.readMem (off + 8 * w) 8)).flatten

/-- Poisoned words in a range. -/
def State.poisonCount (s : State) (off n : Nat) : Nat :=
  ((List.range (n / 8)).filter (fun w => s.badWord (off + 8 * w))).length

/-- Has the mesh temperature moved by at least `half` halves of MESH_TEMP_STEP since a step at `t` (R585, R589)? A value
that is no number has not moved. -/
def State.meshMoved (s : State) (half : Nat) (t : W32) : Bool :=
  let moved := (((fval s.mesh.temp).add (fval t).neg).abs).mul (Val.ofInt 2)
  match moved.cmp ((fval (BitVec.ofNat 32 (s.act K.meshTempStep))).mul (Val.ofInt half)) with
  | some d => decide (0 ≤ d)
  | none => false

/-- Is mesh input `x` fresh (chapter 17, Precision and drift)? -/
def State.meshFresh (s : State) (x : Fin 64) : Bool :=
  match s.mesh.stepTick[x] with
  | none => false
  | some t =>
    decide (s.tick ≤ t + 128 * s.act K.meshCalInterval) && !s.meshMoved 2 s.mesh.stepTemp[x] &&
      decide (s.mesh.gainFell ≤ t)

/-- Is every input fresh? -/
def State.meshAllFresh (s : State) : Bool := (List.finRange 64).all s.meshFresh

/-- MESH_STATE (Table 17-4). -/
def State.meshState (s : State) : Nat :=
  if s.mesh.state = 4 then (if s.meshAllFresh then 4 else 5) else s.mesh.state

/-- The value of a scalar object that an engine's state determines; none for an object held as plain data. -/
def State.engineVal (s : State) (i j : Nat) : Option Nat :=
  if i = 0x1000 then
    (match j with
     | 4 => some Config.serial.toNat
     | 5 => some Config.mac.toNat
     | 6 => some (if s.sled then 2 else 1)
     | _ => none)
  else if i = 0x1020 ∧ j = 2 then some s.link.i3c.dyn.toNat
  else if i = 0x1040 ∧ j = 4 then some s.link.notifySeq.toNat
  else if i = 0x1100 ∧ j = 1 then some (s.link.readTick.getD s.tick)
  else if i = 0x1100 ∧ j = 2 then some s.aon.lock
  else if i = 0x1200 ∧ j = 3 then some s.aon.swapStatus
  else if i = 0x1200 ∧ j = 5 then some s.aon.swapTick
  else if i = 0x1200 ∧ j = 8 then some (b2n (!s.diffs.isEmpty))
  else if i = 0x2000 then s.moodVal j
  else if 0x2010 ≤ i ∧ i < 0x2018 ∧ j = 5 then
    let e := s.store.spilled[(Fin.ofNat 8 (i - 0x2010) : Fin 8)]
    some (b2n (e.1 || e.2))
  else if i = 0x2100 then s.clockVal j
  else if i = 0x2400 then s.ledgerVal j
  else if 0x2410 ≤ i ∧ i < 0x2420 then s.subVal (pid (i - 0x2410)) j
  else if i = 0x2420 ∧ j = 11 then some (b2n s.aon.stale)
  else if i = 0x2500 then
    (match j with
     | 7 => some s.aon.thermal.junction.toNat
     | 8 => some s.aon.thermal.tn.toNat
     | 9 => some s.aon.thermal.peak.toNat
     | 12 => some (b2n s.aon.thermal.tripActive)
     | _ => none)
  else if 0x2510 ≤ i ∧ i < 0x251C then some (s.aon.thermal.sensors[(Fin.ofNat 12 (i - 0x2510) : Fin 12)]).toNat
  else if i = 0x2600 then some (if j = 1 then s.aon.railEn.toNat else s.aon.railGood.toNat)
  else if 0x2610 ≤ i ∧ i < 0x2618 then (s.aon.mons[(Fin.ofNat 8 (i - 0x2610) : Fin 8)]).val j
  else if i = 0x3000 ∧ j = 1 then
    some ((List.range 16).foldl (fun a p => a + (if s.enabled p then 2 ^ p else 0)) 0)
  else if 0x3010 ≤ i ∧ i < 0x3020 then s.partVal (pid (i - 0x3010)) j
  else if 0x3020 ≤ i ∧ i < 0x3030 ∧ j = 4 then some (s.parts[pid (i - 0x3020)]).quiet
  else if i = 0x3100 ∧ j = 4 then some (s.conjVal (s.sgl K.conjSelect))
  else if 0x5010 ≤ i ∧ i < 0x5050 then s.coreVal (cid (i - 0x5010)) j
  else if 0x5050 ≤ i ∧ i < 0x5060 ∧ j = 2 then some (s.flushState (tid (64 + (i - 0x5050))))
  else if 0x5400 ≤ i ∧ i < 0x5410 then some (s.threadVal (tid (64 + (i - 0x5400))) j)
  else if 0x5440 ≤ i ∧ i < 0x5480 then some (s.threadVal (tid (i - 0x5440)) j)
  else if 0x5810 ≤ i ∧ i < 0x5820 ∧ j = 11 then some (s.parts[pid (i - 0x5810)]).sb.length
  else if 0x5810 ≤ i ∧ i < 0x5820 ∧ j = 15 then some (s.parts[pid (i - 0x5810)]).ticket
  else if i = 0x6000 ∧ j = 2 then some s.pho.spareLine
  else if 0x6010 ≤ i ∧ i < 0x6018 ∧ j = 2 then some (s.ports[qid (i - 0x6010)]).state
  else if i = 0x6100 then
    (match j with
     | 3 => some s.pho.linkState
     | 4 => some s.pho.fade
     | 9 => some s.pho.prediction
     | _ => none)
  else if i = 0x6400 ∧ j = 8 then some s.fab.outstanding.length
  else if i = 0x6400 ∧ j = 13 then some s.fab.regs.length
  else if 0x6410 ≤ i ∧ i < 0x6418 ∧ j = 1 then some (s.ports[qid (i - 0x6410)]).far.toNat
  else if 0x6410 ≤ i ∧ i < 0x6418 ∧ j = 2 then some (s.ports[qid (i - 0x6410)]).fault
  else if i = 0x6800 ∧ j = 2 then some s.meshState
  else if i = 0x6800 ∧ j = 3 then some s.mesh.loaded
  else if 0x7010 ≤ i ∧ i < 0x7014 then (s.tap[(Fin.ofNat 4 (i - 0x7010) : Fin 4)]).val j
  else if i = 0x7800 ∧ j = 2 then some s.aon.log.seq
  else if i = 0x7840 ∧ j = 4 then some (w64 s.aon.auditExpected).toNat
  else if i = 0x7840 ∧ j = 5 then some (w64 s.aon.auditFound).toNat
  else if i = 0x7C00 ∧ j = 8 then
    some (crc64 (s.digestBytes (s.sgl K.digestAddress) (s.sgl K.digestLength))).toNat
  else none

/-! DOMAIN objects that show an engine's state. -/

/-- An event-log record as its 32 bytes (Table 19-4). -/
def LogRec.bytes (r : LogRec) : List Byte :=
  leBytes 8 r.tick ++ leBytes 4 r.seq ++ leBytes 2 r.source ++ leBytes 1 r.severity ++ leBytes 1 r.part ++
    leBytes 8 r.a ++ leBytes 8 r.b

/-- EVENT_LOG (R633). -/
def Log.bytes (l : Log) : List Byte :=
  (l.recs.map LogRec.bytes).flatten ++ List.replicate (32 * (256 - l.recs.length)) 0

/-- TORN_LIST (R639). -/
def Part.tornBytes (p : Part) : List Byte :=
  (((p.sb.filter (fun e => e.write && e.torn)).take 128).map (fun e => leBytes 8 e.lo ++ leBytes 8 e.hi)).flatten

/-- INPUT_AGE of an input (Table 17-4): ticks since its last step, saturating. -/
def State.inputAge (s : State) (x : Fin 64) : Nat :=
  match s.mesh.stepTick[x] with
  | some t => sat32 (s.tick - t)
  | none => 0

/-- SNAP_REGS (Table 19-10). -/
def State.snapBytes (s : State) (t : ThreadId) : List Byte :=
  let h := s.threads[t]
  let ctl := decide (64 ≤ t.val)
  (if ctl then (h.s.toList.map (fun v => leBytes 8 v.toNat)).flatten else List.replicate 512 0) ++
    (h.m.toList.map (fun v => leBytes 8 v.toNat)).flatten ++
    leBytes 1 ((List.finRange 8).foldl (fun a k => a + (if decide (k.val = 0) || h.p[k] then 2 ^ k.val else 0)) 0) ++
    List.replicate 7 0 ++
    (if ctl then List.replicate 16 0 else (h.l.toList.map (fun v => leBytes 4 v.toNat)).flatten) ++
    leBytes 2 ((List.finRange 16).foldl (fun a k => a + (if h.pend[k] ≠ 0 then 2 ^ k.val else 0)) 0) ++
    List.replicate 6 0

/-- The bits of word `i` of a walker set that Table 10-6 does not reserve: a reserved field reads as zero (R7). -/
def walkerMask (i : Nat) : W64 :=
  if i = 1 ∨ i = 2 then 0xFF
  else if i = 3 then 0x7F
  else if i = 5 ∨ i = 7 ∨ i = 9 ∨ i = 11 then 0xFFFFFFFF
  else if i = 14 ∨ i = 15 then 0
  else BitVec.allOnes 64

/-- A walker set as it reads. -/
def walkerBytes (w : Vector W64 16) : List Byte :=
  ((List.finRange 16).map (fun i => leBytes 8 (w[i] &&& walkerMask i.val).toNat)).flatten

/-- The current bytes of a DOMAIN object; a captured object is taken in one step (R686). -/
def State.domVal (s : State) (shadow : Bool) (r : ObjRow) (i j : Nat) : List Byte :=
  if r.set then (if shadow then s.dshd (key i j) else s.dact (key i j))
  else if i = 0x4030 ∧ j = 3 then s.digestBytes (s.sgl K.peekAddress) (s.sgl K.peekLength)
  else if 0x5010 ≤ i ∧ i < 0x5050 then
    let k := s.cores[cid (i - 0x5010)]
    (match j with
     | 5 => leBytes 48 k.cfgA.toNat
     | 6 => leBytes 48 k.cfgS.toNat
     | _ => (k.walkers.toList.map walkerBytes).flatten)
  else if 0x6010 ≤ i ∧ i < 0x6018 ∧ j = 3 then
    ((s.ports[qid (i - 0x6010)]).rings.toList.map (fun n => leBytes 1 n)).flatten
  else if 0x6010 ≤ i ∧ i < 0x6018 ∧ j = 4 then
    let q := s.ports[qid (i - 0x6010)]
    ((q.slotsTx.toList ++ q.slotsRx.toList).map (fun n => leBytes 1 n)).flatten
  else if 0x6010 ≤ i ∧ i < 0x6018 ∧ j = 5 then
    ((s.ports[qid (i - 0x6010)]).stored.toList.map (fun c => leBytes 2 (c.getD 0xFFFF).toNat)).flatten
  else if i = 0x6800 ∧ j = 15 then ((List.finRange 64).map (fun x => leBytes 4 (s.inputAge x))).flatten
  else if i = 0x7800 ∧ j = 1 then s.aon.log.bytes
  else if 0x7810 ≤ i ∧ i < 0x7820 ∧ j = 6 then (s.parts[pid (i - 0x7810)]).tornBytes
  else if i = 0x7C00 ∧ j = 2 then s.snapBytes (tid (s.sgl K.snapThread))
  else if i = 0x7C00 ∧ j = 5 then
    (s.threads[tid (s.sgl K.snapThread)]).priv.readN (s.sgl K.snapPrivAddress) (s.sgl K.snapPrivLength)
  else s.dsgl (key i j)

/-! Reading an object. -/

/-- The row of an object, subindex 0x00 included: a U8 RO object with the highest subindex implemented (R45). -/
def objRow (i j : Nat) : Option ObjRow :=
  if j = 0 then
    if idxKnown i then
      some { base := i, count := 1, sub := 0, subs := 1, step := 1, ty := .u8, acc := .ro, set := false,
             dflt := maxSub i, perInst := false, chk := .any }
    else none
  else findObj i j

/-- The default that DESCRIBE reports for a scalar object (Table 3-5, R685): as R49 loads it in this build. -/
def State.dfltOf (s : State) (r : ObjRow) (i j : Nat) : Nat :=
  if i = 0x1000 ∧ (j = 4 ∨ j = 5 ∨ j = 6) then (s.engineVal i j).getD 0
  else if i = 0x1010 ∧ j = 1 then s.aon.node.toNat + 1
  else if s.sled ∧ i = 0x1010 ∧ j = 4 then 1
  else if s.sled ∧ i = 0x1020 ∧ j = 3 then 0
  else if s.sled ∧ i = 0x2420 ∧ j = 12 then 1
  else if r.perInst then r.dflt + (i - r.base) else r.dflt

/-- The number that a scalar object reads as. -/
def State.scalarVal (s : State) (shadow : Bool) (r : ObjRow) (i j : Nat) : Nat :=
  if j = 0 then r.dflt
  else if r.set then (if shadow then s.shd (key i j) else s.act (key i j))
  else (s.engineVal i j).getD (s.sgl (key i j))

/-- The bytes of an object. -/
def State.objBytes (s : State) (shadow : Bool) (r : ObjRow) (i j : Nat) : List Byte :=
  match r.ty with
  | .domain _ => s.domVal shadow r i j
  | ty => leBytes ty.size (s.scalarVal shadow r i j)

/-- The size of an object now: of PEEK_DATA and SNAP_PRIV_DATA the length a capture takes (Table 21-13). -/
def State.objSize (s : State) (shadow : Bool) (r : ObjRow) (i j : Nat) : Nat :=
  if i = 0x4030 ∧ j = 3 then s.sgl K.peekLength
  else if i = 0x7C00 ∧ j = 5 then s.sgl K.snapPrivLength
  else (s.objBytes shadow r i j).length

/-- PEEK_POISON of a capture (R233): bit i for word i, 128 bytes. -/
def State.peekPoison (s : State) : List Byte :=
  let a := s.sgl K.peekAddress
  leBytes 128 ((List.range (s.sgl K.peekLength / 8)).foldl (fun m w =>
    m + (if s.badWord (a + 8 * w) then 2 ^ w else 0)) 0)

/-- What a read of an object does beside returning it: a capture of PEEK_DATA sets PEEK_POISON (R233), a read of DIGEST
counts poisoned words (R650); both take the lines they read and find their errors. -/
def State.readEffect (s : State) (i j : Nat) : State :=
  if i = 0x4030 ∧ j = 3 then
    ((s.setDom K.peekPoison s.peekPoison).checkRead (s.sgl K.peekAddress) (s.sgl K.peekLength)).countLines .host
      (s.sgl K.peekAddress) (s.sgl K.peekLength)
  else if i = 0x7C00 ∧ j = 8 then
    let a := s.sgl K.digestAddress
    let n := s.sgl K.digestLength
    ((s.addSat K.digestPoisoned (s.poisonCount a n)).checkRead a n).countLines .host a n
  else s

/-- Does what a read returns lie in a torn region (R234, R346, R650)? -/
def State.readTorn (s : State) (i j : Nat) : Bool :=
  if i = 0x4030 ∧ j = 3 then s.tornIn (s.sgl K.peekAddress) (s.sgl K.peekLength)
  else if i = 0x7C00 ∧ j = 8 then s.tornIn (s.sgl K.digestAddress) (s.sgl K.digestLength)
  else false

/-! Checks of a value (R684, R47). -/

/-- Does a local range of `n` bytes from `off` keep the rule of R232: aligned, `n` a multiple of 8 up to `most`, in one
tier? -/
def peekOk (off n most : Nat) : Bool :=
  decide (off % 8 = 0) && decide (8 ≤ n) && decide (n % 8 = 0) && decide (n ≤ most) && inOneTier off n

/-- The same within a private memory (R649). -/
def snapRangeOk (off n : Nat) : Bool :=
  decide (off % 8 = 0) && decide (8 ≤ n) && decide (n % 8 = 0) && decide (n ≤ 8192) && decide (off + n ≤ 0x40000)

/-- Is a binary32 pattern a NaN or an infinity (R47)? -/
def f32Bad (v : Nat) : Bool := decide (bits v 30 23 = 255)

/-- Status of a scalar write under R47 and R684: 0, RESERVED_VALUE (6) or RANGE (5). -/
def State.valueStatus (s : State) (r : ObjRow) (v : Nat) : Nat :=
  let ok (b : Bool) : Nat := if b then 0 else 5
  match r.chk with
  | .any => ok (!(decide (r.ty = .f32) && f32Bad v))
  | .range lo hi => ok (decide (lo ≤ v) && decide (v ≤ hi))
  | .codes cs => if cs.contains v then 0 else 6
  | .vector => if v < 64 ∨ v = 0xFF then 0 else 6
  | .low n => if v < 2 ^ n then 0 else 6
  | .multiple m hi => ok (decide (v % m = 0) && decide (v ≤ hi))
  | .pow2 lo hi => ok (decide (lo ≤ v) && decide (v ≤ hi) && (List.range 64).any (fun e => decide (v = 2 ^ e)))
  | .magnitude => ok (grantOk (sext 64 v))
  | .mood => if 9 < v then 6 else ok (decide (2 ≤ v) && decide (v ≤ 6))
  | .peekAddress => ok (peekOk v (s.sgl K.peekLength) 8192)
  | .peekLength => ok (peekOk (s.sgl K.peekAddress) v 8192)
  | .privAddress => ok (snapRangeOk v (s.sgl K.snapPrivLength))
  | .privLength => ok (snapRangeOk (s.sgl K.snapPrivAddress) v)
  | .digestAddress => ok (peekOk v (s.sgl K.digestLength) 16777216)
  | .digestLength => ok (peekOk (s.sgl K.digestAddress) v 16777216)

end Sys2Proof.Machine
end

