-- ==== Sys2Proof/Machine/Tap.lean ====
section
/-!
DEFINITION. The Accumulator Tap (chapter 14): offers, grants, bursts, resends, aborts and limits, bank tokens, training
and link loss. A burst is taken at its last beat, whole.
-/
namespace Sys2Proof.Machine

/-- Write TAP_LAST_ERROR (Table 14-4): cause, bank, destination core. -/
def State.tapError (s : State) (h : ChanId) (cause bank dest : Nat) : State :=
  s.setSgl (K.tapLastError h.val) (cause + 2 ^ 8 * bank + 2 ^ 14 * dest)

/-- The same with the record of R488, R495 and R499. -/
def State.tapErrorLogged (s : State) (h : ChanId) (cause bank dest : Nat) : State :=
  (s.tapError h cause bank dest).logRec 0x0300 1 noPart (cause + 2 ^ 8 * bank + 2 ^ 14 * dest) h.val

/-- Is a channel in use in the active set? -/
def State.tapEnabled (s : State) (h : ChanId) : Bool := decide (s.act (K.tapEnable h.val) = 1)
/-- Has a wake to Brisk or Full reached the phase in which the tap trains (Table 4-4)? -/
def Trans.tapOn (t : Trans) : Bool :=
  decide (t.start ≠ .full) && decide (5 ≤ t.dest.code) && (decide (t.left.head? = some 5) || !t.left.contains 5)
/-- Is the tap island powered (Tables 4-2 and 4-4)? -/
def State.tapPowered (s : State) : Bool := (decide (5 ≤ s.lvl) || s.aon.mood.trans.any Trans.tapOn) && !s.inFault
/-- Is a channel up (R482)? -/
def TapCh.up (t : TapCh) : Bool := t.linkM && t.linkV

/-- The first failing check of an offer, causes 1 to 4 of Table 14-3 (R488). -/
def State.offerCause (s : State) (h : ChanId) (bank fmt dest : Nat) : Option Nat :=
  if fmt ≠ s.act (K.tapFormat h.val) then some 1
  else if s.act (K.tapBanks h.val) ≤ bank then some 2
  else if bit s.tap[h].heldBanks.toNat bank then some 3
  else if bit (s.act (K.tapCoreMask h.val)) dest = false then some 4
  else none

/-- Reject an offer (R488): the token stays with the matrix side. -/
def State.rejectOffer (s : State) (h : ChanId) (cause bank dest : Nat) : State :=
  ((s.bump (K.tapOffersRejected h.val)).tapErrorLogged h cause bank dest).output (.tapErr h)

/-- TAP_OFFER (R486, R488). -/
def State.applyTapOffer (s : State) (h : ChanId) (bank : BitVec 6) (fmt : Byte) (dest : CoreId) : State :=
  if s.tap[h].up = false ∨ s.tap[h].offer.isSome then s
  else
    match s.offerCause h bank.toNat fmt.toNat dest.val with
    | some cause => s.rejectOffer h cause bank.toNat dest.val
    | none => s.onTap h (fun t => { t with offer := some { bank := bank.toNat, fmt := fmt.toNat, dest := dest.val } })

/-- Does the swap that is pending concern a channel, so that it grants no new burst (Table 3-9)? -/
def State.tapSwapHeld (s : State) (h : ChanId) : Bool :=
  decide (s.aon.swapStatus ≠ 0) &&
    s.diffs.any (fun k => decide (k / 256 = 0x7000) || decide (k / 256 = 0x7010 + h.val))

/-- Tap tiles of a core's verb on a channel that have begun and are not consumed. -/
def TapCh.begun (t : TapCh) (c : Nat) : Nat :=
  (t.bufs.filter (fun b => decide (b.1 = c))).length + (if t.bus.any (fun b => decide (b.dest = c) && b.wanted) then 1 else 0)

/-- Does the active verb of a core await its next tap tile on a channel (R487)? -/
def State.tapAwaits (s : State) (h : ChanId) (c : CoreId) : Bool :=
  match s.cores[c].active with
  | none => false
  | some v =>
    v.isTap && decide (slotOpnd v.slot 1 % 4 = h.val) && decide (v.done + s.tap[h].begun c.val < v.tiles) &&
      !s.cores[c].preemptReq && !s.swapHolds v.part

/-- May the pending offer of a channel be granted (R487, Table 4-6)? -/
def State.tapGrantOk (s : State) (h : ChanId) (o : Offer) : Bool :=
  s.tap[h].up && s.tap[h].bus.isNone && decide (s.tap[h].bufs.length < 2) && s.tapAwaits h (cid o.dest) &&
    !s.tapSwapHeld h && !(decide (s.mood = .quiesce) && decide (19 ≤ s.aon.mood.phase))

/-- TAP_GRANT (R482, R487): the token passes to the vector side. An offer that a swap has made illegal while it was pending is
rejected in its place (R488). -/
def State.applyTapGrant (s : State) (h : ChanId) : State :=
  match s.tap[h].offer with
  | none => s
  | some o =>
    if s.tapGrantOk h o then
      match s.offerCause h o.bank o.fmt o.dest with
      | some cause => (s.onTap h (fun t => { t with offer := none })).rejectOffer h cause o.bank o.dest
      | none =>
        (s.onTap h (fun t =>
          { t with offer := none, heldBanks := t.heldBanks ||| BitVec.ofNat 64 (2 ^ o.bank),
                   bus := some { bank := o.bank, dest := o.dest, tick := s.tick, tries := 0, wanted := true } })).output
          (.tapGnt h)
    else s

/-- The bus freed and its token back with the matrix side (R482). -/
def TapCh.free (t : TapCh) (b : Burst) : TapCh :=
  { t with bus := none, heldBanks := t.heldBanks &&& ~~~ BitVec.ofNat 64 (2 ^ b.bank) }

/-- Raise a data fault for the verb a burst was granted for (R499). -/
def State.burstFault (s : State) (b : Burst) : State :=
  match s.cores[cid b.dest].active with
  | some v => if b.wanted then s.verbFault (cid b.dest) v 2 3 0 else s
  | none => s

/-- A clean burst ends (R491): the token returns and the tile goes to a buffer, unless its verb is gone. -/
def State.burstClean (s : State) (h : ChanId) (b : Burst) (data : List W32) : State :=
  let s1 := (s.onTap h (fun t => t.free b)).output (.tapRet h b.bank)
  if b.wanted then (s1.onTap h (fun t => { t with bufs := t.bufs ++ [(b.dest, data)] })).add64 (K.tapBursts h.val) 1
  else s1

/-- A burst with cause 6 or 7 ends: a resend is requested (R498), or its limit is reached (R499). -/
def State.burstBad (s : State) (h : ChanId) (b : Burst) (cause : Nat) : State :=
  if s.act K.tapRetryLimit ≤ b.tries then
    let s1 := ((s.onTap h (fun t => t.free b)).output (.tapErr h)).output (.tapRet h b.bank)
    (s1.tapErrorLogged h 8 b.bank b.dest).burstFault b
  else
    let s1 := (s.onTap h (fun t => { t with bus := some { b with tries := b.tries + 1 } })).output (.tapErr h)
    (s1.tapError h cause b.bank b.dest).bump (K.tapRetries h.val)

/-- TAP_BURST_END (R489, R491, R498, R499). -/
def State.applyBurstEnd (s : State) (h : ChanId) (d : TapBurst) : State :=
  match s.tap[h].bus with
  | none => s
  | some b =>
    let s1 := s.addSat (K.tapCorrected h.val) d.corrected
    if d.beatsOk = false ∨ d.data.length ≠ 4096 then s1.burstBad h b 6
    else if d.checkOk = false then s1.burstBad h b 7
    else s1.burstClean h b d.data

/-- TAP_ABORT (R482, R500). -/
def State.applyTapAbort (s : State) (h : ChanId) : State :=
  match s.tap[h].bus with
  | none => s
  | some b => ((s.onTap h (fun t => t.free b)).bump (K.tapAborts h.val)).tapError h 9 b.bank b.dest

/-- TAP_BURST_TIMEOUT (R501): 16 tk after its grant. -/
def State.applyBurstTimeout (s : State) (h : ChanId) : State :=
  match s.tap[h].bus with
  | none => s
  | some b =>
    if s.tick < b.tick + 16 then s
    else
      let s1 := ((s.onTap h (fun t => t.free b)).output (.tapErr h)).output (.tapRet h b.bank)
      (s1.bump (K.tapAborts h.val)).tapError h 10 b.bank b.dest

/-- TAP_WAIT_LIMIT (R502). -/
def State.applyTapWait (s : State) (c : CoreId) : State :=
  match s.cores[c].active with
  | none => s
  | some v =>
    let h : ChanId := Fin.ofNat 4 (slotOpnd v.slot 1 % 4)
    if v.isTap ∧ s.runs ∧ v.done < v.tiles ∧ s.tap[h].begun c.val = 0 ∧ v.awaited + s.act K.tapWaitLimit ≤ s.tick then
      (s.tapError h 12 0 c.val).verbFault c v 2 4 0
    else s

/-- TAP_STRAY_BEAT (R489): ignored and recorded. The beats of training are no stray beats. -/
def State.applyStrayBeat (s : State) (h : ChanId) : State :=
  if s.tap[h].up ∧ s.tap[h].bus.isNone then s.tapError h 5 0 0 else s

/-! Links (R494 to R497). -/

/-- Begin to train a channel when its link can come up (R494). -/
def State.tapTrain (s : State) (h : ChanId) : State :=
  let t := s.tap[h]
  if t.linkM && !t.linkV && s.tapEnabled h && s.tapPowered then s.onTap h (fun t => { t with training := true }) else s

/-- Wake phase 5: train every enabled channel (R494). -/
def State.tapTrainAll (s : State) : State := s.forEach (List.finRange 4) State.tapTrain

/-- A link signal falls (R482, R496): every token passes to the matrix side, and beats that Ingest does not have yet are
discarded. -/
def State.tapFall (s : State) (h : ChanId) (f : TapCh → TapCh) : State :=
  let s1 := match s.tap[h].bus with
    | some b => s.tapError h 11 b.bank b.dest
    | none => s
  s1.onTap h (fun t => f { t with linkV := false, training := false, offer := none, bus := none, heldBanks := 0 })

/-- The device deasserts TAP_LINK_V of a channel (R496). -/
def State.tapDown (s : State) (h : ChanId) : State := s.tapFall h id

/-- The tap island powers down, or Fault is entered (R496). -/
def State.tapDownAll (s : State) : State := s.forEach (List.finRange 4) State.tapDown

/-- Channels that a swap has disabled fall, and those it has enabled train (R494, R496). -/
def State.tapAfterSwap (s : State) : State :=
  s.forEach (List.finRange 4) (fun u h =>
    if u.tapEnabled h then (if u.tap[h].linkV then u else u.tapTrain h)
    else if u.tap[h].linkV || u.tap[h].training then u.tapDown h else u)

/-- TAP_LINK_M_RISE (R494). -/
def State.applyLinkRise (s : State) (h : ChanId) : State :=
  (s.onTap h (fun t => { t with linkM := true })).tapTrain h

/-- A measured TAP_CLK in MHz (R478, Table 14-4): between 200 and 1,600, else free. -/
def State.tapMhz (s : State) : Nat := 200 + (Config.reading s.freeCtr).natAbs % 1401

/-- TAP_TRAINING_END (R494, R495). -/
def State.applyTrainingEnd (s : State) (h : ChanId) (ok : Bool) : State :=
  if s.tap[h].training = false then s
  else if ok then
    (s.onTap h (fun t => { t with training := false, linkV := true, clock := s.tapMhz })).tickFree
  else (s.onTap h (fun t => { t with training := false, linkV := false })).tapErrorLogged h 13 0 0

/-- TAP_LINK_FALL of TAP_LINK_M (R482, R496). -/
def State.applyLinkFall (s : State) (h : ChanId) : State :=
  if s.tap[h].linkM then s.tapFall h (fun t => { t with linkM := false }) else s

/-- TAP_CLOCK_STOP (R497). -/
def State.applyClockStop (s : State) (h : ChanId) : State :=
  if s.tap[h].linkM then s.tapFall h (fun t => { t with linkM := false, clock := 0 }) else s

/-! Commands. -/

/-- TAP_OFFER. -/
def execTapOffer (h : ChanId) (bank : BitVec 6) (fmt : Byte) (dest : CoreId) (s : State) :
    Host.Outcome State Fault Refusal :=
  .next (s.applyTapOffer h bank fmt dest)

/-- TAP_GRANT. -/
def execTapGrant (h : ChanId) (s : State) : Host.Outcome State Fault Refusal :=
  .next (s.applyTapGrant h)

/-- TAP_BURST_END. -/
def execTapBurstEnd (h : ChanId) (b : TapBurst) (s : State) : Host.Outcome State Fault Refusal :=
  .next (s.applyBurstEnd h b)

/-- TAP_ABORT. -/
def execTapAbort (h : ChanId) (s : State) : Host.Outcome State Fault Refusal :=
  .next (s.applyTapAbort h)

/-- TAP_BURST_TIMEOUT. -/
def execTapBurstTimeout (h : ChanId) (s : State) : Host.Outcome State Fault Refusal :=
  .next (s.applyBurstTimeout h)

/-- TAP_WAIT_LIMIT. -/
def execTapWaitLimit (c : CoreId) (s : State) : Host.Outcome State Fault Refusal :=
  .next (s.applyTapWait c)

/-- TAP_STRAY_BEAT. -/
def execTapStrayBeat (h : ChanId) (s : State) : Host.Outcome State Fault Refusal :=
  .next (s.applyStrayBeat h)

/-- TAP_LINK_M_RISE. -/
def execTapLinkMRise (h : ChanId) (s : State) : Host.Outcome State Fault Refusal :=
  .next (s.applyLinkRise h)

/-- TAP_TRAINING_END. -/
def execTapTrainingEnd (h : ChanId) (ok : Bool) (s : State) : Host.Outcome State Fault Refusal :=
  .next (s.applyTrainingEnd h ok)

/-- TAP_LINK_FALL. -/
def execTapLinkFall (h : ChanId) (s : State) : Host.Outcome State Fault Refusal :=
  .next (s.applyLinkFall h)

/-- TAP_CLOCK_STOP. -/
def execTapClockStop (h : ChanId) (s : State) : Host.Outcome State Fault Refusal :=
  .next (s.applyClockStop h)

end Sys2Proof.Machine
end

