-- ==== Sys2Proof/Machine/Light.lean ====
section
/-!
DEFINITION. Light (chapter 15): when the photonic island is lit, requests to the laser module (R510 to R515), ports and
rings as the island powers up and down (R519, R520, R555, R606), and the maintenance notification of Table 3-8.
-/
namespace Sys2Proof.Machine

/-! The island. -/

/-- Is a port enabled in the active set? -/
def State.portOn (s : State) (q : PortId) : Bool := decide (s.act (K.portEnable q.val) = 1)
/-- Is any port enabled? -/
def State.anyPort (s : State) : Bool := (List.finRange 8).any s.portOn
/-- Is the mesh enabled? -/
def State.meshOn (s : State) : Bool := decide (s.act K.meshEnable = 1)
/-- Does the device use light (R510, Table 4-2)? -/
def State.lightUsed (s : State) : Bool := s.anyPort || s.meshOn

/-- Should the photonic island be lit: Brisk or above with a port or the mesh enabled, and Quiesce not past the step that
drains and darkens it (Tables 4-2 and 4-6)? -/
def State.wantsLight (s : State) : Bool :=
  decide (5 ≤ s.lvl) && s.lightUsed && !(decide (s.mood = .quiesce) && decide (20 ≤ s.aon.mood.phase))

/-- Bits of LINE_SOURCE that this build and configuration use (Table 15-3). -/
def State.usedLines (s : State) : List Nat :=
  (if s.anyPort then List.range 17 else []) ++ (if s.meshOn then [17] else [])

/-- Does LINE_SOURCE name the primary source, and the spare (R515)? -/
def State.named (s : State) : Bool × Bool :=
  (s.usedLines.any (fun k => !s.pho.lineSource.getLsbD k), s.usedLines.any (fun k => s.pho.lineSource.getLsbD k))

/-- Do the sources that LINE_SOURCE names report ready (R515)? -/
def State.lightReady (s : State) : Bool :=
  s.pho.lit && (!s.named.1 || s.pho.sources.1) && (!s.named.2 || s.pho.sources.2)

/-- The notification of Table 3-8, bit 6, with a port's state. The spec does not say which events are photonic maintenance:
the model notifies for a failed ring, a mislock, a fade and a failed mesh (records 0x0400, 0x0401, 0x0402 and 0x0406), and
not for records 0x0403 to 0x0405 (notes/assumptions/64.md). -/
def State.maintPort (s : State) (q : PortId) : State := s.notify 6 (K.portState q.val) (s.ports[q]).state
/-- The same with the mesh's state. -/
def State.maintMesh (s : State) : State := s.notify 6 K.meshState s.meshState

/-! Requests to the module. -/

/-- Send a request to the module (R510), with a new TXN. -/
def State.modIssue (s : State) (write : Bool) (sub value : Nat) : State :=
  (s.onPho (fun p =>
    { p with txn := p.txn + 1,
             req := some { txn := p.txn + 1, write := write, sub := sub, value := value, tick := s.tick, resends := 0,
                           failed := false } })).output (.moduleReq (s.pho.txn + 1) write sub value)

/-- Send a request now, or after those that wait. -/
def State.modSend (s : State) (write : Bool) (sub value : Nat) : State :=
  if s.lightUsed = false then s
  else if s.pho.req.isSome then s.onPho (fun p => { p with queue := p.queue ++ [(write, sub, value)] })
  else s.modIssue write sub value

/-- Send the next request that waits. -/
def State.modNext (s : State) : State :=
  match s.pho.queue with
  | [] => s
  | (w, sub, v) :: q => (s.onPho (fun p => { p with queue := q })).modIssue w sub v

/-- SOURCE_ENABLE with the named sources, and a spare that warms or takes over, at `level`: 1 standby, 2 on (R515,
R540). -/
def State.sourceWord (s : State) (level : Nat) : Nat :=
  (if s.named.1 then level else 0) +
    4 * (if s.named.2 || decide (s.pho.fade = 2) || decide (s.pho.fade = 3) then level else 0)

/-! Rings. -/

/-- Ring `k` of a direction. -/
def ringIx (rx : Bool) (k : LineId) : Fin 34 := Fin.ofNat 34 (k.val + (if rx then 17 else 0))

/-- Rings in one direction with a state. -/
def Port.ringsIn (p : Port) (rx : Bool) (state : Nat) : List LineId :=
  (List.finRange 17).filter (fun k => decide (p.rings[ringIx rx k] = state))

/-- Is a port spared (R523)? -/
def Port.spared (p : Port) : Bool := (p.ringsIn false 5).isEmpty && (p.ringsIn true 5).isEmpty

/-- Ports that take part in the rotation (R531, R536). -/
def State.sparedPorts (s : State) : List PortId :=
  (List.finRange 8).filter (fun q => decide (s.ports[q].state = 5) && s.ports[q].spared)

/-- Set the state of a ring. -/
def Port.setRing (p : Port) (rx : Bool) (k : LineId) (state : Nat) : Port :=
  { p with rings := vset p.rings (ringIx rx k) state }

/-- The working rings of a direction in ascending order (R523). -/
def Port.working (p : Port) (rx : Bool) : List LineId :=
  (List.finRange 17).filter (fun k => decide (p.rings[ringIx rx k] ≠ 5))

/-- The transmit slot map at bring-up (R523, R524). -/
def Port.firstSlots (p : Port) (spare : Nat) : Vector Nat 16 :=
  if p.spared then Vector.ofFn (fun n => (spare + 1 + n.val) % 17)
  else Vector.ofFn (fun n => (at! 0 (p.working false) n.val : LineId).val)

/-- A port after a ring of it has failed (R523, R530): failed with two failed rings in one direction, else unspared, its
slots on working rings. -/
def Port.afterFail (p : Port) : Port :=
  if 2 ≤ (p.ringsIn false 5).length ∨ 2 ≤ (p.ringsIn true 5).length then { p with state := 7 }
  else
    let remap (rx : Bool) (v : Vector Nat 16) : Vector Nat 16 :=
      if v.toList.any (fun n => decide (p.rings[ringIx rx (Fin.ofNat 17 n)] = 5)) then
        Vector.ofFn (fun n => (at! 0 (p.working rx) n.val : LineId).val) else v
    { p with state := if p.state = 5 then 6 else p.state, slotsTx := remap false p.slotsTx,
             slotsRx := remap true p.slotsRx }

/-- A ring fails (R523): recorded, with the maintenance notification. -/
def State.failRing (s : State) (q : PortId) (rx : Bool) (k : LineId) : State :=
  ((s.onPort q (fun p => (p.setRing rx k 5).afterFail)).logRec 0x0400 2 noPart q.val
    (k.val + (if rx then 32 else 0))).maintPort q

/-! Powering up and down. -/

/-- A port that starts: it waits for light (R520), its DACs at rest (R516). -/
def Port.start (p : Port) : Port :=
  { p with state := 1, rings := Vector.replicate 34 0, searched := (false, false), calibrated := (false, false),
           moving := none, calFar := false, calTx := false, retraining := false,
           codes := Vector.replicate 34 0, drive := Vector.replicate 17 RingDrive.rest }

/-- Store the heater codes of locked rings, and put every DAC at rest (R519). -/
def Port.dark (p : Port) : Port :=
  { p with state := 0, rings := Vector.replicate 34 0, codes := Vector.replicate 34 0,
           drive := Vector.replicate 17 RingDrive.rest,
           stored := Vector.ofFn (fun i : Fin 34 =>
             if p.rings[i] = 2 ∨ p.rings[i] = 3 then some p.codes[i] else p.stored[i]),
           moving := none, retraining := false }

/-- The lock loop of one ring in one tick (R525): it moves the heater by at most 64 codes, as a free value says. -/
def lockStep (code : BitVec 16) (free : Nat) : BitVec 16 :=
  BitVec.ofInt 16 (clampInt 0 65535 ((code.toNat : Int) + (free % 129 : Nat) - 64))

/-- The lock loops of a port in one tick: those of its locked rings. -/
def Port.lockLoops (p : Port) (free : Nat → Nat) : Port :=
  { p with codes := Vector.ofFn (fun i : Fin 34 =>
      if p.rings[i] = 2 ∨ p.rings[i] = 3 then lockStep p.codes[i] (free i.val) else p.codes[i]) }

/-- LOCK_LOOP (R525), in every tick. -/
def State.lockLoops (s : State) : State :=
  if s.ports.toList.all (fun p => decide (p.state = 0)) then s
  else
    (s.forEach (List.finRange 8) (fun u q =>
      u.onPort q (fun p => p.lockLoops (fun i => (Config.freeWord s.freeCtr (34 * q.val + i)).toNat)))).tickFree

/-- Calibration sets a driver (R534): range and codes are free values. When the range changes, the output is held at mid-code
for the blanking interval before the new codes (R517, Table 15-5). -/
def RingDrive.calibrate (d : RingDrive) (free : Nat → Nat) : RingDrive :=
  let swing := free 0 % 3
  { swing := swing, levels := (List.range 4).map (fun i => free (i + 1) % 64), blank := if swing = d.swing then 0 else 32 }

/-- Calibrate some rings of a direction (R524, R534): the set points of their lock loops, and in a transmit direction their
drivers. `free` gives the free values. -/
def Port.calibrate (p : Port) (rx : Bool) (which : LineId → Bool) (free : Nat → Nat) : Port :=
  let mine (i : Fin 34) : Bool := decide ((17 ≤ i.val) = (rx = true)) && which (Fin.ofNat 17 (i.val % 17))
  { p with
    points := Vector.ofFn (fun i : Fin 34 => if mine i then BitVec.ofNat 16 (free i.val) else p.points[i]),
    drive := if rx then p.drive else Vector.ofFn (fun k : Fin 17 =>
      if which k then p.drive[k].calibrate (fun i => free (34 + 5 * k.val + i)) else p.drive[k]) }

/-- End a port's session (R555): flits in its receive buffers are lost and counted, and where `drop` says so the flits of
its retry buffer too, with a record (R575). -/
def State.endSession (s : State) (q : PortId) (drop : Bool) : State :=
  let e := s.ports[q].sess
  let held := e.rxBuf.length
  let unacked := if drop then e.retry.length else 0
  let n := held + unacked
  let s1 := (s.onPort q (fun p => { p with sess := Session.reset })).onFab (fun f =>
    { f with discarded := f.discarded + n, sent := f.sent - unacked })
  let s2 := s1.addSat K.flitsDiscarded n
  if drop && decide (n ≠ 0) then s2.logRec 0x0501 1 noPart q.val n else s2

/-- Stop a port: by a swap that disables it, or with the island. -/
def State.portStop (s : State) (q : PortId) (bySwap : Bool) : State :=
  (s.onPort q Port.dark).endSession q bySwap

/-- The mesh goes dark (R606): its offsets and the loaded slot stay. -/
def Mesh.dark (m : Mesh) : Mesh :=
  { m with state := 0, gainDue := false, gainLate := false, due := [], granted := none, waiting := [],
           fails := Vector.replicate 64 0 }

/-- Make ports and mesh follow the island and the active set (R520, R575, R604, R606). -/
def State.followLight (s : State) : State :=
  let s1 := s.forEach (List.finRange 8) (fun u q =>
    let want := u.pho.lit && u.portOn q
    if want && decide (u.ports[q].state = 0) then u.onPort q Port.start
    else if !want && decide (u.ports[q].state ≠ 0) then u.portStop q u.pho.lit else u)
  if s1.pho.lit && s1.meshOn then
    if s1.mesh.state = 0 then s1.onMesh (fun m => { m with state := 1 }) else s1
  else if s1.mesh.state = 0 then s1 else s1.onMesh Mesh.dark

/-- The island lights (R515): its sources are set on and their states asked for. -/
def State.lightUp (s : State) : State :=
  let s1 := (s.onPho (fun p => { p with lit := true, sources := (false, false) }))
  s1.modSend true 1 (s1.sourceWord 2)

/-- The island goes dark (R515, R519): sources in standby. -/
def State.lightDown (s : State) : State :=
  (s.modSend true 1 (s.sourceWord 1)).onPho (fun p =>
    { p with lit := false, sources := (false, false), announce := none, mislock := none, switching := none })

/-- Light follows the mood and the active set; every change of either ends here. -/
def State.syncLight (s : State) : State :=
  let s1 := if s.wantsLight = s.pho.lit then s else if s.wantsLight then s.lightUp else s.lightDown
  let s2 := if s1.lightUsed then s1
    else s1.onPho (fun p => { p with req := none, queue := [], linkState := 0 })
  s2.followLight

/-- Light at a core-domain reset, and in Cold or Hush (R515): every source off, every session ended. -/
def State.lightOff (s : State) : State :=
  let s1 := s.modSend true 1 0
  let s2 := s1.onPho (fun p =>
    { p with lit := false, sources := (false, false), announce := none, mislock := none, switching := none })
  s2.followLight

end Sys2Proof.Machine
end

