-- ==== Sys2Proof/Machine/Photonics.lean ====
section
/-!
DEFINITION. Filver photonics (chapter 15): the laser module's answers (R512), search and calibration (R520 to R524), lock
and mislock (R526 to R530), the rotation of the spare line (R531 to R535), fade and handover (R537 to R545) and the
location of a loss (R546).
-/
namespace Sys2Proof.Machine

/-! Readings. -/

/-- An I16 reading as its two bytes. -/
def monBytes (l : List Int) : List Byte := (l.map (fun v => leBytes 2 (BitVec.ofInt 16 v).toNat)).flatten

/-- Reading `i` of a list of I16 readings. -/
def monAt (l : List Byte) (i : Nat) : Int := sext 16 (ofLe ((l.drop (2 * i)).take 2))

/-! The laser module. -/

/-- Mean of a module's answer to a SOURCE_STATE read: which sources are ready (Table 15-4). -/
def readySources (v : Nat) : Bool × Bool := (decide (bits v 2 0 = 3), decide (bits v 5 3 = 3))

/-- Readings of MON_A in the light of a new source: free values (R542). -/
def State.freshMon (s : State) : List Int := (List.range 18).map (fun i => Config.reading (s.freeCtr * 18 + i))

/-- The end of a handover (R542): the primary goes off and the reference is taken again. -/
def State.handoverDone (s : State) : State :=
  let m := monBytes s.freshMon
  let s1 := ((s.setDom K.monAReading m).setDom K.monAReference m).tickFree
  let s2 := (s1.onPho (fun p => { p with fade := 4, samples := [], moveTick := s.tick, stepTick := 0 })).modSend true 1 8
  let s3 := s2.bump32 K.handovers
  s3.logRec 0x0404 0 noPart (s3.sgl K.handovers) 0

/-- The module has switched a line to the spare source (R541, R605): the spare line is calibrated again, or the mesh runs
a gain step after 64 tk. -/
def State.lineSwitched (s : State) (value : Nat) : State :=
  let s1 := s.onPho (fun p => { p with lineSource := BitVec.ofNat 18 value, switching := none })
  match s.pho.switching with
  | some 17 =>
    (if s1.mesh.state = 6 then
      s1.onMesh (fun m => { m with settle := s.tick + 64, gainDue := true, gainFell := s.tick, gainLate := false })
    else s1).handoverDone
  | some _ => s1.forEach s1.sparedPorts (fun u q => u.onPort q (fun p => { p with calTx := false, calFar := false }))
  | none => s1

/-- What an answer of the module changes. -/
def State.modAnswer (s : State) (q : ModReq) (r : ModResp) : State :=
  if r.status ≠ 0 then s
  else if q.write then
    (if q.sub = 3 then s.lineSwitched q.value
     else if q.sub = 1 ∧ s.pho.lit then s.modSend false 2 0 else s)
  else
    let v := readySources (ofLe (r.data.take 1))
    let s1 := s.onPho (fun p => { p with sources := v })
    if s1.pho.lit && (!s1.lightReady || (decide (s1.pho.fade = 2) && !v.2)) then s1.modSend false 2 0 else s1

/-- MODULE_RESPONSE (R511, R512). -/
def State.applyModResponse (s : State) (r : ModResp) : State :=
  match s.pho.req with
  | none => s
  | some q =>
    if r.txn ≠ q.txn then s
    else
      let s1 := (s.onPho (fun p => { p with req := none, linkState := 1 })).modAnswer q r
      if s1.pho.req.isSome then s1 else s1.modNext

/-- MODULE_REQUEST_TIMEOUT (R512). -/
def State.applyModTimeout (s : State) : State :=
  match s.pho.req with
  | none => s
  | some q =>
    if q.failed ∨ s.tick < q.tick + 256 then s
    else if q.resends < 3 then
      (s.onPho (fun p => { p with req := some { q with resends := q.resends + 1, tick := s.tick } })).output
        (.moduleReq q.txn q.write q.sub q.value)
    else
      let s1 := (s.onPho (fun p => { p with req := some { q with failed := true, tick := s.tick }, linkState := 2 })).bump
        K.moduleRequestsFailed
      s1.logRec 0x0405 2 noPart (s1.sgl K.moduleRequestsFailed) 0

/-- MODULE_RETRY (R512). -/
def State.applyModRetry (s : State) : State :=
  match s.pho.req with
  | none => s
  | some q =>
    if q.failed = false ∨ s.tick < q.tick + 65536 then s
    else
      (s.onPho (fun p => { p with txn := p.txn + 1, req := some { q with txn := p.txn + 1, tick := s.tick } })).output
        (.moduleReq (s.pho.txn + 1) q.write q.sub q.value)

/-! Search and calibration. -/

/-- A direction's flag in a pair: transmit first. -/
def dirOf (p : Bool × Bool) (rx : Bool) : Bool := if rx then p.2 else p.1
/-- Set a direction's flag. -/
def dirSet (p : Bool × Bool) (rx : Bool) : Bool × Bool := if rx then (p.1, true) else (true, p.2)

/-- One ring after the search of its direction (R521, R522). -/
def State.searchRing (s : State) (q : PortId) (rx : Bool) (found : List RingFind) (k : LineId) : State :=
  match found[k.val]? with
  | some f =>
    if f.line = some k then
      s.onPort q (fun p =>
        { (p.setRing rx k 2) with codes := vset p.codes (ringIx rx k) f.code, idTick := vset p.idTick (ringIx rx k) s.tick })
    else s.failRing q rx k
  | none => s.failRing q rx k

/-- PILOTS_PRESENT (R520 to R523): the whole search of a direction. -/
def State.applyPilots (s : State) (q : PortId) (rx : Bool) (found : List RingFind) : State :=
  let p := s.ports[q]
  if s.lightReady = false ∨ s.runs = false ∨ (p.state ≠ 1 ∧ p.state ≠ 2) ∨ dirOf p.searched rx then s
  else
    let s1 := s.onPort q (fun p => { p with state := 2, searched := dirSet p.searched rx })
    let s2 := s1.forEach (List.finRange 17) (fun u k => u.searchRing q rx found k)
    s2.onPort q (fun p => if p.state = 2 ∧ p.searched = (true, true) then { p with state := 3 } else p)

/-- The free values of a calibration. -/
def State.calValue (s : State) (i : Nat) : Nat := (Config.freeWord s.freeCtr i).toNat

/-- SEARCH_CALIBRATION_COMPLETE (R524): every locked ring of the direction is calibrated; after both directions the port goes
to link training, with its first transmit slot map; the spare ring of a spared port is the spare line's. -/
def State.applyCalibrated (s : State) (q : PortId) (rx : Bool) : State :=
  let p := s.ports[q]
  if (p.state ≠ 2 ∧ p.state ≠ 3) ∨ dirOf p.searched rx = false ∨ dirOf p.calibrated rx ∨ s.runs = false then s
  else
    let s1 := (s.onPort q (fun p => { p.calibrate rx (fun k => decide (p.rings[ringIx rx k] = 2)) s.calValue with
      calibrated := dirSet p.calibrated rx })).tickFree
    let p1 := s1.ports[q]
    if p1.state = 3 ∧ p1.calibrated = (true, true) then
      (s1.onPort q (fun p =>
        let p2 := { p with state := 4, slotsTx := p.firstSlots s.pho.spareLine, since := s.tick, calTx := p.spared }
        if p2.spared then p2.setRing false (Fin.ofNat 17 s.pho.spareLine) 3 else p2)).output (.mgmt q 0 0)
    else s1

/-! Lock loops and mislocks. -/

/-- Is the link controller of a port at work? -/
def Port.lit (p : Port) : Bool := decide (4 ≤ p.state) && decide (p.state ≤ 6)

/-- A mislock found (R527): counted, recorded, its event latched. -/
def State.foundMislock (s : State) (q : PortId) (rx : Bool) (k : LineId) (line : Nat) (ev : LineId) : State :=
  let s1 := (s.onPort q (fun p => p.setRing rx k 4)).bump K.mislocks
  (s1.logRec 0x0401 1 noPart q.val (k.val + (if rx then 32 else 0) + 256 * line)).latch (.mislock q rx k ev)

/-- Is a ring locked, as data ring or as the spare? -/
def Port.locked (p : Port) (rx : Bool) (k : LineId) : Bool :=
  decide (p.rings[ringIx rx k] = 2) || decide (p.rings[ringIx rx k] = 3)

/-- A code found in the search of R526, which reaches 2,048 codes from the last one. -/
def nearCode (old new : BitVec 16) : BitVec 16 :=
  BitVec.ofInt 16 (clampInt 0 65535 (clampInt ((old.toNat : Int) - 2048) ((old.toNat : Int) + 2048) new.toNat))

/-- OUT_OF_LOCK (R526). A ring that finds no line is a mislock whose relock fails; its event carries the ring's own line. -/
def State.applyOutOfLock (s : State) (q : PortId) (rx : Bool) (k : LineId) (found : RingFind) : State :=
  if s.ports[q].lit = false ∨ s.ports[q].locked rx k = false ∨ s.runs = false then s
  else
    match found.line with
    | some l =>
      if l = k then
        s.onPort q (fun p => { p with codes := vmod p.codes (ringIx rx k) (fun c => nearCode c found.code),
                                      idTick := vset p.idTick (ringIx rx k) s.tick })
      else s.foundMislock q rx k l.val l
    | none => s.foundMislock q rx k 31 k

/-- PILOT_CHECK (R527). -/
def State.applyPilotCheck (s : State) (q : PortId) (rx : Bool) (k line : LineId) : State :=
  if s.ports[q].lit = false ∨ s.ports[q].locked rx k = false ∨ s.runs = false then s
  else
    let s1 := s.onPort q (fun p => { p with idTick := vset p.idTick (ringIx rx k) s.tick })
    if line = k then s1 else s1.foundMislock q rx k line.val line

/-- The transmit slot on a ring of a port, if any. -/
def Port.slotOn (p : Port) (ring : Nat) : Option (Fin 16) := (List.finRange 16).find? (fun n => decide (p.slotsTx[n] = ring))

/-- Announce on a port that the slot on ring `r` will move to the spare ring (R532). -/
def State.announceOn (s : State) (r : Nat) (q : PortId) : State :=
  match s.ports[q].slotOn r with
  | some n => s.output (.mgmt q 1 (n.val + 32 * s.pho.spareLine))
  | none => s

/-- Announce on every spared port that the slot on ring `r` will move to the spare ring (R532). -/
def State.announceMove (s : State) (r : Nat) : State := s.forEach s.sparedPorts (fun u q => u.announceOn r q)

/-- Begin a mislock move (R528, step 1; R529): nothing moves when the ring carries no slot. -/
def State.beginMislock (s : State) (q : PortId) (k : LineId) (relock fails : Bool) : State :=
  let moves := s.ports[q].spared && decide (k.val ≠ s.pho.spareLine)
  let s1 := s.onPho (fun p =>
    { p with announce := none,
             mislock := some { port := q, ring := k, tick := s.tick, moves := moves, relock := relock, fails := fails } })
  if moves then s1.announceMove k.val else s1

/-- MISLOCK (R528, R529), with the maintenance notification. While a mislock move is in progress the event is held. -/
def State.applyMislock (s : State) (q : PortId) (rx : Bool) (k line : LineId) : State :=
  if s.ports[q].lit = false ∨ s.ports[q].rings[ringIx rx k] ≠ 4 ∨ s.runs = false then s
  else if rx then
    if line = k then (s.output (.mgmt q 2 k.val)).failRing q true k
    else (s.output (.mgmt q 2 k.val)).maintPort q
  else if s.pho.mislock.isSome then s.latch (.mislock q rx k line)
  else (s.beginMislock q k true (decide (line = k))).maintPort q

/-- Move the transmit slot on ring `r` of a port to the spare ring, and make `r` its spare ring (R532). -/
def Port.moveSlot (p : Port) (r spare : Nat) : Port :=
  { ((p.setRing false (Fin.ofNat 17 spare) 2).setRing false (Fin.ofNat 17 r) 3) with
    slotsTx := Vector.ofFn (fun n => if p.slotsTx[n] = r then spare else p.slotsTx[n]),
    calTx := false, calFar := false }

/-- Ports whose slots a move concerns: spared ones that are up or in link training (R531, R533). -/
def State.movePorts (s : State) : List PortId :=
  (List.finRange 8).filter (fun q => (decide (s.ports[q].state = 4) || decide (s.ports[q].state = 5)) && s.ports[q].spared)

/-- One move on every such port: the slot on ring `r` to the spare ring; SPARE_LINE becomes `r` (R528, R531). -/
def State.moveAll (s : State) (r : Nat) : State :=
  let ps := s.movePorts
  let s1 := s.forEach ps (fun u q =>
    (u.putNull q false ((u.ports[q].slotOn r).map (fun n => n.val))).onPort q (fun p => p.moveSlot r s.pho.spareLine))
  (s1.onPho (fun p => { p with spareLine := r, moveTick := s.tick, announce := none })).add64 K.rotationMoves ps.length

/-- Relock a mislocked ring (R528, steps 2 and 3; R530). -/
def State.relock (s : State) (q : PortId) (k : LineId) (f : RingFind) (fails : Bool) : State :=
  if f.line = some k ∧ fails = false then
    s.onPort q (fun p =>
      { (p.setRing false k (if p.spared && decide (k.val = s.pho.spareLine) then 3 else 2)) with
        codes := vset p.codes (ringIx false k) f.code, idTick := vset p.idTick (ringIx false k) s.tick })
  else s.failRing q false k

/-- Does a pending swap hold port `q` (Table 3-9): an object of its own differs, or one that all ports share
(notes/assumptions/65.md)? -/
def State.portHeld (s : State) (q : PortId) : Bool :=
  decide (s.aon.swapStatus ≠ 0) && s.diffs.any (fun k =>
    let i := k / 256
    decide (0x6000 ≤ i) && decide (i < 0x6800) &&
      (if i / 16 = 0x601 ∨ i / 16 = 0x641 then decide (i % 16 = q.val) else true))

/-- Does it hold the moves, which all these ports make together? -/
def State.movesHeld (s : State) : Bool := s.movePorts.any s.portHeld

/-- MISLOCK_MOVE (R528): 64 tk after the announcement, a line handover that a pending swap holds. -/
def State.applyMislockMove (s : State) (k : LineId) (f : RingFind) : State :=
  match s.pho.mislock with
  | none => s
  | some m =>
    if m.ring ≠ k ∨ (m.moves ∧ (s.tick < m.tick + 64 ∨ s.movesHeld = true)) ∨ s.runs = false then s
    else
      let s1 := if m.moves then s.moveAll k.val else s.onPho (fun p => { p with moveTick := s.tick })
      let s2 := if m.relock then s1.relock m.port k f m.fails else s1
      s2.onPho (fun p => { p with mislock := none })

/-! The rotation. -/


/-- The period between moves (R531, R541). -/
def State.movePeriod (s : State) : Nat := if s.pho.fade = 3 then 20972 else s.act K.rotPeriod

/-- Is the spare line ready to be used: calibrated on this device and on every far device (R531), and in a handover on
its new source (R541)? -/
def State.spareCalibrated (s : State) : Bool :=
  s.sparedPorts.all (fun q => s.ports[q].calTx && s.ports[q].calFar) && s.pho.switching.isNone &&
    (decide (s.pho.fade ≠ 3) || s.pho.lineSource.getLsbD s.pho.spareLine)

/-- May the next move be announced (R531)? Until calibration has completed the event is held. -/
def State.calDue (s : State) : Bool :=
  s.pho.lit && s.runs && s.pho.mislock.isNone && decide (s.pho.moveTick + s.movePeriod ≤ s.tick) && s.spareCalibrated &&
    !s.movesHeld

/-- The calibration-due event of port `q` (R531, R532): the move is announced there. The ports whose events are applied in
one tick share one move. -/
def State.calDueAt (s : State) (q : PortId) : State :=
  if s.calDue ∧ s.sparedPorts.contains q ∧ (s.pho.announce.isNone ∨ s.pho.announce = some s.tick) then
    (s.onPho (fun p => { p with announce := some s.tick })).announceOn ((s.pho.spareLine + 1) % 17) q
  else s

/-- CALIBRATION_DUE: the event of every spared enabled port. -/
def State.applyCalDue (s : State) : State :=
  if s.pho.announce.isSome then s else s.forEach (List.finRange 8) State.calDueAt

/-- ROTATION_MOVE (R531, R532): at least 64 tk after its announcement. -/
def State.applyRotation (s : State) : State :=
  match s.pho.announce with
  | none => s
  | some t =>
    if s.tick < t + 64 ∨ s.runs = false ∨ s.movesHeld then s else s.moveAll ((s.pho.spareLine + 1) % 17)

/-- SPARE_CALIBRATION_STEP (R534): the last one completes the calibration of the spare line in that direction; a receive
direction tells the far device. -/
def State.applyCalStep (s : State) (q : PortId) (rx last : Bool) : State :=
  if s.ports[q].state ≠ 5 ∨ s.runs = false ∨ s.portHeld q then s
  else if rx then
    (if last then
      ((s.onPort q (fun p =>
        match (List.finRange 17).find? (fun k => !p.slotsRx.toList.contains k.val) with
        | some k => (p.calibrate true (fun i => decide (i = k)) s.calValue).setRing true k 3
        | none => p)).output (.mgmt q 4 0)).tickFree
    else s)
  else if last then
    (s.onPort q (fun p =>
      { p.calibrate false (fun i => decide (i.val = s.pho.spareLine)) s.calValue with calTx := true })).tickFree
  else s.output (.mgmt q 3 0)

/-- CALIBRATION_OVERDUE (R535). -/
def State.applyCalOverdue (s : State) (q : PortId) (rx : Bool) : State :=
  if s.ports[q].state = 5 ∧ s.runs ∧ (rx ∨ s.ports[q].calTx = false) then s.bump K.calOverdue else s

/-! Fade and handover. -/

/-- The least-squares slope of a series sampled every 65,536 tk, as numerator and denominator per tk (R539). -/
def slope (ds : List Int) : Int × Int :=
  let n : Int := ds.length
  let xs := ds.zipIdx
  let sx : Int := xs.foldl (fun a e => a + e.2) 0
  let sy : Int := xs.foldl (fun a e => a + e.1) 0
  let sxy : Int := xs.foldl (fun a e => a + e.1 * e.2) 0
  let sxx : Int := xs.foldl (fun a e => a + (e.2 : Int) * e.2) 0
  (n * sxy - sx * sy, (n * sxx - sx * sx) * 65536)

/-- Does a line's series ask for the warm-up (R539)? -/
def State.warmLine (s : State) (ds : List Int) : Bool :=
  let d := ds.getLast?.getD 0
  let floor : Int := s.act K.marginFloor
  let window : Int := s.act K.warmTime + 17 * 20972 + s.act K.handoverGuard
  let f := slope ds
  decide (floor ≤ d) || (decide (0 < f.1) && decide ((floor - d) * f.2 ≤ f.1 * window))

/-- A line's predicted tick of the floor crossing (R539), rounded down; none when its loss does not grow. -/
def State.predictLine (s : State) (ds : List Int) : Option Nat :=
  let f := slope ds
  if 0 < f.1 then some ((s.tick : Int) + (s.act K.marginFloor - ds.getLast?.getD 0) * f.2 / f.1).toNat else none

/-- The series of line `k`. -/
def lineSeries (samples : List (List Int)) (k : Nat) : List Int := samples.map (fun d => at! 0 d k)

/-- FLOOR_PREDICTION: the earliest predicted crossing; 0 none. -/
def State.predict (s : State) (samples : List (List Int)) : Nat :=
  let ts := (List.range 18).filterMap (fun k => s.predictLine (lineSeries samples k))
  ts.foldl (fun m t => if m = 0 then t else min m t) 0

/-- Start the warm-up of the spare source (R540). -/
def State.startWarm (s : State) : State :=
  let s1 := s.onPho (fun p => { p with fade := 2, warmTick := s.tick })
  s1.modSend true 1 (s1.sourceWord 2)

/-- Lines among `ks` whose loss reaches the threshold in this sample (R538). -/
def State.faded (s : State) (prev : Option (List Int)) (d : List Int) (ks : List Nat) : Option Nat :=
  let thr : Int := s.act K.fadeThreshold
  ks.find? (fun k => decide (thr ≤ at! 0 d k) && (match prev with | some e => decide (at! 0 e k < thr) | none => true))

/-- Latch the fade event of one input (R538, R545). -/
def State.raiseFade (s : State) (mesh : Bool) (prev : Option (List Int)) (d : List Int) (ks : List Nat) : State :=
  if s.pho.fade ≠ 0 ∧ s.pho.fade ≠ 4 ∧ s.pho.fade ≠ 5 then s
  else match s.faded prev d ks with
    | some k => s.latch (.fade mesh (Fin.ofNat 17 (min k 16)) (at! 0 d k).toNat)
    | none => s

/-- FADE_SAMPLE (R537 to R540). -/
def State.applyFadeSample (s : State) (mon : List Int) : State :=
  if s.sgl K.commissionTick = 0 ∨ s.lightReady = false then s
  else
    let ref := s.dsgl K.monAReference
    let d := (List.range 18).map (fun i => monAt ref i - at! 0 mon i)
    let prev := s.pho.samples.getLast?
    let keep := (if 64 ≤ s.pho.samples.length then s.pho.samples.drop 1 else s.pho.samples) ++ [d]
    let s1 := (s.setDom K.monAReading (monBytes ((List.range 18).map (fun i => at! 0 mon i)))).onPho (fun p =>
      { p with samples := keep, prediction := s.predict keep })
    let s2 := (s1.raiseFade false prev d (List.range 17)).raiseFade true prev d [17]
    if s.pho.fade < 2 ∧ (List.range 18).any (fun k => s.warmLine (lineSeries keep k)) then s2.startWarm else s2

/-- The fade event, applied (R538, R545): comb line, or the mesh input, which carries line_8. -/
def State.applyFade (s : State) (mesh : Bool) (line : LineId) (loss : Nat) : State :=
  let f := s.pho.fade
  let s1 := s.onPho (fun p => { p with fade := if f = 0 then 1 else if f = 4 ∨ f = 5 then 5 else f })
  let s2 := s1.logRec 0x0402 1 noPart (if mesh then 8 else line.val) loss
  if mesh then s2.maintMesh else s2.maintPort 0

/-- SPARE_NOT_READY (R540). -/
def State.applySpareNotReady (s : State) : State :=
  if s.pho.fade = 2 ∧ s.pho.sources.2 = false ∧ s.pho.warmTick + s.act K.warmTime + 1048576 ≤ s.tick then
    (s.onPho (fun p => { p with fade := 5 })).logRec 0x0403 2 noPart 0 0
  else s

/-- Write LINE_SOURCE with one more bit (R541, R605). Before bit 17 the mesh enters state 6, and the write waits until no
tile is in the mesh. -/
def State.switchLine (s : State) (k : Nat) : State :=
  let s1 := if k = 17 ∧ s.mesh.state ≠ 0 ∧ s.mesh.state ≠ 6 then
      s.onMesh (fun m => { m with before := m.state, state := 6 }) else s
  if k = 17 ∧ s1.mesh.granted.isSome then s1
  else
    (s1.onPho (fun p => { p with switching := some k, stepTick := s.tick })).modSend true 3
      (s.pho.lineSource.toNat + (if s.pho.lineSource.getLsbD k then 0 else 2 ^ k))

/-- The next line of a handover: the spare line, or, where no port is spared, the next line in turn that has not
switched; 17 when all have, or no port is enabled (R541, R543, R544). -/
def State.nextSwitch (s : State) : Nat :=
  let old (k : Nat) : Bool := !s.pho.lineSource.getLsbD k
  if s.anyPort = false then 17
  else if s.sparedPorts.isEmpty = false ∧ old s.pho.spareLine then s.pho.spareLine
  else match ((List.range 17).map (fun i => (s.pho.spareLine + i) % 17)).find? old with
    | some k => if s.sparedPorts.isEmpty then k else 18
    | none => 17

/-- Does it hold the steps of a source handover, for any port in use? -/
def State.handoverHeld (s : State) : Bool := (List.finRange 8).any (fun q => s.ports[q].lit && s.portHeld q)

/-- SPARE_READY (R541, R544): the first step, which a pending swap leaves to HANDOVER_STEP. -/
def State.applySpareReady (s : State) : State :=
  if s.pho.fade = 2 ∧ s.pho.sources.2 ∧ s.pho.lit then
    let s1 := s.onPho (fun p => { p with fade := 3, stepTick := s.tick })
    if s1.nextSwitch ≤ 17 ∧ s1.handoverHeld = false then s1.switchLine s1.nextSwitch else s1
  else s

/-- HANDOVER_STEP (R541): every 20,972 tk, once the next line is the spare line. -/
def State.applyHandover (s : State) : State :=
  if s.pho.fade = 3 ∧ s.pho.lit ∧ s.pho.switching.isNone ∧ s.handoverHeld = false ∧
      (s.pho.stepTick + 20972 ≤ s.tick ∨ s.mesh.state = 6 ∨ s.pho.lineSource = 0) ∧ s.nextSwitch ≤ 17 then
    s.switchLine s.nextSwitch
  else s

/-- A write of COMMISSION, accepted (R545). -/
def State.commission (s : State) : State :=
  let s1 := s.setDom K.monAReference (s.dsgl K.monAReading)
  let s2 := s1.forEach ((List.finRange 8).filter (fun q => s.ports[q].up)) (fun u q =>
    u.setDom (K.monReference q.val) (u.dsgl (K.monReading q.val)))
  (s2.setSgl K.commissionTick s.tick).onPho (fun p => { p with fade := 0, samples := [] })

/-! Locating a loss. -/

/-- The losses Δ of one line along the path of R546: MON_A, MON_B, MON_C, MON_D, then the far device's MON_D, MON_E and
MON_F. -/
def State.lossPath (s : State) (q : PortId) (mon far : List Int) (k : Nat) : List Int :=
  let ref := s.dsgl (K.monReference q.val)
  [monAt (s.dsgl K.monAReference) k - monAt (s.dsgl K.monAReading) k] ++
    [0, 1, 2].map (fun t => monAt ref (17 * t + k) - at! 0 mon (17 * t + k)) ++
    [0, 1, 2].map (fun t => at! 0 far (17 * t + k))

/-- Segment codes of Table 15-9 along that path. -/
def lossCodes : List Nat := [1, 2, 3, 4, 4, 5, 6]

/-- Where one line's loss exceeds that of the tap before it by at least 1.00 dB: place on the path and excess. -/
def firstStep : Int → List Int → Nat → Option (Nat × Int)
  | _, [], _ => none
  | prev, d :: l, i => if 100 ≤ d - prev then some (i, d - prev) else firstStep d l (i + 1)

/-- LOSS_LOCATION (R546): the first place on the path at which any line's loss lies. -/
def lossWord (steps : List (Option (Nat × Int))) : Nat :=
  match (List.range 7).find? (fun i => steps.any (fun e => match e with | some x => decide (x.1 = i) | none => false)) with
  | none => 0
  | some i =>
    let hit (e : Option (Nat × Int)) : Bool := match e with | some x => decide (x.1 = i) | none => false
    let k := (steps.findIdx? hit).getD 0
    let excess := match at! none steps k with | some x => x.2.toNat | none => 0
    at! 0 lossCodes i + 16 * (if steps.all hit then 31 else k) + 2 ^ 16 * (excess % 65536)

/-- LOSS_LOCATION: the port's readings are kept in MON_READING. -/
def State.applyLoss (s : State) (q : PortId) (mon far : List Int) : State :=
  if s.ports[q].up = false ∨ s.runs = false then s
  else
    let w := lossWord ((List.range 17).map (fun k => firstStep 0 (s.lossPath q mon far k) 0))
    (s.setDom (K.monReading q.val) (monBytes ((List.range 102).map (fun i => at! 0 mon i)))).setSgl
      (K.lossLocation q.val) w

/-! Management messages of a port (R561). -/

/-- MOVE_ANNOUNCE (R532): the receiver prepares for the move, which it follows at the flit that carries the switch
marker (Machine/Fabric.lean). -/
def State.applyAnnounce (s : State) (q : PortId) (slot : Fin 16) (ring : LineId) : State :=
  if s.ports[q].lit ∧ s.runs then s.onPort q (fun p => { p with moving := some (slot.val, ring.val, s.tick) }) else s

/-- The receiver has followed a move: the slot's new ring is locked, the old one carries nothing and is calibrated
(R529, R532). -/
def Port.followMove (p : Port) (slot ring : Nat) : Port :=
  let n : Fin 16 := Fin.ofNat 16 slot
  let old : LineId := Fin.ofNat 17 p.slotsRx[n]
  let p1 := if p.rings[ringIx true old] = 5 then p else p.setRing true old 3
  { (p1.setRing true (Fin.ofNat 17 ring) 2) with slotsRx := vset p.slotsRx n ring, moving := none }

/-- SPARE_REQUEST (R529): this device acts as R528 states, without a relock. -/
def State.applySpareRequest (s : State) (q : PortId) (k : LineId) : State :=
  if s.ports[q].lit = false ∨ s.runs = false ∨ s.pho.mislock.isSome ∨ s.ports[q].spared = false then s
  else s.beginMislock q k false false

/-- CAL_STEP (R534): a step of joint calibration begins on the receive direction; its set points are analog. -/
def State.applyCalMsg (s : State) (_q : PortId) : State := s

/-- CAL_DONE (R531). -/
def State.applyCalDone (s : State) (q : PortId) : State :=
  if s.ports[q].lit then s.onPort q (fun p => { p with calFar := true }) else s

/-! Commands. -/

/-- MODULE_RESPONSE. -/
def execModuleResponse (r : ModResp) (s : State) : Host.Outcome State Fault Refusal :=
  .next (s.applyModResponse r)

/-- MODULE_REQUEST_TIMEOUT. -/
def execModuleRequestTimeout (s : State) : Host.Outcome State Fault Refusal :=
  .next s.applyModTimeout

/-- MODULE_RETRY. -/
def execModuleRetry (s : State) : Host.Outcome State Fault Refusal :=
  .next s.applyModRetry

/-- PILOTS_PRESENT. -/
def execPilotsPresent (q : PortId) (rx : Bool) (found : List RingFind) (s : State) : Host.Outcome State Fault Refusal :=
  .next (s.applyPilots q rx found)

/-- SEARCH_CALIBRATION_COMPLETE. -/
def execSearchCalibrationComplete (q : PortId) (rx : Bool) (s : State) : Host.Outcome State Fault Refusal :=
  .next (s.applyCalibrated q rx)

/-- OUT_OF_LOCK. -/
def execOutOfLock (q : PortId) (rx : Bool) (k : LineId) (found : RingFind) (s : State) :
    Host.Outcome State Fault Refusal :=
  .next (s.applyOutOfLock q rx k found)

/-- PILOT_CHECK. -/
def execPilotCheck (q : PortId) (rx : Bool) (k line : LineId) (s : State) : Host.Outcome State Fault Refusal :=
  .next (s.applyPilotCheck q rx k line)

/-- MISLOCK. -/
def execMislock (q : PortId) (rx : Bool) (k line : LineId) (s : State) : Host.Outcome State Fault Refusal :=
  .next (s.applyMislock q rx k line)

/-- MISLOCK_MOVE. -/
def execMislockMove (k : LineId) (found : RingFind) (s : State) : Host.Outcome State Fault Refusal :=
  .next (s.applyMislockMove k found)

/-- CALIBRATION_DUE. -/
def execCalibrationDue (s : State) : Host.Outcome State Fault Refusal :=
  .next s.applyCalDue

/-- ROTATION_MOVE. -/
def execRotationMove (s : State) : Host.Outcome State Fault Refusal :=
  .next s.applyRotation

/-- SPARE_CALIBRATION_STEP. -/
def execSpareCalibrationStep (q : PortId) (rx last : Bool) (s : State) : Host.Outcome State Fault Refusal :=
  .next (s.applyCalStep q rx last)

/-- CALIBRATION_OVERDUE. -/
def execCalibrationOverdue (q : PortId) (rx : Bool) (s : State) : Host.Outcome State Fault Refusal :=
  .next (s.applyCalOverdue q rx)

/-- FADE_SAMPLE. -/
def execFadeSample (mon : List Int) (s : State) : Host.Outcome State Fault Refusal :=
  .next (s.applyFadeSample mon)

/-- SPARE_NOT_READY. -/
def execSpareNotReady (s : State) : Host.Outcome State Fault Refusal :=
  .next s.applySpareNotReady

/-- SPARE_READY. -/
def execSpareReady (s : State) : Host.Outcome State Fault Refusal :=
  .next s.applySpareReady

/-- HANDOVER_STEP. -/
def execHandoverStep (s : State) : Host.Outcome State Fault Refusal :=
  .next s.applyHandover

/-- LOSS_LOCATION. -/
def execLossLocation (q : PortId) (mon far : List Int) (s : State) : Host.Outcome State Fault Refusal :=
  .next (s.applyLoss q mon far)

/-- MOVE_ANNOUNCE. -/
def execMoveAnnounce (q : PortId) (slot : Fin 16) (ring : LineId) (s : State) : Host.Outcome State Fault Refusal :=
  .next (s.applyAnnounce q slot ring)

/-- SPARE_REQUEST. -/
def execSpareRequest (q : PortId) (k : LineId) (s : State) : Host.Outcome State Fault Refusal :=
  .next (s.applySpareRequest q k)

/-- CAL_STEP. -/
def execCalStep (q : PortId) (s : State) : Host.Outcome State Fault Refusal :=
  .next (s.applyCalMsg q)

/-- CAL_DONE. -/
def execCalDone (q : PortId) (s : State) : Host.Outcome State Fault Refusal :=
  .next (s.applyCalDone q)

end Sys2Proof.Machine
end

