-- ==== Sys2Proof/Machine/Fabric.lean ====
section
/-!
DEFINITION. The Filver fabric (chapter 16): link training and sessions (R552 to R555), flits (R556 to R559), forwarding and
ejection (R561 to R565), the requests of other devices (R566 to R569, R572), and the answers to the requests of this one
(R565 to R573).
-/
namespace Sys2Proof.Machine

/-! Training. -/

/-- The device that Table 16-1 names beyond port `q`. -/
def State.farOf (s : State) (q : PortId) : Nat :=
  let d := if q.val < 6 then q.val / 2 else s.act K.expressDim - 1
  let n := max 1 (s.fabSize d)
  let c := coord s.ownDev d
  let c' := if 6 ≤ q.val then (c + n / 2) % n else if q.val % 2 = 0 then (c + 1) % n else (c + n - 1) % n
  s.ownDev - c * 2 ^ (4 * d) + c' * 2 ^ (4 * d)

/-- The far port of the opposite role (Table 16-1). -/
def farPort (q : PortId) : Nat := if q.val % 2 = 0 then q.val + 1 else q.val - 1

/-- The cause of Table 16-7 that a TRAIN message gives, if any (R552). -/
def State.trainCause (s : State) (q : PortId) (m : TrainMsg) : Option Nat :=
  if m.device.toNat ≠ s.farOf q then some 1
  else if m.port.val ≠ farPort q then some 2
  else if m.sizeX.toNat ≠ s.act K.fabricSizeX ∨ m.sizeY.toNat ≠ s.act K.fabricSizeY ∨
      m.sizeZ.toNat ≠ s.act K.fabricSizeZ ∨ m.express.toNat ≠ s.act K.expressDim then some 3
  else none

/-- A port fails in training (R552): the cause kept and recorded. -/
def State.failPort (s : State) (q : PortId) (cause : Nat) : State :=
  (s.onPort q (fun p => { p with state := 7, fault := cause, retraining := false })).logRec 0x0500 2 noPart q.val cause

/-- A new session (R553): every SEQ 0, every credit full. The flits of the retry buffer are lost and counted (R555). Flits
that the receive buffer holds stay there; the credits they used are of the old session and are not returned. -/
def State.openSession (s : State) (q : PortId) : State :=
  let e := s.ports[q].sess
  let n := e.retry.length
  let s1 := s.onPort q (fun p =>
    { p with sess := { Session.reset with kept := true, rxBuf := e.rxBuf.map (fun b => (b.1 % 8 + 8, b.2)) } })
  let s2 := ((s1.onFab (fun f => { f with sent := f.sent - n, discarded := f.discarded + n })).addSat K.flitsDiscarded n).bump32
    (K.sessions q.val)
  if n = 0 then s2 else s2.logRec 0x0501 1 noPart q.val n

/-- Send every unacknowledged flit of a link again, in order and as it was, with the credits that it returns (R553, R558,
R559; notes/assumptions/67.md). -/
def State.resend (s : State) (q : PortId) : State :=
  let l := s.ports[q].sess.retry
  (s.forEach l (fun u e => u.putFlit q e.1 e.2.1 false none e.2.2.2 (some e.2.2.1))).addSat (K.resends q.val) l.length

/-- The link is trained: a session is opened or resumed, and the port is up. -/
def State.linkUp (s : State) (q : PortId) (m : TrainMsg) : State :=
  let keep := m.sessionKept && s.ports[q].sess.kept
  let s1 := if keep then s else s.openSession q
  let s2 := s1.onPort q (fun p =>
    { p with state := if p.spared then 5 else 6, retraining := false, since := s.tick, fault := 0,
             far := m.device.setWidth 16, sess := { p.sess with naks := 0 },
             slotsRx := Vector.ofFn (fun n => (at! 0 m.slotMap n.val : Fin 17).val) })
  if keep then s2.resend q else s2

/-! Messages on their way. -/

/-- Answer a request (R565): a message back to its source, under its tag. -/
def State.answer (s : State) (m : Msg) (type aux : Nat) (data : List Byte) : State :=
  s.sendMsg (s.mkMsg type m.srcPart.val m.srcDev.toNat m.tag.toNat m.addr.toNat aux data)

/-- Answer with ERROR (Table 16-6). -/
def State.refuse (s : State) (m : Msg) (cause : Nat) : State := s.answer m 0x8F cause []

/-- Entries of the remote service queue in use (R565): requests that wait for a commit buffer, and answers that wait for
injection. -/
def State.serviced (s : State) : Nat :=
  s.fab.service.length + (s.fab.inject.filter (fun m => decide (0x80 ≤ m.type.toNat))).length

/-- Can a message be ejected here now (R565)? Answers and tile data have space reserved; a signal needs no answer. -/
def State.canEject (s : State) (m : Msg) : Bool :=
  decide (0x80 ≤ m.type.toNat) || decide (m.type = 0x04) || decide (m.type = 0x06) || decide (s.serviced < 256)

/-! Requests of other devices. -/

/-- The SOURCE field of a message (Table 16-2). -/
def msgSource (m : Msg) : Nat := m.srcDev.toNat + 4096 * m.srcPart.val

/-- The cause of Table 16-6 that an access of `n` bytes takes (R184, R185, R216, R261). -/
def State.reachCause (s : State) (a n : Nat) : Option Nat :=
  let off := gaOff a
  if gaRsv a ≠ 0 ∨ s.isLocal a = false then some 1
  else if tierOf off = .descs ∨ tierOf (off + n - 1) = .descs then some 2
  else if inOneTier off n then none
  else some 1

/-- Is a message a 4-byte read of a counter (R566)? -/
def readsCounter (m : Msg) : Bool := conjRefOk m.addr.toNat && decide (m.len = 4)

/-- The rights check of a reference at the holding device (R348, R566): the cause, if any. -/
def State.conjCause (s : State) (m : Msg) : Option Nat :=
  if conjRefOk m.addr.toNat = false ∨ s.isLocal m.addr.toNat = false then some 1
  else if s.conjRights (conjIdx (gaOff m.addr.toNat)) m.srcDev.toNat m.srcPart.val then none
  else some 3

/-- The bytes of a WRITE or TILE_DATA: bit i of AUX marks data byte i written. -/
def msgWrites (m : Msg) : List WByte :=
  (m.data.zipIdx.filter (fun e => m.aux.getLsbD e.2)).map (fun e => WByte.plain (gaOff m.addr.toNat + e.2) e.1)

/-- The width in bits of an ATOMIC. -/
def msgWidth (m : Msg) : Nat := if m.aux.getLsbD 4 then 64 else 32

/-- The cause that the address of a request takes at its destination (R566). -/
def State.remCause (s : State) (m : Msg) : Option Nat :=
  let a := m.addr.toNat
  match m.type.toNat with
  | 0x01 => if readsCounter m then s.conjCause m else s.reachCause a m.len.toNat
  | 0x02 | 0x04 => s.reachCause a (max 1 m.data.length)
  | 0x03 => s.reachCause a 1
  | 0x05 =>
    match s.reachCause a 1 with
    | some c => some c
    | none => if a % (msgWidth m / 8) ≠ 0 then some 4 else none
  | _ => s.conjCause m

/-- Refuse a request by cause: an address fault of a remote request (R188), or a refused right (R348), is counted here. -/
def State.refuseAddr (s : State) (m : Msg) (cause : Nat) : State :=
  (if cause = 3 then s.bump K.conjRightsFaults else s.addrFaultRec m.addr.toNat (65536 + msgSource m)).refuse m cause

/-- Check a request before it is performed: Fault (R567; a READ is still answered, R238) and its address (R566). -/
def State.checked (s : State) (m : Msg) (go : State) : State :=
  if s.inFault ∧ m.type ≠ 0x01 then s.refuse m 6
  else
    match s.remCause m with
    | some c => s.refuseAddr m c
    | none => go

/-- READ. -/
def State.doRead (s : State) (m : Msg) : State :=
  let off := gaOff m.addr.toNat
  let n := m.len.toNat
  s.checked m
    (if readsCounter m then s.answer m 0x81 0 (leBytes 4 (s.conjVal (conjIdx off)))
     else
       let u := (s.checkRead off n).countLines .inject off n
       if u.anyPoison off n then u.refuse m 5 else u.answer m 0x81 0 (s.readMem off n))

/-- WRITE (R568): performed, then acknowledged; a poisoned word that is written only in part stays (R224). -/
def State.doWrite (s : State) (m : Msg) : State :=
  let ws := msgWrites m
  let s1 := s.storeWrite .eject ws
  s.checked m (if (s.checkWrite ws).writeHitsPoison ws then s1.refuse m 5 else s1.answer m 0x82 0 [])

/-- ATOMIC (R215, R568). One that names FADD with 64 bits, which Table 6-5 does not give, is performed on the low 32 and
writes all eight bytes (notes/assumptions/50.md). -/
def State.doAtomic (s : State) (m : Msg) : State :=
  let off := gaOff m.addr.toNat
  let w := msgWidth m
  let a := m.aux.toNat
  s.checked m
    (let u := s.checkRead off (w / 8)
     if u.anyPoison off (w / 8) then u.refuse m 5
     else
       let r := u.atomLocal .eject (bits a 3 0) w off (bits a 127 64) (bits a 191 128)
       r.2.answer m 0x85 0 (leBytes (w / 8) r.1))

/-- SIGNAL (R353, R566): applied, or counted as a refused right. In Fault nothing is applied. -/
def State.doSignal (s : State) (m : Msg) : State :=
  if s.inFault then s
  else
    match s.conjCause m with
    | some _ => s.bump K.conjRightsFaults
    | none => s.applySignal (conjIdx (gaOff m.addr.toNat)) (bits m.aux.toNat 31 0) m.srcDev.toNat m.srcPart.val 1

/-- The registration that a WAIT_REG asks for. -/
def waitRegOf (m : Msg) : WaitReg :=
  { dev := m.srcDev.toNat, part := m.srcPart.val, thread := bits m.aux.toNat 38 32, tag := m.tag,
    index := conjIdx (gaOff m.addr.toNat), value := BitVec.ofNat 32 (bits m.aux.toNat 31 0) }

/-- Are two registrations of one identity (R572)? -/
def WaitReg.same (a b : WaitReg) : Bool :=
  decide (a.dev = b.dev) && decide (a.part = b.part) && decide (a.thread = b.thread) && decide (a.tag = b.tag)

/-- WAIT_REG (R572). -/
def State.doWaitReg (s : State) (m : Msg) : State :=
  let r := waitRegOf m
  let s1 := s.onFab (fun f => { f with regs := f.regs.filter (fun x => !x.same r) })
  s.checked m
    (if r.value.toNat ≤ s.conjVal r.index then s1.answer m 0x87 1 []
     else if 4096 ≤ s1.fab.regs.length then s1.answer m 0x87 0 []
     else s1.onFab (fun f => { f with regs := f.regs ++ [r] }))

/-- The first free remote commit buffer. -/
def State.freeBuf (s : State) : Option (Fin 16) := (List.finRange 16).find? (fun b => s.fab.commits[b].isNone)

/-- Grant a commit buffer to a tile transaction (R569). -/
def State.grantTile (s : State) (m : Msg) (b : Fin 16) : State :=
  (s.onFab (fun f =>
    { f with commits := vset f.commits b (some { dev := m.srcDev.toNat, part := m.srcPart.val, tag := m.tag,
                                                 flits := bits m.aux.toNat 15 0, bytes := [] }) })).answer m 0x83 b.val []

/-- TILE_OPEN (R569): granted now, or when a buffer is freed. -/
def State.doTileOpen (s : State) (m : Msg) : State :=
  s.checked m
    (match s.freeBuf with
     | some b => s.grantTile m b
     | none => s.onFab (fun f => { f with service := f.service ++ [m] }))

/-- The buffer of a transaction. -/
def State.bufOf (s : State) (m : Msg) : Option (Fin 16) :=
  (List.finRange 16).find? (fun b => s.fab.commits[b].any (fun t =>
    decide (t.dev = m.srcDev.toNat) && decide (t.part = m.srcPart.val) && decide (t.tag = m.tag)))

/-- Free a commit buffer, and grant it to the oldest TILE_OPEN that waits. -/
def State.releaseBuf (s : State) (b : Fin 16) : State :=
  let s1 := s.onFab (fun f => { f with commits := vset f.commits b none, service := f.service.drop 1 })
  match s.fab.service with
  | [] => s1
  | m :: _ => s1.grantTile m b

/-- The local write of a commit buffer. -/
def CommitBuf.writes (t : CommitBuf) : List WByte :=
  t.bytes.map (fun b => { off := gaOff b.addr.toNat, val := b.val, mask := b.mask })

/-- Commit a whole remote tile as one step and answer (R202, R224, R569). -/
def State.commitRemote (s : State) (m : Msg) (b : Fin 16) (t : CommitBuf) : State :=
  let s1 := s.storeWrite .eject t.writes
  let s2 := if (s.checkWrite t.writes).writeHitsPoison t.writes then s1.refuse m 5 else s1.answer m 0x84 0 []
  s2.releaseBuf b

/-- TILE_DATA (R569). A flit of no open transaction has no effect. -/
def State.doTileData (s : State) (m : Msg) : State :=
  match s.bufOf m with
  | none => s
  | some b =>
    match s.fab.commits[b] with
    | none => s
    | some t =>
      if s.inFault ∨ (s.remCause m).isSome then (s.checked m s).releaseBuf b
      else
        let t1 := { t with bytes := t.bytes ++ (m.data.zipIdx.filter (fun e => m.aux.getLsbD e.2)).map (fun e =>
          { addr := m.addr + BitVec.ofNat 64 e.2, val := e.1, mask := 0xFF, row := 0 }) }
        let s1 := s.onFab (fun f => { f with commits := vset f.commits b (some t1) })
        if m.tileLast then s1.commitRemote m b t1 else s1

/-! Answers to this device. -/

/-- The outstanding request of a tag. -/
def State.reqOf (s : State) (tag : BitVec 16) : Option RemReq := s.fab.outstanding.find? (fun r => decide (r.tag = tag))

/-- Close a request: its response buffer is free (R570). -/
def State.closeReq (s : State) (tag : BitVec 16) : State :=
  s.onFab (fun f => { f with outstanding := f.outstanding.filter (fun r => r.tag ≠ tag) })

/-- Take an answer: the request it answers is closed and handed to `f`. An answer of no request is discarded, and counted
when its request timed out (R571, Table 7-3). -/
def State.answered (s : State) (m : Msg) (f : State → RemReq → State) : State :=
  match s.reqOf m.tag with
  | some r => f (s.closeReq m.tag) r
  | none =>
    if s.fab.late.contains m.tag then
      (s.onFab (fun g => { g with late := g.late.filter (fun t => t ≠ m.tag) })).bump K.lateResponses
    else s

/-- Does a thread wait for the answer under a tag? -/
def State.awaits (s : State) (t : ThreadId) (tag : BitVec 16) : Bool := decide (s.threads[t].wait = .remote tag)

/-- The value that an answer gives to a thread's register: 64 bits, or 32 bits zero-extended. -/
def RemReq.value (r : RemReq) (data : List Byte) : W64 :=
  BitVec.ofNat 64 (ofLe (data.take (if 64 ≤ r.dst then 8 else 4)))

/-- A thread's request is answered: its register takes the value, where there is one, and it goes on. -/
def State.threadAnswer (s : State) (r : RemReq) (value : Option W64) : State :=
  let t := tid r.thread
  if r.thread < 80 ∧ s.awaits t r.tag then
    (match value with
     | some v => s.setS t (Fin.ofNat 64 r.dst) v
     | none => s).resumeThread t
  else s

/-- READ_DATA: to the register of ldg, or to the Ingest stage of the verb that asked. -/
def State.doReadData (s : State) (m : Msg) : State :=
  s.answered m (fun u r =>
    if r.thread < 80 then u.threadAnswer r (some (r.value m.data))
    else if u.cores[cid r.core].active.any (fun v => r.ofVerb (cid r.core) v) then
      u.onCore (cid r.core) (fun k => { k with rdata := k.rdata ++ [(r.addr.toNat, m.data)] })
    else u)

/-- WRITE_ACK. -/
def State.doWriteAck (s : State) (m : Msg) : State := s.answered m (fun u r => u.threadAnswer r none)

/-- ATOMIC_DATA: the old value, to the register of atom; an accumulating SCATTER drops it. -/
def State.doAtomicData (s : State) (m : Msg) : State :=
  s.answered m (fun u r => u.threadAnswer r (some (r.value m.data)))

/-- Does an output tile belong to the transaction of a request? -/
def OutTile.inReq (t : OutTile) (r : RemReq) : Bool := decide (t.remote = 1 + r.tag.toNat)

/-- Send the TILE_DATA flits of a tile, the last one marked (R569, step 3). -/
def State.sendRuns (s : State) (r : RemReq) : List (SMap (Byte × Byte)) → State
  | [] => s
  | x :: l =>
    let d := runData ((Config.freeWord s.freeCtr 0).setWidth 8) x
    let m := s.mkMsg 0x04 r.part r.dev r.tag.toNat d.1 d.2.2 d.2.1
    (s.tickFree.sendMsg { m with tileLast := l.isEmpty }).sendRuns r l

/-- TILE_GRANT (R569): the tile's data are sent, and its TILE_ACK is awaited. -/
def State.doTileGrant (s : State) (m : Msg) : State :=
  s.answered m (fun u r =>
    match u.cores[cid r.core].wbuf.find? (fun t => t.inReq r) with
    | none => u
    | some t =>
      if r.type = 0x03 then
        (u.onFab (fun f => { f with outstanding := f.outstanding ++ [{ r with type := 0x04, tick := u.tick }] })).sendRuns r
          t.runs
      else u)

/-- TILE_ACK (R569): the tile has left the write buffer. -/
def State.doTileAck (s : State) (m : Msg) : State :=
  s.answered m (fun u r => u.onCore (cid r.core) (fun k => { k with wbuf := k.wbuf.filter (fun t => !t.inReq r) }))

/-- The thread that waits on a remote counter under a tag. -/
def State.waiterOf (s : State) (tag : BitVec 16) : Option (ThreadId × W64) :=
  (List.finRange 80).findSome? (fun t =>
    match s.threads[t].wait with
    | .conj ref _ true g _ => if g = tag ∧ s.isLocal ref.toNat = false then some (t, ref) else none
    | _ => none)

/-- WAIT_ANSWER (R572): satisfied, the thread goes on; retry, it registers again after 16 tk. -/
def State.doWaitAnswer (s : State) (m : Msg) : State :=
  match s.waiterOf m.tag with
  | none => s
  | some (t, _) =>
    if m.aux.getLsbD 0 then s.resumeThread t
    else s.onThread t (fun h => match h.wait with
      | .conj ref v _ g _ => { h with wait := .conj ref v false g s.tick }
      | _ => h)

/-- The partition fault of a request that fails (Table 19-3): raised at its thread, which holds before the instruction, or
at its verb. A tile whose transaction fails leaves the write buffer. -/
def State.reqFault (s0 : State) (r : RemReq) (kind cause : Nat) : State :=
  let s := s0.onCore (cid r.core) (fun k => { k with wbuf := k.wbuf.filter (fun t => !t.inReq r) })
  if r.thread < 80 then
    let t := tid r.thread
    if s.awaits t r.tag then
      (s.onThread t (fun h => { h with wait := .none })).threadAccessFault t (pid r.part) kind cause r.addr.toNat
    else s
  else
    match s.cores[cid r.core].verbs.find? (fun v => r.ofVerb (cid r.core) v) with
    | some v => s.verbFault (cid r.core) v kind cause r.addr.toNat
    | none => s

/-- The fault that a cause of Table 16-6 has at the source. -/
def errorFault (cause : Nat) : Nat × Nat := if cause ≤ 4 then (1, 7) else (2, 7)

/-- LAST_REMOTE_ERROR (Table 16-8). -/
def remoteErrorWord (cause dev part : Nat) : Nat := cause % 256 + 2 ^ 8 * (dev % 4096) + 2 ^ 20 * (part % 16)

/-- ERROR (R566): counted and kept; the request's source takes the fault of Table 16-6. -/
def State.doError (s : State) (m : Msg) : State :=
  let cause := bits m.aux.toNat 7 0
  let f := errorFault cause
  let s1 := (s.bump K.remoteErrors).setSgl K.lastRemoteError (remoteErrorWord cause m.srcDev.toNat m.srcPart.val)
  match s1.waiterOf m.tag, s1.reqOf m.tag with
  | some (t, ref), none =>
    match s1.threadPart t with
    | some p => (s1.onThread t (fun h => { h with wait := .none })).threadAccessFault t p f.1 f.2 ref.toNat
    | none => s1
  | _, _ => s1.answered m (fun u r => u.reqFault r f.1 f.2)

/-! Delivery. -/

/-- Perform a message at its destination. A reserved TYPE is discarded and counted. -/
def State.deliver (s : State) (m : Msg) : State :=
  match m.type.toNat with
  | 0x01 => s.doRead m
  | 0x02 => s.doWrite m
  | 0x03 => s.doTileOpen m
  | 0x04 => s.doTileData m
  | 0x05 => s.doAtomic m
  | 0x06 => s.doSignal m
  | 0x07 => s.doWaitReg m
  | 0x81 => s.doReadData m
  | 0x82 => s.doWriteAck m
  | 0x83 => s.doTileGrant m
  | 0x84 => s.doTileAck m
  | 0x85 => s.doAtomicData m
  | 0x87 => s.doWaitAnswer m
  | 0x8F => s.doError m
  | _ => s.bump K.remoteErrors

/-- Free an entry of a receive buffer: its credit is returned (R558), unless it is of an earlier session. -/
def State.freeEntry (s : State) (q : PortId) (ch : Nat) : State :=
  if ch < 5 then
    s.onPort q (fun p => { p with sess := { p.sess with ret := vmod p.sess.ret (Fin.ofNat 5 ch) (fun n => n + 1) } })
  else s

/-- Move the flits of a receive buffer on, in order within each channel (R564): eject those for this device, forward the
others; a channel whose oldest flit must wait waits whole. -/
def State.pumpBuf (s : State) (q : PortId) : List (Nat × Msg) → List Nat → List (Nat × Msg) → State
  | [], _, kept => s.onPort q (fun p => { p with sess := { p.sess with rxBuf := kept } })
  | e :: l, blocked, kept =>
    let ch := e.1 % 8
    if blocked.contains ch then s.pumpBuf q l blocked (kept ++ [e])
    else if e.2.dest.toNat = s.ownDev then
      if s.canEject e.2 then
        (((s.deliver e.2).freeEntry q e.1).onFab (fun f => { f with ejected := f.ejected + 1 })).pumpBuf q l blocked kept
      else s.pumpBuf q l (ch :: blocked) (kept ++ [e])
    else
      match s.trySend e.2 (some q.val) ch with
      | (s1, true) => (s1.freeEntry q e.1).pumpBuf q l blocked kept
      | (s1, false) => s1.pumpBuf q l (ch :: blocked) (kept ++ [e])

/-- Let everything that can move move: messages that wait for injection, then the ports in order. -/
def State.pump (s : State) : State :=
  s.drain.forEach (List.finRange 8) (fun u q => u.pumpBuf q u.ports[q].sess.rxBuf [] [])

/-! Flits. -/

/-- Field `[hi:lo]` of the link header. -/
def linkField (bs : List Byte) (hi lo : Nat) : Nat := bits (ofLe (bs.take 8)) hi lo

/-- The message of a flit (Table 16-2). -/
def flitMsg (bs : List Byte) : Msg :=
  let f (o n : Nat) := ofLe ((bs.drop o).take n)
  { type := BitVec.ofNat 8 (f 8 1), len := BitVec.ofNat 8 (f 9 1), srcDev := BitVec.ofNat 12 (f 10 2),
    srcPart := pid (f 10 2 / 4096), dest := BitVec.ofNat 12 (f 12 2), tag := BitVec.ofNat 16 (f 14 2),
    addr := BitVec.ofNat 64 (f 16 8), aux := BitVec.ofNat 192 (f 24 24),
    data := (bs.drop 48).take (if f 8 1 = 0x01 then 0 else min 192 (f 9 1)), tileLast := decide (linkField bs 41 41 = 1) }

/-- Is the CHECK of a flit good (R557)? -/
def checkOk (bs : List Byte) : Bool :=
  decide (bs.length = 256) && decide ((crc64 (bs.take 248)).toNat = ofLe (bs.drop 248))

/-- What the header of a good flit tells the sender side (R558, R559): flits acknowledged, the credits of a flit that is
`taken`, accepted or null, and a NAK, after which everything unacknowledged is sent again. -/
def State.takeHeader (s : State) (q : PortId) (bs : List Byte) (taken : Bool) : State :=
  let ack : BitVec 16 := BitVec.ofNat 16 (linkField bs 31 16)
  let nak := decide (linkField bs 35 35 = 1)
  let e := s.ports[q].sess
  let first := match e.retry with | [] => e.txSeq | x :: _ => x.1
  let n := (ack - first).toNat
  let k := if n ≤ e.retry.length then n else 0
  let s1 := s.onPort q (fun p =>
    { p with
      since := s.tick,
      sess := { p.sess with
        retry := p.sess.retry.drop k, naks := if nak then (if k = 0 then p.sess.naks + 1 else 1) else if k = 0 then p.sess.naks else 0,
        credits := Vector.ofFn (fun c : Fin 5 =>
          p.sess.credits[c] + if taken then (at! 0 bs (240 + c.val)).toNat else 0) } })
  if nak then s1.resend q else s1

/-- A switch marker (R532): the receive direction follows the announced move. -/
def State.takeMarker (s : State) (q : PortId) (bs : List Byte) : State :=
  if linkField bs 36 36 = 1 then
    match s.ports[q].moving with
    | some (slot, ring, _) => if slot = linkField bs 40 37 then s.onPort q (fun p => p.followMove slot ring) else s
    | none => s
  else s

/-- Accept a sequenced flit (R559). What a flit of channel 4 carries comes as a command of its own (MOVE_ANNOUNCE and the
like), since the spec gives those messages no layout; its buffer is free at once. -/
def State.acceptFlit (s : State) (q : PortId) (ch : Nat) (bs : List Byte) : State :=
  let s1 := ((s.onPort q (fun p => { p with sess := { p.sess with rxSeq := p.sess.rxSeq + 1 } })).onFab (fun f =>
    { f with received := f.received + 1 })).add64 (K.flitsRx q.val) 1
  if ch = 4 then (s1.freeEntry q 4).onFab (fun f => { f with ejected := f.ejected + 1 })
  else s1.onPort q (fun p => { p with sess := { p.sess with rxBuf := p.sess.rxBuf ++ [(ch, flitMsg bs)] } })

/-- FLIT_RECEIVE (R559): accepted when its CHECK is good and its SEQ the expected one, else discarded with a NAK. A
repeated flit, of a SEQ accepted before, is discarded without one. -/
def State.applyFlit (s : State) (q : PortId) (bs : List Byte) : State :=
  if s.ports[q].up = false ∨ s.runs = false then s
  else if checkOk bs = false then (s.bump (K.crcErrors q.val)).putNull q true none
  else
    let ch := linkField bs 34 32
    let d : BitVec 16 := BitVec.ofNat 16 (linkField bs 15 0) - s.ports[q].sess.rxSeq
    let taken := decide (5 ≤ ch) || decide (d = 0)
    let s0 := s.takeHeader q bs taken
    let s1 := if taken then s0.takeMarker q bs else s0
    if 5 ≤ ch then s1.pump
    else
      if d = 0 then (s1.acceptFlit q ch bs).pump
      else if d.toNat < 32768 then s1.pump.putNull q true none
      else s1.pump

/-! Links. -/

/-- TRAIN (R552, R553). -/
def State.applyTrain (s : State) (q : PortId) (m : TrainMsg) : State :=
  if s.ports[q].state ≠ 4 ∨ s.runs = false then s
  else
    match s.trainCause q m with
    | some c => (s.onPort q (fun p => { p with far := m.device.setWidth 16 })).failPort q c
    | none => (s.linkUp q m).pump

/-- TRAINING_TIMEOUT (R552). -/
def State.applyTrainTimeout (s : State) (q : PortId) : State :=
  let p := s.ports[q]
  if p.state = 4 ∧ p.retraining = false ∧ p.since + 4096 ≤ s.tick ∧ s.runs = true then s.failPort q 4 else s

/-- LINK_DOWN (R554). -/
def State.applyLinkDown (s : State) (q : PortId) : State :=
  let p := s.ports[q]
  if p.up ∧ (p.since + 64 ≤ s.tick ∨ 16 ≤ p.sess.naks) ∧ s.runs = true then
    ((s.onPort q (fun p =>
      { p with state := 4, retraining := true, since := s.tick, sess := { p.sess with naks := 0 } })).bump
      (K.retrains q.val)).output (.mgmt q 0 0)
  else s

/-- RETRAIN_LIMIT (R554). -/
def State.applyRetrainLimit (s : State) (q : PortId) : State :=
  let p := s.ports[q]
  if p.state = 4 ∧ p.retraining = true ∧ p.since + s.act K.linkDownLimit ≤ s.tick ∧ s.runs = true then s.failPort q 5
  else s

/-! Messages as commands. -/

/-- Is a message one that reaches this device by the fabric: of type `t`, for this device, from another one of the system? -/
def State.arrives (s : State) (t : Nat) (m : Msg) : Bool :=
  decide (m.type.toNat = t) && decide (m.dest.toNat = s.ownDev) && decide (m.srcDev.toNat ≠ s.ownDev) &&
    s.devOk m.srcDev.toNat && s.storeUp && s.canEject m

/-- A message of type `t` is ejected here (R565): counted as one flit, and performed. -/
def State.applyMsg (s : State) (t : Nat) (m : Msg) (f : State → State) : State :=
  if s.arrives t m then
    (f (s.onFab (fun g => { g with received := g.received + 1, ejected := g.ejected + 1 }))).pump
  else s

/-- An answer reaches this device: in Fault nothing is fetched or retired, and it waits (R137). -/
def State.applyAnswer (s : State) (t : Nat) (m : Msg) (f : State → State) : State :=
  if s.runs then s.applyMsg t m f else s

/-- REMOTE_TIMEOUT (R571). -/
def State.applyRemoteTimeout (s : State) (tag : BitVec 16) : State :=
  match s.reqOf tag with
  | none => s
  | some r =>
    if r.tick + s.act K.remoteTimeout ≤ s.tick ∧ s.runs = true then
      let s1 := (s.closeReq tag).setSgl K.lastRemoteError (remoteErrorWord 7 r.dev r.part)
      (s1.onFab (fun f => { f with late := f.late ++ [tag] })).reqFault r 2 8
    else s

/-- WAIT_REREGISTER (R572): 16 tk after a retry, and every 65,536 tk. -/
def State.applyReregister (s : State) (t : ThreadId) : State :=
  match s.threads[t].wait, s.threadPart t with
  | .conj ref v reg tag tick, some p =>
    if s.isLocal ref.toNat ∨ s.runs = false ∨ s.tick < tick + (if reg then 65536 else 16) then s
    else
      let s1 := s.onThread t (fun h => { h with wait := .conj ref v true tag s.tick })
      s1.sendMsg (s1.mkMsg 0x07 p.val (gaDev ref.toNat) tag.toNat ref.toNat (v.toNat + 2 ^ 32 * t.val) [])
  | _, _ => s

/-! Commands. -/

/-- TRAIN. -/
def execTrain (q : PortId) (m : TrainMsg) (s : State) : Host.Outcome State Fault Refusal :=
  .next (s.applyTrain q m)

/-- TRAINING_TIMEOUT. -/
def execTrainingTimeout (q : PortId) (s : State) : Host.Outcome State Fault Refusal :=
  .next (s.applyTrainTimeout q)

/-- LINK_DOWN. -/
def execLinkDown (q : PortId) (s : State) : Host.Outcome State Fault Refusal :=
  .next (s.applyLinkDown q)

/-- RETRAIN_LIMIT. -/
def execRetrainLimit (q : PortId) (s : State) : Host.Outcome State Fault Refusal :=
  .next (s.applyRetrainLimit q)

/-- FLIT_RECEIVE. -/
def execFlitReceive (q : PortId) (bytes : List Byte) (s : State) : Host.Outcome State Fault Refusal :=
  .next (s.applyFlit q bytes)

/-- REMOTE_READ. -/
def execRemoteRead (m : Msg) (s : State) : Host.Outcome State Fault Refusal :=
  .next (s.applyMsg 0x01 m (fun u => u.doRead m))

/-- REMOTE_WRITE. -/
def execRemoteWrite (m : Msg) (s : State) : Host.Outcome State Fault Refusal :=
  .next (s.applyMsg 0x02 m (fun u => u.doWrite m))

/-- TILE_OPEN. -/
def execTileOpen (m : Msg) (s : State) : Host.Outcome State Fault Refusal :=
  .next (s.applyMsg 0x03 m (fun u => u.doTileOpen m))

/-- TILE_DATA. -/
def execTileData (m : Msg) (s : State) : Host.Outcome State Fault Refusal :=
  .next (s.applyMsg 0x04 m (fun u => u.doTileData m))

/-- ATOMIC. -/
def execAtomic (m : Msg) (s : State) : Host.Outcome State Fault Refusal :=
  .next (s.applyMsg 0x05 m (fun u => u.doAtomic m))

/-- SIGNAL. -/
def execSignal (m : Msg) (s : State) : Host.Outcome State Fault Refusal :=
  .next (s.applyMsg 0x06 m (fun u => u.doSignal m))

/-- WAIT_REG. -/
def execWaitReg (m : Msg) (s : State) : Host.Outcome State Fault Refusal :=
  .next (s.applyMsg 0x07 m (fun u => u.doWaitReg m))

/-- READ_DATA. -/
def execReadData (m : Msg) (s : State) : Host.Outcome State Fault Refusal :=
  .next (s.applyAnswer 0x81 m (fun u => u.doReadData m))

/-- WRITE_ACK. -/
def execWriteAck (m : Msg) (s : State) : Host.Outcome State Fault Refusal :=
  .next (s.applyAnswer 0x82 m (fun u => u.doWriteAck m))

/-- TILE_GRANT. -/
def execTileGrant (m : Msg) (s : State) : Host.Outcome State Fault Refusal :=
  .next (s.applyAnswer 0x83 m (fun u => u.doTileGrant m))

/-- TILE_ACK. -/
def execTileAck (m : Msg) (s : State) : Host.Outcome State Fault Refusal :=
  .next (s.applyAnswer 0x84 m (fun u => u.doTileAck m))

/-- ATOMIC_DATA. -/
def execAtomicData (m : Msg) (s : State) : Host.Outcome State Fault Refusal :=
  .next (s.applyAnswer 0x85 m (fun u => u.doAtomicData m))

/-- WAIT_ANSWER. -/
def execWaitAnswer (m : Msg) (s : State) : Host.Outcome State Fault Refusal :=
  .next (s.applyAnswer 0x87 m (fun u => u.doWaitAnswer m))

/-- ERROR. -/
def execError (m : Msg) (s : State) : Host.Outcome State Fault Refusal :=
  .next (s.applyAnswer 0x8F m (fun u => u.doError m))

/-- REMOTE_TIMEOUT. -/
def execRemoteTimeout (tag : BitVec 16) (s : State) : Host.Outcome State Fault Refusal :=
  .next (s.applyRemoteTimeout tag)

/-- WAIT_REREGISTER. -/
def execWaitReregister (t : ThreadId) (s : State) : Host.Outcome State Fault Refusal :=
  .next (s.applyReregister t)

end Sys2Proof.Machine
end

