-- ==== Sys2Proof/Machine/Mesh.lean ====
section
/-!
DEFINITION. The Filver mesh (chapter 17): bring-up (R604), gain and input steps and when they are due (R587 to R591), the
loading of slots (R593), and the grants of ROTATE tiles (R592).
-/
namespace Sys2Proof.Machine

/-! What may run. -/

/-- Does a pending swap hold the mesh (Table 3-9, R594): does a set object of the mesh differ? -/
def State.meshSwapHolds (s : State) : Bool :=
  decide (s.aon.swapStatus ≠ 0) && s.diffs.any (fun k => decide (0x6800 ≤ k / 256) && decide (k / 256 < 0x6820))

/-- Is the mesh free for a step, a load or a grant: powered, settled, with no tile in it, and not held? -/
def State.meshIdle (s : State) : Bool :=
  s.runs && s.pho.lit && s.mesh.granted.isNone && decide (s.mesh.settle ≤ s.tick) && !s.meshSwapHolds

/-- Does the mesh keep its calibration: has it loaded a slot, and not failed? -/
def State.meshTunes (s : State) : Bool :=
  s.runs && s.pho.lit && decide (2 ≤ s.mesh.state) && decide (s.mesh.state ≠ 7)

/-- The slot that a waiting core's tile names (Table 13-2, SELECT of ROTATE). -/
def State.slotOf (s : State) (c : Nat) : Nat := (s.cores[cid c].active.map (fun v => advSelect v.adv % 8)).getD 0

/-- The waiting cores whose tile names the loaded slot (R592). -/
def State.meshReady (s : State) : List Nat :=
  (s.mesh.waiting.filter (fun w => decide (s.slotOf w.1 = s.mesh.loaded))).map (fun w => w.1)

/-- May tiles be granted in this state (Table 17-4, R586)? -/
def State.meshServes (s : State) : Bool :=
  if s.act K.meshStalePolicy = 1 then decide (s.mesh.state = 4) && s.meshAllFresh
  else decide (s.mesh.state = 3) || decide (s.mesh.state = 4)

/-- Has a step that fell due in tick `t` reached its deadline (Table 17-3)? -/
def State.meshLate (s : State) (t : Nat) : Bool := decide (t + 4096 ≤ s.tick)

/-- Does an overdue step claim the next slot of the mesh (R590)? -/
def State.stepClaims (s : State) : Bool :=
  decide (256 ≤ s.mesh.grants) &&
    ((s.mesh.gainDue && s.meshLate s.mesh.gainFell) || s.mesh.due.any (fun d => s.meshLate d.tick))

/-- Is it the turn of a step: does no tile wait for a grant, does an overdue step claim the slot, or is the step for an
input that is not fresh, under policy 1, not deferred (R590)? -/
def State.stepTurn (s : State) (fresh : Bool) : Bool :=
  !(s.meshServes && !s.meshReady.isEmpty) || s.stepClaims || (decide (s.act K.meshStalePolicy = 1) && !fresh)

/-! Loading a slot. -/

/-- Is a slot valid in the active set? -/
def State.slotOk (s : State) (x : Nat) : Bool := decide (s.act (K.slotValid x) = 1)

/-- Load a slot (R593): every shifter takes its code, and the mesh settles for 64 tk. -/
def State.loadSlot (s : State) (x : Nat) : State :=
  (s.onMesh (fun m => { m with loaded := x, settle := s.tick + 64 })).bump K.slotLoads

/-- SLOT_LOAD (R593): the slot of the oldest waiting tile, when no waiting tile names the loaded one or that tile has
waited SLOT_HOLD tk. -/
def State.applySlotLoad (s : State) (x : Fin 8) : State :=
  match s.mesh.waiting with
  | [] => s
  | w :: _ =>
    if (s.mesh.state = 3 ∨ s.mesh.state = 4) ∧ s.meshIdle = true ∧ s.slotOf w.1 = x.val ∧ x.val ≠ s.mesh.loaded ∧
        (s.meshReady.isEmpty = true ∨ w.2 + s.act K.slotHold ≤ s.tick) then s.loadSlot x.val
    else s

/-- MESH_BRINGUP (R604, steps 1 and 2): the sources are ready and the pilot shows; a slot is loaded, and a gain step is
due. -/
def State.applyBringup (s : State) : State :=
  if s.mesh.state = 1 ∧ s.lightReady = true ∧ s.meshOn = true ∧ s.runs = true then
    let x := if s.slotOk s.mesh.loaded then s.mesh.loaded else ((List.range 8).find? s.slotOk).getD 0
    (s.onMesh (fun m => { m with state := 2, gainDue := true, gainFell := s.tick, gainLate := false, due := [],
                                 dueTick := s.tick })).loadSlot x
  else s

/-! Steps. -/

/-- A step has been taken: counted, at 8 bits, and N grants go by before the next overdue one (R584, R590). -/
def State.stepTaken (s : State) : State :=
  (s.onMesh (fun m => { m with grants := 0, res := 8 })).add64 K.calSteps 1

/-- Where a gain step leads (R604, R605): from the loading to the first round, of one step for each input, and from a source
change back to the state it left. -/
def Mesh.afterGain (m : Mesh) (tick : Nat) : Mesh :=
  if m.state = 2 then
    { m with state := 3, roundTick := tick,
             due := (List.finRange 64).map (fun x => { input := x, tick := tick, late := false }) }
  else if m.state = 6 then { m with state := m.before }
  else m

/-- GAIN_STEP (R587, R589): a due gain step comes before any input step. -/
def State.applyGain (s : State) (mon : Int) : State :=
  if s.mesh.gainDue = false ∨ s.meshTunes = false ∨ s.meshIdle = false ∨ s.stepTurn s.meshAllFresh = false then s
  else
    s.stepTaken.onMesh (fun m =>
      { (m.afterGain s.tick) with gainDue := false, gainLate := false, gainMon := mon })

/-- The offsets that a step adjusts (R588). -/
def patchOffsets (l : List Byte) (o : List (Nat × BitVec 16)) : List Byte :=
  o.foldl (fun l e => patch l (2 * (e.1 % 4096)) (leBytes 2 e.2.toNat)) l

/-- The mesh has failed (R591). -/
def State.meshFails (s : State) (x : Fin 64) : State :=
  (((s.onMesh (fun m => { m with state := 7 })).setSgl K.meshFailedInput x.val).logRec 0x0406 2 noPart x.val 0).maintMesh

/-- The first round is over once every step of it has been taken (R604, step 3). -/
def Mesh.afterStep (m : Mesh) : Mesh :=
  if m.state = 3 ∧ m.due.all (fun d => decide (m.roundTick < d.tick)) = true then { m with state := 4 } else m

/-- An input step has been taken (R587, R588, R591). -/
def State.stepInput (s : State) (x : Fin 64) (r : StepResult) : State :=
  let n := if r.verified then 0 else s.mesh.fails[x] + 1
  let s1 := s.stepTaken.onMesh (fun m =>
    Mesh.afterStep { m with due := m.due.drop 1, stepTick := vset m.stepTick x (some s.tick),
                            stepTemp := vset m.stepTemp x m.temp, fails := vset m.fails x n })
  let s2 := (s1.setDom K.meshOffsets (patchOffsets (s1.dsgl K.meshOffsets) r.offsets)).setSgl K.meshErrorEst r.err.toNat
  if 3 ≤ n then s2.meshFails x else s2

/-- INPUT_STEP: the step that fell due first. -/
def State.applyInputStep (s : State) (r : StepResult) : State :=
  match s.mesh.due with
  | [] => s
  | d :: _ =>
    if s.mesh.gainDue ∨ (s.mesh.state ≠ 3 ∧ s.mesh.state ≠ 4) ∨ s.meshIdle = false ∨
        s.stepTurn (s.meshFresh d.input) = false then s
    else s.stepInput d.input r

/-! When steps fall due (R589). -/

/-- An input step falls due, unless one for that input is due already. -/
def Mesh.addDue (m : Mesh) (tick : Nat) (x : Fin 64) : Mesh :=
  if m.due.any (fun d => decide (d.input = x)) then m
  else { m with due := m.due ++ [{ input := x, tick := tick, late := false }] }

/-- INPUT_STEP_DUE: the next input in turn. -/
def State.applyStepDue (s : State) : State :=
  if s.meshTunes = false ∨ s.mesh.state = 2 ∨ s.tick < s.mesh.dueTick + s.act K.meshCalInterval then s
  else s.onMesh (fun m => { (m.addDue s.tick m.turn) with dueTick := s.tick, turn := m.turn + 1 })

/-- Has the temperature moved by half a step since an input's last step? -/
def State.movedHalf (s : State) (x : Fin 64) : Bool :=
  s.mesh.stepTick[x].isSome && s.meshMoved 1 s.mesh.stepTemp[x]

/-- MESH_TEMP_SAMPLE: every input whose temperature has moved falls due at once. -/
def State.applyMeshTemp (s : State) (temp : W32) : State :=
  if s.meshTunes = false then s
  else
    let s1 := s.onMesh (fun m => { m with temp := temp })
    s1.onMesh (fun m => ((List.finRange 64).filter s1.movedHalf).foldl (fun m x => m.addDue s.tick x) m)

/-- MESH_POWER_SAMPLE: MON_A of the mesh input is read, and a move of 0.25 dB makes a gain step due. -/
def State.applyMeshPower (s : State) (mon : Int) : State :=
  if s.meshTunes = false then s
  else
    let s1 := s.setDom K.monAReading (patch (s.dsgl K.monAReading) 34 (leBytes 2 (BitVec.ofInt 16 mon).toNat))
    if 25 ≤ (mon - s.mesh.gainMon).natAbs ∧ s.mesh.gainDue = false then
      s1.onMesh (fun m => { m with gainDue := true, gainFell := s.tick, gainLate := false })
    else s1

/-- MESH_CAL_OVERDUE (R590): each step that has first become overdue is counted. -/
def State.applyMeshOverdue (s : State) : State :=
  if s.meshTunes = false then s
  else
    let n := (s.mesh.due.filter (fun d => !d.late && s.meshLate d.tick)).length
    let g := s.mesh.gainDue && !s.mesh.gainLate && s.meshLate s.mesh.gainFell
    (s.onMesh (fun m =>
      { m with due := m.due.map (fun d => { d with late := d.late || s.meshLate d.tick }), gainLate := m.gainLate || g })).addSat
      K.meshCalOverdue (n + b2n g)

/-! Grants. -/

/-- The next core in ascending order, wrapping, after the one last served. -/
def nextCore (last : Nat) (l : List Nat) : Option Nat :=
  ((List.range 64).map (fun i => (last + 1 + i) % 64)).find? (fun c => l.contains c)

/-- Grant the mesh to a core's tile (R584, R586, R592). When the resolution changes, its first vector waits out the blanking
interval of the input modulators at dark (R517, R584, Table 15-5). -/
def State.grantMesh (s : State) (c : Nat) : State :=
  let b := (s.cores[cid c].active.map (fun v => meshBits (advParam v.adv))).getD 8
  let fresh := s.meshAllFresh
  let s1 := s.onMesh (fun m =>
    { m with granted := some c, waiting := m.waiting.filter (fun w => w.1 ≠ c), lastCore := c, res := b, fresh := fresh,
             blank := if b = m.res then 0 else 16, grants := m.grants + 1 })
  let s2 := s1.add64 K.meshTiles 1
  if s.meshAllFresh then s2 else s2.bump K.meshStaleTiles

/-- MESH_GRANT. -/
def State.applyMeshGrant (s : State) : State :=
  if s.meshServes = false ∨ s.meshIdle = false ∨ s.stepClaims = true then s
  else
    match nextCore s.mesh.lastCore s.meshReady with
    | some c => s.grantMesh c
    | none => s

/-! Commands. -/

/-- MESH_BRINGUP. -/
def execMeshBringup (s : State) : Host.Outcome State Fault Refusal :=
  .next s.applyBringup

/-- SLOT_LOAD. -/
def execSlotLoad (x : Fin 8) (s : State) : Host.Outcome State Fault Refusal :=
  .next (s.applySlotLoad x)

/-- MESH_GRANT. -/
def execMeshGrant (s : State) : Host.Outcome State Fault Refusal :=
  .next s.applyMeshGrant

/-- INPUT_STEP_DUE. -/
def execInputStepDue (s : State) : Host.Outcome State Fault Refusal :=
  .next s.applyStepDue

/-- MESH_TEMP_SAMPLE. -/
def execMeshTempSample (temp : W32) (s : State) : Host.Outcome State Fault Refusal :=
  .next (s.applyMeshTemp temp)

/-- MESH_POWER_SAMPLE. -/
def execMeshPowerSample (mon : Int) (s : State) : Host.Outcome State Fault Refusal :=
  .next (s.applyMeshPower mon)

/-- INPUT_STEP. -/
def execInputStep (r : StepResult) (s : State) : Host.Outcome State Fault Refusal :=
  .next (s.applyInputStep r)

/-- GAIN_STEP. -/
def execGainStep (mon : Int) (s : State) : Host.Outcome State Fault Refusal :=
  .next (s.applyGain mon)

/-- MESH_CAL_OVERDUE. -/
def execMeshCalOverdue (s : State) : Host.Outcome State Fault Refusal :=
  .next s.applyMeshOverdue

end Sys2Proof.Machine
end

