-- ==== Sys2Proof/Machine/Moods.lean ====
section
/-!
DEFINITION. The mood machine (chapter 4) with rails, monitors and trips (chapter 20): entering moods (R100), wakes (R112),
Brace (R126 to R131), Quiesce (R132 to R134), Fault (R136), resets (R138 to R144), the keep window, spill and fill (R119 to
R123), idleness and linger (R116 to R118) and demands (R113, R114).
-/
namespace Sys2Proof.Machine

/-! Rails (Tables 20-2 and 20-3). -/

/-- The rail enables of a mood: [0] EN_SRAM, [1] EN_CORE, [2] EN_DEEP, [3] EN_PHO, [4] CORE_HEAVY. -/
def moodRails (m : Mood) (light : Bool) : BitVec 5 :=
  match m with
  | .dormant => 0b00101
  | .listen => 0b00111
  | .brisk | .full => if light then 0b11111 else 0b10111
  | _ => 0

/-- Does a wake still bring up the memory of Dormant: did it start in Cold or Hush, and has a first phase still to come
after the running one? -/
def Trans.early (t : Trans) : Bool :=
  (decide (t.start = .cold) || decide (t.start = .hush)) && (decide (t.dest = .dormant) || (t.left.drop 1).contains 1)

/-- The enables to drive (R656): of the mood whose islands are powered, and in a transition of what its phase uses. In the
last step of Quiesce the enables of the mood left stay, with those of the target, and fall once the target is reached
(notes/assumptions/69.md). The deep rails follow the keep ramp (R657). -/
def State.wantRails (s : State) : BitVec 5 :=
  let light := s.wantsLight
  let base := moodRails s.aon.mood.eff s.lightUsed ||| (if s.lastQuiesce then moodRails s.aon.mood.before s.lightUsed else 0)
  match s.aon.mood.trans with
  | none => base
  | some t =>
    if t.early then
      base ||| 0b00011 ||| (if s.aon.railEn.getLsbD 2 || (s.aon.railGood.getLsbD 0 && s.aon.railGood.getLsbD 1) then 0b00100
        else 0)
    else base ||| moodRails t.dest light

/-- The rail of a monitor (Table 20-5): 0 SRAM, 1 CORE, 2 DEEP, 3 PHO; 4 for VDD_IO, which has no enable. -/
def monRail (m : Nat) : Nat := at! 4 [1, 0, 1, 2, 2, 3, 3, 4] m

/-- A monitor whose rail is off (R666). -/
def Mon.off (m : Mon) : Mon := { m with active := false, state := 0, mv := 0, sumMv := 0, samples := 0 }

/-- Drive the enables; a falling one ends its power-good and its monitors' activity (R666). -/
def State.driveRails (s : State) (w : BitVec 5) : State :=
  let old := s.aon.railEn
  s.onAon (fun a =>
    { a with railEn := w, railGood := a.railGood &&& w.setWidth 4,
             railTick := Vector.ofFn (fun r : Fin 4 =>
               if w.getLsbD r.val && !old.getLsbD r.val then s.tick else a.railTick[r]),
             mons := Vector.ofFn (fun m : Fin 8 =>
               if monRail m.val < 4 ∧ w.getLsbD (monRail m.val) = false then a.mons[m].off else a.mons[m]) })

/-- Rails and light follow the mood. -/
def State.syncPower (s : State) : State := (s.driveRails s.wantRails).syncLight

/-! Memory across moods (R101, R102, R119 to R123, R197). -/

/-- Lose the contents of a stretch of the store. -/
def Store.lose (t : Store) (lo hi : Nat) : Store :=
  let out (l : List Nat) : List Nat := l.filter (fun w => decide (w < lo) || decide (hi ≤ w))
  { t with mem := SMap.clear t.mem lo hi, poison := out t.poison, single := out t.single, latent := out t.latent }

/-- A store that has lost its contents. The scrubber goes on from where it stopped (R226). -/
def Store.blank (t : Store) : Store :=
  { Store.reset with scrubNear := t.scrubNear, scrubHeld := t.scrubHeld, scrubDeep := t.scrubDeep }

/-- Copy a stretch of the store with the state of its words (R121, R122). -/
def Store.copy (t : Store) (src dst n : Nat) : Store :=
  let u := t.lose dst (dst + n)
  let cells := t.mem.filter (fun e => decide (src ≤ e.1) && decide (e.1 < src + n))
  let bad := t.poison.filter (fun w => decide (src ≤ w) && decide (w < src + n))
  { u with mem := cells.foldl (fun m e => SMap.put m (e.1 - src + dst) e.2) u.mem,
           poison := bad.foldl (fun l w => insertNat (w - src + dst) l) u.poison }

/-- The stretch of near-tier arrays of the listen island, and of the store island (Table 4-1). -/
def arraysOf (store : Bool) : Nat × Nat := if store then (0x800000, nearSize) else (0x400000, 0x800000)

/-- The part of a spill entry that lies in such arrays: near offset, deep offset and length, when there is any. -/
def State.spillPart (s : State) (e : Fin 8) (store : Bool) : Option (Nat × Nat × Nat) :=
  let near := s.act (K.spillNear e.val)
  let a := arraysOf store
  let lo := max near a.1
  let hi := min (near + s.act (K.spillLength e.val)) a.2
  if s.act (K.spillEnable e.val) = 1 ∧ lo < hi then some (lo, s.act (K.spillDeep e.val) + (lo - near), hi - lo) else none

/-- Is a part of an entry spilled? -/
def spilledPart (x : Bool × Bool) (store : Bool) : Bool := if store then x.2 else x.1
/-- Set it. -/
def setSpilled (x : Bool × Bool) (store v : Bool) : Bool × Bool := if store then (x.1, v) else (v, x.2)

/-- Copy a stretch by background requests, `src` to `dst`: errors that its words hold are found first, and a word that cannot
be corrected arrives poisoned (R121, R122, R223). -/
def State.moveStretch (s : State) (src dst n : Nat) : State :=
  (((s.checkRead src n).onStore (fun t => t.copy src dst n)).countLines .background src n).countLines .background dst n

/-- Spill one part of an entry before its arrays power down (R121). -/
def State.spillOne (s : State) (store : Bool) (e : Fin 8) : State :=
  match s.spillPart e store with
  | none => s
  | some (near, deep, n) =>
    (s.moveStretch near deep n).onStore (fun t =>
      { t with spilled := vmod t.spilled e (fun x => setSpilled x store true) })

/-- Spill the arrays of an island, and lose what they held. -/
def State.spillArrays (s : State) (store : Bool) : State :=
  (s.forEach (List.finRange 8) (fun u e => u.spillOne store e)).onStore (fun t => t.lose (arraysOf store).1 (arraysOf store).2)

/-- Fill one part of an entry whose arrays power up (R122). -/
def State.fillOne (s : State) (store : Bool) (e : Fin 8) : State :=
  if spilledPart s.store.spilled[e] store then
    match s.spillPart e store with
    | none => s.onStore (fun t => { t with spilled := vmod t.spilled e (fun x => setSpilled x store false) })
    | some (near, deep, n) =>
      (s.moveStretch deep near n).onStore (fun t =>
        { t with spilled := vmod t.spilled e (fun x => setSpilled x store false) })
  else s

/-- Zero the arrays of an island and fill what was spilled (R102, R122). -/
def State.fillArrays (s : State) (store : Bool) : State :=
  (s.onStore (fun t => t.lose (arraysOf store).1 (arraysOf store).2)).forEach (List.finRange 8) (fun u e => u.fillOne store e)

/-- Deep channels in or out of self-refresh. -/
def State.setRefresh (s : State) (b : Bool) : State := s.onStore (fun t => { t with selfRefresh := Vector.replicate 16 b })

/-- The keep island powers down (R123, R133, R638): preempted verbs are abandoned with a record each, and the store is
lost. -/
def State.loseKeep (s : State) : State :=
  let s1 := s.forEach (List.finRange 64) (fun u c =>
    match u.cores[c].pre with
    | some v => (u.abandon c v).logRec 0x0224 1 v.part c.val v.ticket
    | none => u)
  s1.onStore (fun t => { t.blank with sigAccepted := t.sigAccepted, sigApplied := t.sigApplied })

/-- The device leaves Cold or Hush (R256, R260, R350). -/
def State.leaveCold (s : State) : State :=
  s.resetAllParts.onStore (fun t => { (t.lose descBase 0xF0500000) with conj := [] })

/-! Entering a mood (R100). -/

/-- What every mood entry does: the codes, the tick, the count, the record and the notification. -/
def State.enterMood (s : State) (m target : Mood) : State :=
  let prev := s.mood
  let s1 := s.onMood (fun d => { d with cur := m, target := target, entryTick := s.tick, lingerCnt := 0 })
  ((s1.bump32 K.moodChangeCount).logRec 0x0011 0 noPart m.code prev.code).notify 1 K.currentMood m.code

/-- A transition starts now (R106). -/
def State.markStart (s : State) : State := s.onMood (fun d => { d with started := some s.tick })

/-- Has a transition started since the last tick boundary? -/
def State.justStarted (s : State) : Bool := s.aon.mood.started.isSome

/-- Brace is over: its register, counts and halved clocks. -/
def MoodSt.unbrace (d : MoodSt) : MoodSt := { d with ret := .off, exitCnt := 0 }

/-! Quiesce (R132 to R134). -/

/-- Enter Quiesce (R100): its first step holds control cores, verbs, BAR2 and doorbells. -/
def State.enterQuiesce (s : State) (target : Mood) : State :=
  let filled := match s.aon.mood.trans with
    | some t => t.waiting && t.left.isEmpty
    | none => false
  let s1 := s.onMood (fun d =>
    { d.unbrace with
      before := match d.trans with
        | some t => if filled then t.dest else d.eff
        | none => d.eff,
      trans := none, phase := 17 })
  (s1.enterMood .quiesce target).markStart.syncPower

/-- Is core `c` powered in a mood of Table 4-2? -/
def Mood.powersCore (m : Mood) (c : Nat) : Bool :=
  decide ((if c = 0 then 4 else if c < 16 then 5 else 6) ≤ m.code)

/-- Cores whose islands the target mood does not power. -/
def gatedBy (target : Mood) : List CoreId := (List.finRange 64).filter (fun c => !target.powersCore c.val)

/-- Ask the verbs of some cores to be preempted (R109). -/
def State.preemptCores (s : State) (l : List CoreId) : State := s.forEach l (fun u c => u.onCore c CoreSt.askPreempt)

/-- Commit the output tiles of a core that go to the own store. -/
def State.flushTiles (s : State) (c : CoreId) : State :=
  s.forEach s.cores[c].wbuf (fun u t => if u.tileLocal t then u.commitOldest c else u)

/-- What the mailbox holds is kept while the host link island is unpowered, with REQ_BUSY set for a response (R694). -/
def Mbox.keep (m : Mbox) : Mbox :=
  { m with restore := m.rspReady || m.ntfReady || !m.waiting.isEmpty, busy := m.busy || m.rspReady || !m.waiting.isEmpty }

/-- Islands power down and the target is entered (step 5). -/
def State.quiesceEnd (s : State) : State :=
  let d := s.aon.mood
  let s1 := if d.target = .hush then s.loseKeep else if d.target = .dormant then s.setRefresh true else s
  let s2 := if d.before = .cold ∨ d.before = .hush then s1.leaveCold else s1
  let s3 := if d.target.code < 4 then s2.onLink (fun l => { l with mbox := l.mbox.keep }) else s2
  ((s3.onMood (fun d => { d with phase := 0, halved := false, before := .cold })).enterMood d.target d.target).syncPower

/-- Spill what the target does not power (step 4). -/
def State.quiesceSpill (s : State) : State :=
  let t := s.aon.mood.target
  let s1 := if 5 ≤ s.lvl ∧ t.code < 5 then s.spillArrays true else s
  if 4 ≤ s.lvl ∧ t.code < 4 then s1.spillArrays false else s1

/-- Does a thread still stand inside a clause that it can go on with (Table 4-6, step 1)? -/
def State.inClause (s : State) (t : ThreadId) : Bool :=
  match s.threadPart t with
  | some p => s.threadGo t p && s.threads[t].midClause
  | none => false

/-- Have the messages of the device drained, in the order of Table 18-4: remote tiles of the cores that power down, messages
that wait for injection, requests to it and its own outstanding ones (Table 4-6, step 3)? -/
def State.drained (s : State) (gated : List CoreId) : Bool :=
  gated.all (fun c => s.cores[c].wbuf.all s.tileLocal) && s.fab.inject.isEmpty && s.fab.service.isEmpty &&
    s.fab.commits.toList.all Option.isNone && s.fab.outstanding.isEmpty

/-- Is step 3 over: the tap idle, and the messages drained or its 16 ticks gone by (Table 4-6)? What has not drained by then is
lost with its links (notes/assumptions/66.md). -/
def State.drainOver (s : State) (gated : List CoreId) : Bool :=
  s.tap.toList.all (fun h => h.bus.isNone) && (s.drained gated || decide (s.aon.mood.drainTick + 16 ≤ s.tick))

/-- QUIESCE_STEP_COMPLETE: the steps of Table 4-6. -/
def State.applyQuiesceStep (s : State) : State :=
  let gated := gatedBy s.aon.mood.target
  let at' (n : Nat) (u : State) : State := u.onMood (fun d => { d with phase := n })
  if s.mood ≠ .quiesce then s
  else if s.aon.mood.phase = 17 then
    (if (List.finRange 80).any s.inClause then s else (at' 18 s).preemptCores gated)
  else if s.aon.mood.phase = 18 then
    (if gated.all (fun c => s.cores[c].active.isNone) then s.onMood (fun d => { d with phase := 19, drainTick := s.tick }) else s)
  else if s.aon.mood.phase = 19 then
    (if s.drainOver gated then (at' 20 ((s.forEach gated State.flushTiles).tapDownAll)).syncPower else s)
  else if s.aon.mood.phase = 20 then at' 21 s.quiesceSpill
  else s.quiesceEnd

/-! Wakes (R112). -/

/-- The phases of Table 4-4 between two moods; 0 stands for the lowering from Full to Brisk. -/
def wakePhases (m d : Mood) : List Nat :=
  let up : List Nat := [1, 2, 4, 5, 6]
  match m with
  | .cold | .hush => [1, 3, 6] ++ (if d = .dormant then [] else up)
  | .dormant => up
  | .listen => [1, 4, 5, 6]
  | .brisk => [1, 4]
  | _ => [0]

/-- Start a wake, or the lowering from Full to Brisk, which preempts verbs on the clusters it gates (R109). -/
def State.startWake (s : State) (d : Mood) : State :=
  let l := wakePhases s.mood d
  let s1 := s.onMood (fun m =>
    { m with trans := some { start := m.cur, dest := d, left := l, tripped := false, waiting := false }, target := d,
             phase := at! 0 l 0 })
  let s2 := if s.mood = .full then s1.preemptCores (gatedBy .brisk) else s1
  s2.markStart.syncPower

/-- Hush entered from Cold or Dormant, within a tick. -/
def State.plainHush (s : State) : State :=
  let s1 := if s.mood = .cold then s.leaveCold else s.loseKeep
  (s1.enterMood .hush .hush).markStart.syncPower

/-- Start the transition of Table 4-3 from the current mood to `d`. -/
def State.startMove (s : State) (d : Mood) : State :=
  let m := s.mood
  if m = d then s
  else if m.code < d.code ∧ d ≠ .hush then s.startWake d
  else if m = .full ∧ d = .brisk then s.startWake d
  else if 4 ≤ m.code then s.enterQuiesce d
  else s.plainHush

/-- The first points after a wake (R181), or those that Brisk allows after a lowering. -/
def State.freshPoints (s : State) (wake : Bool) : State :=
  s.onAon (fun a => { a with clocks := { a.clocks with
    points := if wake then Vector.replicate 8 0 else Vector.ofFn (fun c => min 2 a.clocks.points[c]),
    dip := if wake then Vector.replicate 8 0 else Vector.ofFn (fun c => min 2 a.clocks.dip[c]), dipSurge := false,
    stopped := if wake then Vector.replicate 8 false else a.clocks.stopped,
    idle := if wake then Vector.replicate 8 0 else a.clocks.idle, surge := false } })

/-- A wake or a lowering is complete: its target is entered. -/
def State.arrive (s : State) (t : Trans) : State :=
  let s1 := if t.start = .cold ∨ t.start = .hush then s.leaveCold else s
  let s2 := s1.onMood (fun d => { d with trans := none, phase := 0 })
  let s3 := if t.dest = .dormant then s2.setRefresh true
    else if 5 ≤ t.dest.code then (s2.setRefresh false).freshPoints (decide (t.start ≠ .full)) else s2
  (s3.enterMood t.dest t.dest).syncPower

/-- The next phase of a wake starts: the tap trains in phase 5 of one that powers it (Table 4-4). -/
def State.enterPhase (s : State) (t : Trans) (n : Nat) : State :=
  let s1 := (s.onMood (fun d => { d with trans := some t, phase := n })).syncPower
  if n = 5 ∧ 5 ≤ t.dest.code then s1.tapTrainAll else s1

/-- A wake that a trip ends (R107): to Quiesce, or back to Cold or Hush with its rails off. -/
def State.endWake (s : State) (t : Trans) : State :=
  if t.start = .cold ∨ t.start = .hush then
    let braced := decide (s.mood = .brace)
    let s1 := s.tapDownAll.onMood (fun d => { d.unbrace with trans := none, phase := 0, target := t.start, halved := false })
    let s2 := s1.onStore (fun u => { u.blank with sigAccepted := u.sigAccepted, sigApplied := u.sigApplied })
    (if braced then s2.enterMood t.start t.start else s2).syncPower
  else s.enterQuiesce .dormant

/-- What a phase has done when it completes (Table 4-4). -/
def State.phaseWork (s : State) (t : Trans) : Nat → State
  | 2 => s.setRefresh false
  | 3 => s.onStore (fun u => u.lose deepBase 0x800000000)
  | 6 =>
    if t.early then s.onStore (fun u => u.lose 0 nearSize)
    else
      let s1 := if t.start.code < 4 ∧ 4 ≤ t.dest.code then s.fillArrays false else s
      if t.start.code < 5 ∧ 5 ≤ t.dest.code then s1.fillArrays true else s1
  | _ => s

/-- Are the power-goods that phase 1 waits for present, or, for the lowering, the verbs of the gated clusters preempted? -/
def State.phaseReady (s : State) (t : Trans) : Bool :=
  if s.aon.mood.phase = 1 then
    (s.wantRails == s.aon.railEn) && decide (s.aon.railEn.setWidth 4 &&& 0b0111 &&& ~~~s.aon.railGood = 0) &&
      (!t.early || s.aon.railEn.getLsbD 2)
  else if s.aon.mood.phase = 0 then (gatedBy .brisk).all (fun c => s.cores[c].active.isNone)
  else true

/-- Full to Brisk completes inside Brace (R126). -/
def State.lowerInBrace (s : State) : State :=
  ((s.onMood (fun d => { d with trans := none, before := .brisk })).freshPoints false).syncPower

/-- WAKE_PHASE_COMPLETE (R107, R112, R128). -/
def State.applyPhase (s : State) : State :=
  match s.aon.mood.trans with
  | none => s
  | some t =>
    if t.waiting ∨ s.phaseReady t = false then s
    else
      let s1 := s.phaseWork t s.aon.mood.phase
      let rest := t.left.drop 1
      let set (u : State) (x : Trans) (n : Nat) : State := u.onMood (fun d => { d with trans := some x, phase := n })
      if t.start = .full ∧ s.mood = .brace then s1.lowerInBrace
      else if t.tripped then
        (if rest.isEmpty then set s1 { t with left := [], waiting := true } 0 else s1).endWake t
      else if s.mood = .brace then set s1 { t with left := rest, waiting := true } 0
      else
        match rest with
        | [] => s1.arrive t
        | n :: _ => s1.enterPhase { t with left := rest } n

/-! Brace (R126 to R130). -/

/-- Is a wake in progress? -/
def State.waking (s : State) : Bool := s.aon.mood.trans.any (fun t => decide (t.start ≠ .full))

/-- Enter Brace (R126). -/
def State.enterBrace (s : State) : State :=
  let ret := match s.aon.mood.trans with | some t => t.dest | none => s.mood
  let s0 := s.onAon (fun a => { a with clocks := { a.clocks with dip := a.clocks.points, dipSurge := a.clocks.surge } })
  let s1 := (s0.onMood (fun d => { d with before := d.eff, ret := ret, halved := true, exitCnt := 0 })).bump32 K.braceCount
  (s1.enterMood .brace .brace).markStart

/-- A supply warning acts (R126, R129, R131): `fresh` in the first tick of its episode. -/
def State.warnAct (s : State) (m : MonId) (fresh : Bool) : State :=
  let s1 := if fresh then s.bump (K.warningCount m.val) else s
  match s.mood with
  | .off => s
  | .quiesce => s1.onMood (fun d => { d with halved := true })
  | .brace => s1.onMood (fun d => { d with exitCnt := 0 })
  | .listen | .brisk | .full => s1.enterBrace
  | _ => if s.waking then s1.enterBrace else if fresh then s1.logRec 0x0013 1 noPart m.val 0 else s1

/-- SUPPLY_WARNING: on an active monitor (R666). -/
def State.applyWarning (s : State) (m : MonId) : State :=
  if s.aon.mons[m].active then
    (s.onAon (fun a => { a with mons := vmod a.mons m (fun x => { x with state := 2 }) })).warnAct m
      (decide (s.aon.mons[m].state < 2))
  else s

/-- BRACE_EXIT (R129): the mood before the dip is entered again, or the paused wake goes on. The count takes in the tick
that the timer armed in and this one, 64 ticks later. -/
def State.applyBraceExit (s : State) : State :=
  let d := s.aon.mood
  if s.mood ≠ .brace ∨ d.exitCnt < 65 then s
  else
    let s0 := s.onMood (fun d => { d.unbrace with halved := false })
    let s1 := s0.onAon (fun a => { a with clocks := { a.clocks with points := a.clocks.dip, surge := a.clocks.dipSurge } })
    match d.trans with
    | none => ((s1.enterMood d.ret d.ret).markStart).syncPower
    | some t =>
      let s2 := (s1.enterMood t.start t.dest).markStart
      if t.waiting then
        (match t.left with
         | [] => s2.arrive t
         | n :: _ => s2.enterPhase { t with waiting := false } n)
      else s2

/-- BRACE_LIMIT (R130). -/
def State.applyBraceLimit (s : State) : State :=
  if s.mood ≠ .brace ∨ s.tick < s.aon.mood.entryTick + 4096 then s else s.enterQuiesce .dormant

/-! Thermal trip (R107, R135, R674). -/

/-- What a sampled trip does to the mood. -/
def State.tripAct (s : State) : State :=
  match s.aon.mood.trans with
  | some t =>
    if t.start = .full then (if s.justStarted then s else s.enterQuiesce .dormant)
    else if t.waiting ∧ s.justStarted = false then s.endWake t
    else s.onMood (fun d => { d with trans := some { t with tripped := true } })
  | none =>
    match s.mood with
    | .listen | .brisk | .full | .brace => if s.justStarted then s else s.enterQuiesce .dormant
    | _ => s

/-- THERMAL_TRIP: THERMTRIP_N is L while TRIP_ACTIVE is 1. -/
def State.applyTrip (s : State) (n : SensorId) : State :=
  if s.mood = .off then s
  else
    (if s.aon.thermal.tripActive then s
     else ((s.onAon (fun a => { a with thermal := { a.thermal with tripActive := true } })).bump K.tripCount).logRec 0x0014 2
       noPart n.val 0).tripAct

/-- THERMAL_TRIP_CLEAR (R674): every sensor has stood 5 °C below its trip level for 1,024 ticks. The count takes in the tick
that it started in and this one. -/
def State.applyTripClear (s : State) : State :=
  if s.mood = .off ∨ s.aon.thermal.cool < 1025 then s
  else s.onAon (fun a => { a with thermal := { a.thermal with tripActive := false } })

/-! Resets (R139 to R144, R256, R555, R611, R612). -/

/-- The core domain as its reset leaves it: partitions, cores, the store, the tap, the fabric, light and the host link
(Table 4-7, R65, R140, R323, R694). The ledger settles what was open. -/
def State.wipeCore (s : State) : State :=
  let s1 := s.takeVector.resetAllParts
  let s2 := s1.onStore Store.blank
  let s3 := { s2 with tap := Vector.ofFn (fun h => { TapCh.reset with linkM := s2.tap[h].linkM }) }
  let s4 := s3.onLink (fun l =>
    { l with mbox := { Mbox.reset with req := l.mbox.req, rsp := l.mbox.rsp, ntf := l.mbox.ntf }, bar2 := [],
             doorbells := Vector.replicate 96 0 })
  let s5 := s4.onAon (fun a =>
    { a with clocks := Clocks.reset,
             held := a.held.filter (fun e => match e with | .doorbell .. => false | _ => true) })
  let s6 := (s5.onMood (fun d =>
    { d.unbrace with trans := none, phase := 0, halved := false, before := .cold, heldItems := [], wakeHeld := false,
                     wiped := true })).lightOff
  { s6 with fab := Fabric.reset, mesh := s6.mesh.dark }

/-- A core-domain reset to Hush (Table 4-7). In Hush it enters no mood and starts no transition (notes/assumptions/46.md). -/
def State.toHush (s : State) (cause : Nat) : State :=
  let s1 := ((s.wipeCore).setSgl K.lastResetCause cause).logRec 0x0012 1 noPart cause 0
  (if s.mood = .hush then s1.onMood (fun d => { d with target := .hush }) else (s1.enterMood .hush .hush).markStart).syncPower

/-- A supply reset level, or a power-good treated as one (R139, R659): in a transition out of Cold it abandons the
transition. -/
def State.supplyReset (s : State) (m : MonId) : State :=
  if s.mood = .off then s
  else
    let s1 := s.bump (K.resetCount m.val)
    if s.mood = .cold ∨ s.aon.mood.trans.any (fun t => decide (t.start = .cold)) = true then
      match s1.aon.mood.trans with
      | none => s1
      | some t => s1.endWake t
    else s1.toHush 1

/-- SUPPLY_RESET_LEVEL: on an active monitor (R666). -/
def State.applySupplyReset (s : State) (m : MonId) : State :=
  if s.aon.mons[m].active then
    (s.onAon (fun a => { a with mons := vmod a.mons m (fun x => { x with state := 3 }) })).supplyReset m
  else s

/-- The number of a rail, and the monitor that its power-good stands for (R659). -/
def railOf : RailEn → Fin 4
  | .sram => 0 | .core => 1 | .deep => 2 | .pho => 3
/-- See `railOf`. -/
def railMon : RailEn → MonId
  | .sram => 1 | .core => 0 | .deep => 3 | .pho => 5

/-- The bound of Table 20-3 on a power-good. -/
def State.pgBound (s : State) (r : Fin 4) : Nat :=
  if r = 0 then 12 else if r = 1 then (if s.aon.railEn.getLsbD 4 then 496 else 12) else if r = 2 then 240 else 1000

/-- POWER_GOOD_TIMEOUT (R659). -/
def State.applyPgTimeout (s : State) (r : Fin 4) (m : MonId) : State :=
  if s.aon.railEn.getLsbD r.val ∧ s.aon.railGood.getLsbD r.val = false ∧ s.aon.railTick[r] + 2 * s.pgBound r ≤ s.tick then
    s.supplyReset m
  else s

/-- POWER_GOOD_FALL (R659). -/
def State.applyPgFall (s : State) (r : Fin 4) (m : MonId) : State :=
  if s.aon.railEn.getLsbD r.val ∧ s.aon.railGood.getLsbD r.val then
    (s.onAon (fun a => { a with railGood := a.railGood &&& ~~~(1#4 <<< r.val) })).supplyReset m
  else s

/-- RST_N (R139, R141, R671), sampled asserted: while it stays so the reset holds in Hush, without a further one. In Cold it
has no effect; it acts once a wake from there has reached another mood. -/
def State.applyRstN (s : State) : State :=
  let s1 := s.onMood (fun d => { d with rstAsserted := true })
  if s.mood = .off then s
  else if s.mood = .cold ∨ (s.mood = .hush ∧ s.aon.mood.rstAsserted ∧ s.inTransition = false) then s1
  else s1.toHush 2

/-- RST_N_RELEASE (R141). -/
def State.applyRstRelease (s : State) : State := s.onMood (fun d => { d with rstAsserted := false })

/-- RESET_COMMAND 1: not from Cold (Table 4-3). -/
def State.resetCore (s : State) : State := if s.mood = .off ∨ s.mood = .cold then s else s.toHush 3

/-- Objects whose values RESET_COMMAND 2 keeps (R142), and those that report the mesh's stored calibration (R606). -/
def keptKey (k : Nat) : Bool :=
  (decide (key 0x1100 1 ≤ k) && decide (k ≤ key 0x1100 4)) || (decide (key 0x7800 1 ≤ k) && decide (k ≤ key 0x7800 3)) ||
    (List.range 16).any (fun p => decide (k = K.partFaults p)) || decide (k = K.meshOffsets)

/-- A dictionary of defaults that keeps the objects of R142. -/
def Dict.reload (d : Dict) : Dict :=
  { Dict.reset with sgl := d.sgl.filter (fun e => keptKey e.1), dsgl := d.dsgl.filter (fun e => keptKey e.1) }

/-- The defaults that differ by build and strap (R49, R56, Tables 3-11 and 5-7). -/
def State.loadBuild (s : State) : State :=
  let s1 := s.setSgl K.t1sNodeId (s.aon.node.toNat + 1)
  if s.sled then
    (((s1.setSgl (key 0x1010 4) 1).setSgl (key 0x1020 3) 0).setAct (key 0x2420 12) 1).setShd (key 0x2420 12) 1
  else s1

/-- RESET_COMMAND 2 (R142): defaults, a ledger of zeros, Cold. The spec does not say what becomes of the notifications that are
queued: the model discards them and sets no FLAGS [0] for it (notes/assumptions/48.md). -/
def State.resetConfig (s : State) : State :=
  if s.mood = .off then s
  else
    let s1 := s.wipeCore
    let s2 := ({ s1 with
      dict := s1.dict.reload, ledger := Ledger.reset,
      pho := { Photonics.reset with req := s1.pho.req, queue := s1.pho.queue, txn := s1.pho.txn },
      ports := s1.ports.map (fun (p : Port) => { p with far := 0xFFFF, fault := 0 }),
      mesh := { s1.mesh with loaded := 0 },
      threads := Vector.replicate 80 Thread.reset,
      cores := Vector.ofFn (fun c => CoreSt.reset (BitVec.ofNat 32 (c.val + 1))) }).loadBuild
    let s3 := s2.onAon (fun a =>
      { a with mons := Vector.ofFn Mon.reset, thermal := { Thermal.reset with tripActive := a.thermal.tripActive, cool := a.thermal.cool },
               low := Vector.replicate 17 false, above := Vector.replicate 16 false, stale := true, auditExpected := 0,
               auditFound := 0, swapStatus := 0, swapTick := 0, swapAsked := 0 })
    let s4 := s3.onLink (fun l =>
      { l with notifyQ := [], notifySeq := 0, notifyLost := false, i3c := { l.i3c with dyn := 0, cut := none } })
    let s5 := s4.onMood (fun d => { d with configured := false, heldReq := none })
    ((((s5.setSgl K.lastResetCause 4).logRec 0x0012 1 noPart 4 0).enterMood .cold .cold).markStart).syncPower

/-- ALWAYS_ON_POWER_ON (R49, R56, R144): from Off. The spec does not say whether entering Cold here counts as a mood entry:
the model counts none in MOOD_CHANGE_COUNT and writes no record 0x0011 (notes/assumptions/62.md). -/
def State.applyPowerOn (s : State) (node : BitVec 3) (sled : Bool) : State :=
  if s.mood ≠ .off then s
  else
    let u := (State.powerOn node sled).loadBuild
    { u with pending := s.pending, freeCtr := s.freeCtr, link := { u.link with out := s.link.out } }

/-- ALWAYS_ON_LOSS (R661): everything is lost, and every enable falls. -/
def State.applyPowerLoss (s : State) : State :=
  let u := State.powerOn s.aon.node s.aon.sled
  { u with pending := s.pending, freeCtr := s.freeCtr, link := { u.link with out := s.link.out },
           aon := { u.aon with mood := { MoodSt.reset with cur := .off, target := .off } } }

/-! Fault (R136, R614). -/

/-- Enter Fault: the broken identities, what is known of the lowest, and a record. -/
def State.enterFault (s : State) (mask code detail : Nat) (expected found : Int) : State :=
  if s.mood = .off ∨ s.mood = .fault then s
  else
    let s1 := (s.onMood (fun d => { d.unbrace with before := d.eff, trans := none, phase := 0 })).tapDownAll
    let s2 := (s1.setSgl K.brokenIdentity mask).setSgl K.auditDetail detail
    let s3 := (s2.onAon (fun a => { a with auditExpected := expected, auditFound := found })).enterMood .fault .fault
    s3.markStart.logRec (0x0100 + code) 3 noPart detail (w64 found).toNat

/-- ENTER_FAULT: an uncorrectable error in protected state (R614, Table 18-2, CAUSE 1). -/
def State.applyEnterFault (s : State) (id : Fin 8) (inst sub : Byte) : State :=
  s.enterFault (2 ^ id.val) (id.val + 1) (id.val + 1 + 2 ^ 8 * inst.toNat + 2 ^ 16 * sub.toNat + 2 ^ 24) 0 0

/-! Requests for a mood (R108, R110). -/

/-- Is a MOOD_REQUEST answered MOOD whatever it asks? It is in a tick in which another transition has started, also one that
is complete by then (notes/assumptions/47.md). -/
def State.moodBusy (s : State) : Bool :=
  match s.mood with
  | .off | .brace | .quiesce | .fault => true
  | .cold => s.inTransition || !s.aon.mood.configured || s.aon.mood.rstAsserted
  | _ => s.inTransition || s.justStarted || s.aon.mood.rstAsserted

/-- Would a request for mood `v` be accepted (R108)? -/
def State.moodOk (s : State) (v : Nat) : Bool :=
  decide (s.act K.moodFloor ≤ v) && decide (v ≤ s.act K.moodCeiling) && !s.moodBusy &&
    !(decide (s.mood.code < v) && s.aon.thermal.tripActive)

/-- Act on the floor and ceiling at a swap (R110): now, or held. -/
def State.followBounds (s : State) : State :=
  let m := s.aon.mood.eff.code
  let s0 := s.onMood (fun d => { d with heldReq := none })
  let go (v : Nat) : State :=
    if s.moodOk v then s0.startMove (Mood.ofCode v) else s0.onMood (fun d => { d with heldReq := some (Mood.ofCode v) })
  if s.act K.moodCeiling < m then go (s.act K.moodCeiling)
  else if m < s.act K.moodFloor then go (s.act K.moodFloor)
  else s0

/-- FLOOR_CEILING_REQUEST (R110): a held request, in the first tick that accepts it. -/
def State.applyBounds (s : State) : State :=
  match s.aon.mood.heldReq with
  | none => s
  | some v =>
    if s.moodBusy then s
    else if s.act K.moodFloor ≤ s.mood.code ∧ s.mood.code ≤ s.act K.moodCeiling then
      s.onMood (fun d => { d with heldReq := none })
    else if s.moodOk v.code then (s.onMood (fun d => { d with heldReq := none })).startMove v
    else s

/-! The wake pin (R105, R134, R135, R141). -/

/-- WAKE_N: an assertion is sampled. -/
def State.applyWakeN (s : State) : State :=
  let s1 := s.onMood (fun d => { d with wakeAsserted := true })
  let w := s.act K.wakeTarget
  match s.mood with
  | .off => s
  | .quiesce => s1.onMood (fun d => { d with wakeHeld := true })
  | .hush | .dormant | .listen =>
    if s.inTransition ∨ s.justStarted ∨ s.aon.mood.rstAsserted ∨ s.aon.thermal.tripActive ∨ w ≤ s.mood.code then s1
    else s1.startMove (Mood.ofCode w)
  | _ => s1

/-! Idleness and linger (R116 to R118). -/

/-- Does a thread wait on an empty ring, or serve no partition, or a partition in state 3, 4 or 5 (R624), or stand in an
island that is not powered? -/
def State.threadIdle (s : State) (t : ThreadId) : Bool :=
  !s.threadUp t || decide (s.threadState t = 2) ||
    (match s.threadPart t with
     | some p => [3, 4, 5].contains (s.partState p)
     | none => true)

/-- Is a message in flight to or from the device? -/
def State.fabricBusy (s : State) : Bool :=
  !s.fab.outstanding.isEmpty || !s.fab.inject.isEmpty || !s.fab.service.isEmpty ||
    s.fab.commits.toList.any Option.isSome || s.ports.toList.any (fun p => !p.sess.rxBuf.isEmpty || !p.sess.retry.isEmpty)

/-- Is the device idle (R116)? A core in energy wait is not, also where a preempted verb waits for its top-up (R160, R168). -/
def State.idleNow (s : State) : Bool :=
  (List.finRange 80).all s.threadIdle &&
    (List.finRange 64).all (fun c => s.cores[c].queue.isEmpty && s.cores[c].active.isNone && s.cores[c].retiring.isEmpty &&
      !s.cores[c].pre.any (fun v => v.topWait)) &&
    s.tap.toList.all (fun h => h.bus.isNone) && !s.fabricBusy && s.link.bar2.isEmpty && !s.inTransition &&
    (!s.aon.mood.wakeAsserted || decide (s.mood.code ≤ s.act K.wakeTarget))

/-- One step down (R118). -/
def lingerStep : Mood → Option Mood
  | .brisk | .full => some .listen
  | .listen => some .dormant
  | .dormant => some .hush
  | _ => none

/-- IDLE_LINGER (R117, R118). -/
def State.applyLinger (s : State) : State :=
  match lingerStep s.mood with
  | none => s
  | some d =>
    if s.aon.mood.lingerCnt < s.act K.linger ∨ s.idleNow = false ∨ s.justStarted ∨ d.code < s.act K.moodFloor ∨
        (s.aon.mood.wakeAsserted ∧ d.code < s.act K.wakeTarget) then s
    else s.startMove d

/-! Demands (Table 4-5). -/

/-- The mood that powers a core, or a control core. -/
def coreMood (c : Nat) : Mood := if c < 16 then .brisk else .full
/-- See `coreMood`. -/
def ctlMood (k : Nat) : Mood := if k < 4 then .brisk else .full

/-- Does an engine queue hold a verb? -/
def CoreSt.hasVerb (c : CoreSt) : Bool := c.queue.any (fun e => match e with | .verb _ => true | .stream _ => false)

/-- Does a BAR2 access reach near-tier arrays of the store island? -/
def HeldBar2.high : HeldBar2 → Bool
  | .read off n => decide (tierOf off = .near) && decide (0x800000 < off + n)
  | .write off d => decide (tierOf off = .near) && decide (0x800000 < off + d.length)
  | .atomic _ w off _ _ => decide (tierOf off = .near) && decide (0x800000 < off + w / 8)

/-- The demand of a doorbell that is held. -/
def State.bellDemand (s : State) : Event → Option (Nat × Mood)
  | .doorbell r _ =>
    match s.doorbellPart r with
    | some p =>
      let k := s.act (K.controlCore p.val)
      if k < 16 ∧ s.ctlUp k = false then some (100 + r.val, ctlMood k) else none
    | none => none
  | _ => none

/-- Does an output tile in the write buffer of core `c` go to arrays that are not live? -/
def State.tileWaits (s : State) (c : CoreId) : Bool :=
  s.cores[c].wbuf.any (fun t => s.tileLocal t && t.bytes.any (fun b => decide (tierOf (gaOff b.addr.toNat) = .near) &&
    !s.live (gaOff b.addr.toNat)))

/-- Does the chain of core `c` need an array, or the mesh, that Listen does not power? -/
def State.chainNeeds (s : State) (c : CoreId) : Bool :=
  (match s.tryTile c with
   | .power => true
   | _ => false) || s.tileWaits c

/-- The conditions of Table 4-5 that hold, each with a number of its own and the mood it raises to. -/
def State.demands (s : State) : List (Nat × Mood) :=
  let cores := (List.finRange 64).flatMap (fun c =>
    if s.coreUp c.val then []
    else s.cores[c].queue.filterMap (fun e =>
      match e with
      | .verb v => some (1000 + 64 * v.ticket + c.val, coreMood c.val)
      | .stream _ => none))
  let bells := s.aon.held.filterMap s.bellDemand
  let low := decide (s.mood = .listen)
  cores ++ bells ++ (if low && s.aon.mood.tapWake then [(200, .brisk)] else []) ++
    (if low && s.chainNeeds 0 then [(201, .brisk)] else []) ++
    (if low && s.link.bar2.any (fun e => e.1.high) then [(202, .brisk)] else [])

/-- Count the demands above MOOD_CEILING that have not been counted yet (R114): a BAR2 access each, the others by number. -/
def State.countHeld (s : State) (l : List (Nat × Mood)) : State :=
  let above := (l.filter (fun e => decide (s.act K.moodCeiling < e.2.code))).map (fun e => e.1)
  let bars := if above.contains 202 then (s.link.bar2.filter (fun e => e.1.high && !e.2)).length else 0
  let fresh := above.filter (fun k => decide (k ≠ 202) && !s.aon.mood.heldItems.contains k)
  let s1 := s.addSat K.demandHeld (fresh.length + bars)
  let s2 := s1.onMood (fun d => { d with heldItems := above.filter (fun k => k ≠ 202) })
  if bars = 0 then s2 else s2.onLink (fun k => { k with bar2 := k.bar2.map (fun e => (e.1, e.2 || e.1.high)) })

/-- Evaluate the demands after the events of a tick (R106, R113, R114): the highest mood named, within the ceiling. -/
def State.evalDemands (s : State) : State :=
  if (s.mood = .listen ∨ s.mood = .brisk) ∧ s.inTransition = false ∧ s.justStarted = false then
    let l := s.demands
    let s1 := s.countHeld l
    let ok := l.filter (fun e => decide (e.2.code ≤ s.act K.moodCeiling) && decide (s.mood.code < e.2.code))
    if s.aon.thermal.tripActive then s1
    else if ok.any (fun e => decide (e.2 = .full)) then s1.startMove .full
    else if ok.isEmpty then s1
    else s1.startMove .brisk
  else s

/-- TAP_WAKE (R479). -/
def State.applyTapWake (s : State) : State := (s.onMood (fun d => { d with tapWake := true })).evalDemands

/-! Clocks (R27 to R32, R115). -/

/-- Has a cluster a verb queued or running? -/
def State.clusterWork (s : State) (k : ClusterId) : Bool :=
  (List.finRange 64).any (fun c => decide (c.val / 8 = k.val) &&
    (s.cores[c].hasVerb || s.cores[c].active.isSome || !s.cores[c].retiring.isEmpty))

/-- CLUSTER_CLOCK_STOP (R115). -/
def State.applyClusterStop (s : State) (k : ClusterId) : State :=
  if s.runs = false ∨ s.clusterUp k.val = false ∨ s.clusterWork k ∨ s.aon.clocks.idle[k] < 64 then s
  else s.onAon (fun a => { a with clocks := { a.clocks with stopped := vset a.clocks.stopped k true } })

/-- TICK_LOCK (R27): tick 0. -/
def State.applyTickLock (s : State) : State :=
  if s.mood = .off ∨ s.aon.lock ≠ 1 then s else (s.onAon (fun a => { a with lock := 0 })).logRec 0x0010 0 noPart 0 0

/-- HOLDOVER_ENTRY (R31). -/
def State.applyHoldover (s : State) : State :=
  if s.mood = .off ∨ s.aon.lock ≠ 0 then s
  else ((s.onAon (fun a => { a with lock := 2, relocking := false })).bump K.crystalLossCount).logRec 0x0001 1 noPart 0 0

/-- CRYSTAL_EDGES_RETURN (R32): relocking begins. -/
def State.applyEdges (s : State) : State :=
  if s.aon.lock = 2 then s.onAon (fun a => { a with relocking := true }) else s

/-- TICK_RELOCK (R32). -/
def State.applyRelock (s : State) : State :=
  if s.aon.lock = 2 ∧ s.aon.relocking then
    (s.onAon (fun a => { a with lock := 0, relocking := false })).logRec 0x0002 0 noPart 0 0
  else s

/-! Commands. -/

/-- TICK_LOCK. -/
def execTickLock (s : State) : Host.Outcome State Fault Refusal :=
  .next s.applyTickLock

/-- HOLDOVER_ENTRY. -/
def execHoldoverEntry (s : State) : Host.Outcome State Fault Refusal :=
  .next s.applyHoldover

/-- TICK_RELOCK. -/
def execTickRelock (s : State) : Host.Outcome State Fault Refusal :=
  .next s.applyRelock

/-- CRYSTAL_EDGES_RETURN. -/
def execCrystalEdgesReturn (s : State) : Host.Outcome State Fault Refusal :=
  .next s.applyEdges

/-- ALWAYS_ON_POWER_ON. -/
def execAlwaysOnPowerOn (node : BitVec 3) (sled : Bool) (s : State) : Host.Outcome State Fault Refusal :=
  .next (s.applyPowerOn node sled)

/-- ALWAYS_ON_LOSS. -/
def execAlwaysOnLoss (s : State) : Host.Outcome State Fault Refusal :=
  .next s.applyPowerLoss

/-- SUPPLY_WARNING. -/
def execSupplyWarning (m : MonId) (s : State) : Host.Outcome State Fault Refusal :=
  .next (s.applyWarning m)

/-- SUPPLY_RESET_LEVEL. -/
def execSupplyResetLevel (m : MonId) (s : State) : Host.Outcome State Fault Refusal :=
  .next (s.applySupplyReset m)

/-- POWER_GOOD_TIMEOUT. -/
def execPowerGoodTimeout (r : RailEn) (s : State) : Host.Outcome State Fault Refusal :=
  .next (s.applyPgTimeout (railOf r) (railMon r))

/-- POWER_GOOD_FALL. -/
def execPowerGoodFall (r : RailEn) (s : State) : Host.Outcome State Fault Refusal :=
  .next (s.applyPgFall (railOf r) (railMon r))

/-- THERMAL_TRIP. -/
def execThermalTrip (n : SensorId) (s : State) : Host.Outcome State Fault Refusal :=
  .next (s.applyTrip n)

/-- THERMAL_TRIP_CLEAR. -/
def execThermalTripClear (s : State) : Host.Outcome State Fault Refusal :=
  .next s.applyTripClear

/-- RST_N. -/
def execRstN (s : State) : Host.Outcome State Fault Refusal :=
  .next s.applyRstN

/-- RST_N_RELEASE. -/
def execRstNRelease (s : State) : Host.Outcome State Fault Refusal :=
  .next s.applyRstRelease

/-- WAKE_N. -/
def execWakeN (s : State) : Host.Outcome State Fault Refusal :=
  .next s.applyWakeN

/-- ENTER_FAULT. -/
def execEnterFault (id : Fin 8) (inst sub : Byte) (s : State) : Host.Outcome State Fault Refusal :=
  .next (s.applyEnterFault id inst sub)

/-- FLOOR_CEILING_REQUEST. -/
def execFloorCeilingRequest (s : State) : Host.Outcome State Fault Refusal :=
  .next s.applyBounds

/-- WAKE_PHASE_COMPLETE. -/
def execWakePhaseComplete (s : State) : Host.Outcome State Fault Refusal :=
  .next s.applyPhase

/-- CLUSTER_CLOCK_STOP. -/
def execClusterClockStop (k : ClusterId) (s : State) : Host.Outcome State Fault Refusal :=
  .next (s.applyClusterStop k)

/-- IDLE_LINGER. -/
def execIdleLinger (s : State) : Host.Outcome State Fault Refusal :=
  .next s.applyLinger

/-- QUIESCE_STEP_COMPLETE. -/
def execQuiesceStepComplete (s : State) : Host.Outcome State Fault Refusal :=
  .next s.applyQuiesceStep

/-- BRACE_EXIT. -/
def execBraceExit (s : State) : Host.Outcome State Fault Refusal :=
  .next s.applyBraceExit

/-- BRACE_LIMIT. -/
def execBraceLimit (s : State) : Host.Outcome State Fault Refusal :=
  .next s.applyBraceLimit

/-- TAP_WAKE. -/
def execTapWake (s : State) : Host.Outcome State Fault Refusal :=
  .next s.applyTapWake

end Sys2Proof.Machine
end

