-- ==== Sys2Proof/Machine/Swap.lean ====
section
/-!
DEFINITION. The swap of the two configuration sets (R92 to R98): validation of the shadow set (Table 21-14), when every
affected unit is ready (Table 3-9), its taking effect with what other chapters hang on it (R110, R248, R249, R323, R421,
R575, R593, R601), the forced form, and the revert.
-/
namespace Sys2Proof.Machine

/-! Validation (R92, R688). -/

/-- The machine as if the shadow set were active: each rule of Table 21-14 is a question about it. -/
def State.shadowView (s : State) : State := s.onDict (fun d => { d with act := d.shd, dact := d.dshd })

/-- A list of one name when a rule fails. -/
def failIf (b : Bool) (k : Nat) : List Nat := if b then [k] else []

/-- Is a number a multiple of 65,536? -/
def grain (n : Nat) : Bool := decide (n % 65536 = 0)

/-- Do the stretches of `n` and `m` bytes from `a` and `b` meet? -/
def meets (a n b m : Nat) : Bool := decide (a < b + m) && decide (b < a + n)

/-- The floor and the wake target within the ceiling. -/
def State.badMoods (v : State) : List Nat :=
  failIf (decide (v.act K.moodCeiling < v.act K.moodFloor)) K.moodFloor ++
    failIf (decide (v.act K.moodCeiling < v.act K.wakeTarget)) K.wakeTarget

/-- Does spill entry `e` break R120? -/
def State.badSpill (v : State) (e : Nat) : Bool :=
  let near := v.act (K.spillNear e)
  let len := v.act (K.spillLength e)
  let deep := v.act (K.spillDeep e)
  let clash (x : Nat) : Bool :=
    decide (x ≠ e) && decide (v.act (K.spillEnable x) = 1) &&
      (meets near len (v.act (K.spillNear x)) (v.act (K.spillLength x)) ||
        meets deep len (v.act (K.spillDeep x)) (v.act (K.spillLength x)))
  decide (v.act (K.spillEnable e) = 1) &&
    (!grain near || decide (near < 0x400000) || !grain len || decide (len = 0) || decide (nearSize < near + len) ||
      !grain deep || decide (deep < deepBase) || decide (0x800000000 < deep + len) || (List.range 8).any clash)

/-- Does the shadow set change an entry that is spilled (R125)? -/
def State.badSpilled (s v : State) (e : Fin 8) : Bool :=
  (s.store.spilled[e].1 || s.store.spilled[e].2) &&
    [K.spillEnable e.val, K.spillNear e.val, K.spillLength e.val, K.spillDeep e.val].any (fun k => decide (s.act k ≠ v.act k))

/-- The binary32 pattern of a set object. -/
def State.actF (v : State) (k : Nat) : W32 := BitVec.ofNat 32 (v.act k)

/-- Is an exact value below another? -/
def Val.below (a b : Val) : Bool := match a.cmp b with | some d => decide (d < 0) | none => true

/-- The thermal parameters (R174): what the failure names. -/
def State.badThermal (v : State) : List Nat :=
  let lim := v.actF K.thermalLimit
  let low (a b : Nat) : Bool := Val.below ((fval (v.actF a)).mul (fval (v.actF b))) (fval 0x3E000000)
  if flt lim 0x42700000 || flt 0x42D20000 lim then [K.thermalLimit]
  else match [K.thetaJn, K.capJ, K.thetaNa, K.capN].find? (fun k => !flt 0 (v.actF k)) with
    | some k => [k]
    | none => failIf (low K.thetaJn K.capJ) K.thetaJn ++ failIf (low K.thetaNa K.capN) K.thetaNa

/-- TRIP_LEVEL at least 5 °C above THERMAL_LIMIT (R675). -/
def State.badTrip (v : State) : List Nat :=
  failIf (Val.below (fval (v.actF K.tripLevel)) ((fval (v.actF K.thermalLimit)).add (Val.ofInt 5))) K.tripLevel

/-- Partitions enabled in the shadow set; the others are not validated (R247). -/
def State.liveParts (v : State) : List Nat := (List.range 16).filter v.enabled

/-- A window in use: its partition, its place, base, length and rights. -/
structure Window where
  part : Nat
  place : Nat
  base : Nat
  len : Nat
  rights : Nat
  deriving DecidableEq, Repr

/-- The windows in use. -/
def State.windows (v : State) : List Window :=
  v.liveParts.flatMap (fun p => (List.range 8).filterMap (fun j =>
    if v.act (K.windowLength p j) = 0 then none
    else some { part := p, place := j, base := v.act (K.windowBase p j), len := v.act (K.windowLength p j),
                rights := v.act (K.windowRights p j) }))

/-- Does a stretch lie wholly in the near or the deep tier? -/
def inTier (off n : Nat) : Bool :=
  decide (off + n ≤ nearSize) || (decide (deepBase ≤ off) && decide (off + n ≤ 0x800000000))

/-- Does a window break R189? -/
def State.badWindow (v : State) (ws : List Window) (w : Window) : Bool :=
  let clash (x : Window) : Bool :=
    meets w.base w.len x.base x.len &&
      (if x.part = w.part then decide (x.place ≠ w.place)
       else decide (gaDev w.base = v.ownDev) && (decide (2 ≤ w.rights % 8) || decide (2 ≤ x.rights % 8)))
  !grain (gaOff w.base) || !grain w.len || decide (gaRsv w.base ≠ 0) || !inTier (gaOff w.base) w.len ||
    (!v.sled && decide (gaDev w.base ≠ 0)) || ws.any clash

/-- R189. -/
def State.badWindows (v : State) : List Nat :=
  let ws := v.windows
  (ws.filter (v.badWindow ws)).map (fun w => K.windowBase w.part w.place)

/-- R244: the higher of two partitions that share a core or a control core. -/
def State.badShared (v : State) : List Nat :=
  v.liveParts.flatMap (fun q => (v.liveParts.filter (fun p => decide (p < q))).flatMap (fun p =>
    failIf ((List.range 64).any (fun c => bit (v.coreMask p) c && bit (v.coreMask q) c)) (K.coreMask q) ++
      failIf (decide (v.act (K.controlCore p) < 16) && decide (v.act (K.controlCore p) = v.act (K.controlCore q)))
        (K.controlCore q)))

/-- R245: the minimum reservations of a partition. -/
def State.badMinimum (v : State) (p : Nat) : List Nat :=
  failIf (decide (v.coreMask p = 0)) (K.coreMask p) ++
    failIf (!v.auto p && decide (16 ≤ v.act (K.controlCore p))) (K.controlCore p) ++
    failIf (!(List.range 8).any (fun j => decide (v.act (K.windowLength p j) ≠ 0) && decide (v.act (K.windowRights p j) % 4 = 3)))
      (K.windowBase p 0) ++
    failIf (!(v.dact K.conjOwner).any (fun b => decide (b.toNat = p))) K.conjOwner ++
    failIf (decide (v.act (K.complEnable p) ≠ 1)) (K.complEnable p) ++
    (if v.auto p then
      match (List.range 64).find? (fun c => bit (v.coreMask p) c && decide (v.act (K.ringEnable c) ≠ 1)) with
      | some c => [K.ringEnable c]
      | none => []
    else failIf (decide (v.act (K.feedEnable p) ≠ 1)) (K.feedEnable p))

/-- R246: core 0 and control core 0 together. -/
def State.badListen (v : State) : List Nat :=
  match v.corePart 0, v.ctlPart 0 with
  | none, none => []
  | some p, q => failIf (decide (q ≠ some p)) (K.coreMask p.val)
  | none, some q => [K.controlCore q.val]

/-- An enabled ring: the object of its base, its base, its size in entries, the bytes of an entry, and the bounds of its
size. -/
structure RingSpec where
  name : Nat
  base : Nat
  size : Nat
  unit : Nat
  lo : Nat
  hi : Nat
  deriving DecidableEq, Repr

/-- Bytes of a ring. -/
def RingSpec.bytes (r : RingSpec) : Nat := r.size * r.unit

/-- Every enabled ring: the feed and completion rings of the enabled partitions, and every clause ring whose RING_ENABLE is
1. R247 exempts the rings of a disabled partition; a clause ring is a core's, and counts as enabled here as it does for the
write guards, whether or not its core belongs to an enabled partition (notes/assumptions/59.md). -/
def State.ringSpecs (v : State) : List RingSpec :=
  v.liveParts.flatMap (fun p =>
    (if v.act (K.feedEnable p) = 1 then
      [{ name := K.feedBase p, base := v.act (K.feedBase p), size := v.act (K.feedWords p), unit := 8, lo := 512, hi := 131072 }]
    else []) ++
    (if v.act (K.complEnable p) = 1 then
      [{ name := K.complBase p, base := v.act (K.complBase p), size := v.act (K.complEntries p), unit := 32, lo := 64,
         hi := 65536 }]
    else [])) ++
  ((List.range 64).filter (fun c => decide (v.act (K.ringEnable c) = 1))).map (fun c =>
    { name := K.ringBase c, base := v.act (K.ringBase c), size := v.act (K.ringWords c), unit := 8, lo := 512, hi := 131072 })

/-- Does a ring break R322? -/
def State.badRing (v : State) (rs : List RingSpec) (r : RingSpec) : Bool :=
  decide (r.size < r.lo) || decide (r.hi < r.size) || !(List.range 32).any (fun e => decide (r.size = 2 ^ e)) ||
    decide (gaDev r.base ≠ v.ownDev) || decide (gaRsv r.base ≠ 0) || decide (gaOff r.base % r.bytes ≠ 0) ||
    !inTier (gaOff r.base) r.bytes ||
    rs.any (fun x => decide (x.name ≠ r.name) && meets (gaOff r.base) r.bytes (gaOff x.base) x.bytes)

/-- R322. -/
def State.badRings (v : State) : List Nat :=
  let rs := v.ringSpecs
  (rs.filter (v.badRing rs)).map RingSpec.name

/-- Does a share entry break R349, its block being owned by `owner`? -/
def State.badShare (v : State) (owner sh : Nat) : Bool :=
  decide (bits sh 31 17 ≠ 0) ||
    (bit sh 16 && ((!v.sled && decide (bits sh 11 0 ≠ 0)) ||
      (decide (bits sh 11 0 = v.ownDev) && decide (bits sh 15 12 = owner))))

/-- Does the share entry of any of the next `n` blocks break R349, given their owners and entries? -/
def State.badShares (v : State) : Nat → List Byte → List Byte → Bool
  | 0, _, _ => false
  | n + 1, owners, shares =>
    v.badShare (at! 0xFF owners 0).toNat (ofLe (shares.take 4)) || v.badShares n (owners.drop 1) (shares.drop 4)

/-- R349. -/
def State.badConj (v : State) : List Nat :=
  let owners := v.dact K.conjOwner
  failIf (owners.any (fun b => decide (16 ≤ b.toNat) && decide (b.toNat ≠ 0xFF))) K.conjOwner ++
    failIf (v.badShares 512 owners (v.dact K.conjShare)) K.conjShare

/-- R505. -/
def State.badTap (v : State) : List Nat :=
  (List.range 4).flatMap (fun h =>
    failIf (decide (v.act (K.tapEnable h) = 1) && !([1, 2, 3, 0x10].contains (v.act (K.tapFormat h)))) (K.tapFormat h))

/-- R514. -/
def State.badLaser (v : State) : List Nat :=
  failIf (v.lightUsed && decide (v.act K.laserMac = 0)) K.laserMac ++
    failIf (decide (7 < v.act K.laserGroup)) K.laserGroup ++
    failIf (decide (v.act K.marginFloor ≤ v.act K.fadeThreshold)) K.fadeThreshold

/-- The size of dimension `d` (0 to 2). -/
def State.dimSize (v : State) (d : Nat) : Nat := v.act (at! K.fabricSizeX [K.fabricSizeX, K.fabricSizeY, K.fabricSizeZ] d)

/-- The ports that a system of these sizes has (R550). -/
def State.wantPort (v : State) (q : Nat) : Bool :=
  if q < 6 then decide (2 ≤ v.dimSize (q / 2)) else decide (v.act K.expressDim ≠ 0)

/-- R550. -/
def State.badFabric (v : State) : List Nat :=
  let dev := v.ownDev
  let e := v.act K.expressDim
  let on (q : Nat) : Bool := decide (v.act (K.portEnable q) = 1)
  failIf ((List.range 3).any (fun d => decide (v.dimSize d ≤ bits dev (4 * d + 3) (4 * d)))) K.deviceNumber ++
    failIf (!v.sled && decide (dev ≠ 0)) K.deviceNumber ++
    failIf (v.anyPort && decide (v.act K.moodFloor < 5)) K.moodFloor ++
    (if v.anyPort then
      match (List.range 8).find? (fun q => on q != v.wantPort q) with
      | some q => [K.portEnable q]
      | none => []
    else []) ++
    failIf (decide (0 < e) && (decide (v.dimSize (e - 1) % 2 = 1) || decide (v.dimSize (e - 1) < 4))) K.expressDim

/-- R579 and R580. -/
def State.badMesh (v : State) : List Nat :=
  (List.range 8).flatMap (fun x =>
    failIf (decide (v.act (K.slotValid x) = 1) && ((v.dact (K.slotCodes x)).drop 4040).any (fun b => decide (b ≠ 0)))
      (K.slotCodes x)) ++
    failIf (v.meshOn && !(List.range 8).any (fun x => decide (v.act (K.slotValid x) = 1))) K.meshEnable

/-- Does the mesh log region of partition `p` break R602? -/
def State.badLog (v : State) (rs : List RingSpec) (p : Nat) : Bool :=
  let base := v.act (K.meshLogBase p)
  let len := v.act (K.meshLogLength p)
  let other (x : Nat) : Bool :=
    decide (x ≠ p) && decide (v.act (K.meshLogMode x) ≠ 0) &&
      meets (gaOff base) len (gaOff (v.act (K.meshLogBase x))) (v.act (K.meshLogLength x))
  decide (v.act (K.meshLogMode p) ≠ 0) &&
    (!grain (gaOff base) || decide (len = 0) || !grain len || decide (gaDev base ≠ v.ownDev) || decide (gaRsv base ≠ 0) ||
      !inTier (gaOff base) len || v.liveParts.any other || rs.any (fun r => meets (gaOff base) len (gaOff r.base) r.bytes))

/-- R602. -/
def State.badLogs (v : State) : List Nat :=
  let rs := v.ringSpecs
  (v.liveParts.filter (v.badLog rs)).map K.meshLogBase

/-- R653. -/
def State.badWatch (v : State) : List Nat :=
  (List.range 16).flatMap (fun t =>
    let w := v.act (K.telWatch t)
    let ok : Bool := match objRow (bits w 23 8) (bits w 7 0) with
      | some r => (match r.ty with
        | .bool | .f32 | .domain _ => false
        | _ => true)
      | none => false
    failIf (decide (v.act (K.telArmed t) = 1) && !ok) (K.telWatch t))

/-- Every object that a failing rule of Table 21-14 names. -/
def State.badObjects (s : State) : List Nat :=
  let v := s.shadowView
  v.badMoods ++ (List.range 8).flatMap (fun e => failIf (v.badSpill e) (K.spillEnable e)) ++
    (List.finRange 8).flatMap (fun e => failIf (s.badSpilled v e) (K.spillEnable e.val)) ++ v.badThermal ++ v.badTrip ++
    v.badWindows ++ v.badShared ++ v.liveParts.flatMap v.badMinimum ++ v.badListen ++ v.badRings ++ v.badConj ++ v.badTap ++
    v.badLaser ++ v.badFabric ++ v.badMesh ++ v.badLogs ++ v.badWatch

/-- The lowest object that a failing rule names (R688); none when validation passes. -/
def State.swapFaultKey (s : State) : Option Nat :=
  match s.badObjects with
  | [] => none
  | k :: l => some (l.foldl min k)

/-- SWAP_REQUEST, past the checks before it in Table 3-6: the status of the answer (R92, R93). -/
def State.applySwapRequest (s : State) : Nat × State :=
  match s.swapFaultKey with
  | some k => (0x0E, s.setSgl K.swapFaultObject k)
  | none => (0, s.onAon (fun a => { a with swapStatus := 1, swapAsked := s.tick }))

/-! Readiness (Table 3-9, R98, R594). -/

/-- Is partition `p` ready: its cores between verbs and its threads between clauses? A partition that resets is, and a verb
whose completion entry alone is missing has left its core (R331). -/
def State.partReady (s : State) (p : Nat) : Bool :=
  decide ((s.parts[pid p]).state = 6) ||
    ((s.coresOf p).all (fun c => s.cores[c].active.isNone && s.cores[c].retiring.all (fun v => v.waits6)) &&
      (s.threadsOf p).all (fun t => !s.threads[t].unsettled))

/-- Is every unit that the swap affects ready? Moves and calibration steps of a port are complete in the command that makes
them, and waiting for the laser module is no step. -/
def State.swapReady (s : State) : Bool :=
  decide (s.mood = .cold) || decide (s.mood = .hush) || decide (s.mood = .dormant) ||
    ((List.range 16).all (fun p => !s.affects p || s.partReady p) &&
      (!s.meshSwapHolds || s.mesh.granted.isNone) &&
      (List.finRange 4).all (fun h => !s.tapSwapHeld h || s.tap[h].bus.isNone))

/-! Taking effect (R94). -/

/-- The swap concerns partition `p`, enabled before it, so that it is reset (R248, R641). -/
def State.swapResets (s v : State) (p : Nat) : Bool :=
  s.enabled p && (!v.enabled p || [K.controlCore p, K.programMode p, K.replayEnable p].any (fun k => decide (s.act k ≠ v.act k)))

/-- Is core `c` one of partition `p`'s? -/
def State.hasCore (s : State) (p : Nat) (c : CoreId) : Bool := s.enabled p && bit (s.coreMask p) c.val

/-- What is done on the set that goes: resets, and cores that are removed (R248, R249). The effects of Table 7-3 are made on
the composition that goes; a partition that stays enabled then shows state 6 until its reset completes (R253). -/
def State.swapLeave (s v : State) : State :=
  s.forEach (List.finRange 16) (fun u p =>
    if s.enabled p.val = false then u
    else if v.enabled p.val = false then (u.resetEffects p).bump32 (K.partResetCount p.val)
    else
      let u1 := u.removeCores p ((s.coresOf p.val).filter (fun c => !v.hasCore p.val c))
      if s.swapResets v p.val then (u1.resetEffects p).beginReset p else u1)

/-- The two sets are exchanged, and the new active set copied into the shadow set. -/
def State.exchange (s : State) : State := s.onDict (fun d => { d with act := d.shd, dact := d.dshd })

/-- A core starts in a partition: its generator loaded, its ring and its thread at their start (R323, R421). -/
def State.joinCore (s : State) (c : CoreId) : State :=
  ((s.seedCore c).zeroRing (tid c.val)).onThread (tid c.val) (fun h =>
    { h with run := 0, fetchq := [], cl := ClauseSt.reset, wait := .none, holding := false, flush := 0,
             pend := Vector.replicate 16 0 })

/-- Is a completion ring in use? -/
def State.complOn (s : State) (p : Nat) : Bool := s.enabled p && decide (s.act (K.complEnable p) = 1)

/-- What is done on the set that comes, `o` being the machine before: partitions start or stop, cores join, and rings that
the swap enables start from zero (R323, R421, Table 7-2). -/
def State.swapEnter (s o : State) : State :=
  let s1 := s.forEach (List.finRange 16) (fun u p =>
    if u.enabled p.val && !o.enabled p.val then u.onPart p (fun q => { Part.reset with state := 1, deadlineSeen := q.deadlineSeen })
    else if o.enabled p.val && !u.enabled p.val then u.onPart p (fun q => { Part.reset with deadlineSeen := q.deadlineSeen })
    else u)
  let s2 := s1.forEach (List.finRange 64) (fun u c =>
    if (List.range 16).any (fun p => u.hasCore p c && !o.hasCore p c) then u.joinCore c
    else if u.act (K.lfsrSeed c.val) ≠ o.act (K.lfsrSeed c.val) then u.seedCore c
    else u)
  let s3 := s2.forEach (List.finRange 80) (fun u r => if u.ringOn r && !o.ringOn r then u.zeroRing r else u)
  s3.forEach (List.finRange 16) (fun u p => if u.complOn p.val && !o.complOn p.val then u.zeroCompl p else u)

/-- Did the swap change a set object of an index? -/
def changedIdx (l : List Nat) (i : Nat) : Bool := l.any (fun k => decide (k / 256 = i))

/-- Mesh log cursors start again where the log or the cores changed (R601). -/
def State.swapLogs (s : State) (l : List Nat) : State :=
  s.forEach (List.finRange 16) (fun u p =>
    if changedIdx l (0x6810 + p.val) || l.contains (K.coreMask p.val) then
      (u.forEach (u.coresOf p.val) (fun x c => x.onCore c (fun k => { k with meshCursor := 0 }))).clearMeshCounts p
    else u)

/-- The loaded slot is loaded again when its codes changed (R593). -/
def State.swapSlot (s : State) (l : List Nat) : State :=
  if l.contains (K.slotCodes s.mesh.loaded) && s.meshTunes then s.loadSlot s.mesh.loaded else s

/-- A telemetry entry that changed has not been below its new level yet (R652). -/
def State.swapWatch (s : State) (l : List Nat) : State :=
  s.onAon (fun a => { a with above := Vector.ofFn (fun t => changedIdx l (0x8800 + t.val) || a.above[t]) })

/-- The swap takes effect. -/
def State.takeSwap (s : State) : State :=
  let l := s.diffs
  let v := s.shadowView
  let forced := decide (s.aon.swapStatus = 2)
  let s1 := ((s.swapLeave v).exchange).swapEnter s
  let s2 := (((s1.onAon (fun a => { a with swapStatus := 0, swapTick := s.tick })).bump32 K.swapCount).swapLogs l).swapWatch l
  let s3 := if forced then s2.bump32 K.swapForcedCount else s2
  let s4 := s3.notify 2 K.swapCount (s3.sgl K.swapCount)
  let s5 := ((s4.tapAfterSwap).syncPower).swapSlot l
  (s5.onMood (fun d => { d with configured := true })).followBounds

/-- SWAP_TAKES_EFFECT: at a tick boundary after that of the request, with every affected unit ready; not in Fault. -/
def State.applySwapEffect (s : State) : State :=
  if s.aon.swapStatus = 0 ∨ s.inFault ∨ s.mood = .off ∨ s.tick ≤ s.aon.swapAsked ∨ s.swapReady = false then s
  else s.takeSwap

/-- SWAP_FORCE (R95): in the deadline tick; the deadline does not run in Fault. -/
def State.applySwapForce (s : State) : State :=
  if s.aon.swapStatus ≠ 1 ∨ s.inFault ∨ s.tick < s.aon.swapAsked + s.sgl K.swapDeadline then s
  else
    let s1 := (s.onAon (fun a => { a with swapStatus := 2 })).logRec 0x0030 1 noPart (s.sgl K.swapCount) 0
    s1.forEach ((List.finRange 16).filter (fun p => s.affects p.val)) State.preemptAll

/-- SHADOW_REVERT: the active set copied into the shadow set. -/
def State.revertShadow (s : State) : State := s.onDict (fun d => { d with shd := d.act, dshd := d.dact })

/-! Commands. -/

/-- SWAP_TAKES_EFFECT. -/
def execSwapTakesEffect (s : State) : Host.Outcome State Fault Refusal :=
  .next s.applySwapEffect

/-- SWAP_FORCE. -/
def execSwapForce (s : State) : Host.Outcome State Fault Refusal :=
  .next s.applySwapForce

end Sys2Proof.Machine
end

