-- ==== Sys2Proof/Machine/Planner.lean ====
section
/-!
DEFINITION. The battery feed (R169 to R171), the thermal model (R172, R173), deadlines (R178) and the planner (R175 to
R182): the base charge, automatic grants, and the choice of clock points.
-/
namespace Sys2Proof.Machine

/-! The battery feed. -/

/-- Is the feed stale (R169)? -/
def State.feedStale (s : State) : Bool :=
  decide (s.sgl K.batteryTick + 2097152 < s.tick) ||
    [K.batterySoc, K.packVoltage, K.packResistance, K.packMaxCurrent].any (fun k => decide (s.sgl k = 0))

/-- BATTERY_STALE follows the feed: a record when it becomes stale. -/
def State.syncFeed (s : State) : State :=
  if s.feedStale = s.aon.stale then s
  else
    let s1 := s.onAon (fun a => { a with stale := s.feedStale })
    if s.feedStale then s1.logRec 0x0021 1 noPart (s.sgl K.batteryTick) 0 else s1

/-- A battery object of 0x2420, sub 1 to 4, is written (R169). -/
def State.applyBattery (s : State) (k v : Nat) : State := ((s.setSgl k v).setSgl K.batteryTick s.tick).syncFeed

/-- The power cap and the step limit, in mW (R170, R171). -/
def State.powerLimits (s : State) : Rat × Option Rat :=
  if s.act K.powerSource = 1 then (s.act K.fixedPowerCap, none)
  else if s.feedStale then (s.act K.stalePowerCap, none)
  else
    let v : Rat := s.sgl K.packVoltage
    let eta : Rat := s.act K.conversionEfficiency
    ((s.sgl K.packMaxCurrent : Rat) * s.act K.packShare * v * eta / 1000000000,
     some ((s.act K.sagMargin : Rat) * v * eta / s.sgl K.packResistance))

/-! The thermal model. -/

/-- The exact value of a finite binary32 pattern; 0 for the others, which no object of the model holds (R47). -/
def ratOf (x : W32) : Rat :=
  match fval x with
  | .fin neg m e =>
    let r : Rat := if 0 ≤ e then (m : Rat) * (2 : Rat) ^ e.toNat else (m : Rat) / (2 : Rat) ^ (-e).toNat
    if neg then -r else r
  | _ => 0

/-- A number as binary32. The spec does not say with what precision the model computes, so the direction of its rounding
is free (notes/assumptions/34.md). -/
def State.ratWord (s : State) (q : Rat) : W32 :=
  let v := (Val.ofInt q.num).div (Val.ofInt q.den)
  BitVec.ofNat 32 (fp32.encode (if (Config.freeWord s.freeCtr 0).getLsbD 0 then 3 else 4) 0 false v).1

/-- The parameters of the model. -/
structure ThermalPars where
  thJn : Rat
  capJ : Rat
  thNa : Rat
  capN : Rat
  ambient : Rat
  deriving DecidableEq, Repr

/-- The parameters in force. -/
def State.thermalPars (s : State) : ThermalPars :=
  { thJn := ratOf (s.actF K.thetaJn), capJ := ratOf (s.actF K.capJ), thNa := ratOf (s.actF K.thetaNa),
    capN := ratOf (s.actF K.capN), ambient := ratOf (BitVec.ofNat 32 (s.sgl K.ambient)) }

/-- The step of Tn over `dt` seconds: the second equation of the model. -/
def ThermalPars.stepN (k : ThermalPars) (dt tj tn : Rat) : Rat :=
  tn + dt * ((tj - tn) / k.thJn - (tn - k.ambient) / k.thNa) / k.capN

/-- The step of Tj at power `p` watts: the first equation. -/
def ThermalPars.stepJ (k : ThermalPars) (dt p tj tn : Rat) : Rat := tj + dt * (p - (tj - tn) / k.thJn) / k.capJ

/-- The highest Tj over `n` steps of 65,536 tk (R173), `peak` the highest so far. -/
def ThermalPars.peak (k : ThermalPars) (p : Rat) : Nat → Rat → Rat → Option Rat → Option Rat
  | 0, _, _, m => m
  | n + 1, tj, tn, m =>
    let a := k.stepJ (1 / 16) p tj tn
    let b := k.stepN (1 / 16) tj tn
    k.peak p n a b (some (match m with | some x => if x < a then a else x | none => a))

/-- The peak of R173 at a device power in mW. -/
def State.peakAt (s : State) (mw : Rat) : Rat :=
  ((s.thermalPars).peak (mw / 1000) 16 (ratOf s.aon.thermal.junction) (ratOf s.aon.thermal.tn) none).getD 0

/-- Is the island of a thermal sensor powered (Table 20-8)? -/
def State.sensorUp (s : State) (n : Fin 12) : Bool :=
  if n.val < 8 then s.clusterUp n.val
  else if n = 8 then s.storeUp
  else if n = 10 then s.pho.lit
  else decide (3 ≤ s.lvl)

/-- Sample the sensors (R673); those of unpowered islands hold their last values (R690). -/
def State.sense (s : State) (ts : List W32) : State :=
  s.onAon (fun a => { a with thermal := { a.thermal with
    sensors := Vector.ofFn (fun n : Fin 12 =>
      match ts[n.val]? with
      | some t => if s.sensorUp n then t else a.thermal.sensors[n]
      | none => a.thermal.sensors[n]) } })

/-- The thermal state of a planner tick (R172). -/
def State.thermalTick (s : State) : State :=
  let ts := s.aon.thermal.sensors.toList.take 11
  let tj := ts.foldl (fun m t => if flt m t then t else m) (at! 0 ts 0)
  let tn := (s.thermalPars).stepN (1 / 1024) (ratOf tj) (ratOf s.aon.thermal.tn)
  (s.onAon (fun a => { a with thermal := { a.thermal with junction := tj, tn := s.ratWord tn } })).tickFree

/-! Deadlines (R178). -/

/-- The cycles of the period, counted against the deadlines and in TEL_PART_CYCLES. -/
def State.countCycles (s : State) (m : Meters) : State :=
  s.forEach (List.finRange 16) (fun u p =>
    let n := at! 0 m.partCycles p.val
    (u.setSgl (K.deadlineCycles p.val) (u.sgl (K.deadlineCycles p.val) - n)).add64 (K.telPartCycles p.val) n)

/-- A write of DEADLINE_TICK. One that has passed when it is written never counts as missed (notes/assumptions/49.md). -/
def State.setDeadline (s : State) (p : PartId) (v : Nat) : State :=
  (s.setSgl (K.deadlineTick p.val) v).onPart p (fun q => { q with deadlineSeen := decide (v ≤ s.tick) })

/-- A deadline tick that passes with cycles left is missed, once. -/
def State.missDeadlines (s : State) : State :=
  s.forEach (List.finRange 16) (fun u p =>
    let d := u.sgl (K.deadlineTick p.val)
    if d = 0 ∨ u.tick < d ∨ u.parts[p].deadlineSeen then u
    else
      let u1 := u.onPart p (fun q => { q with deadlineSeen := true })
      if u.sgl (K.deadlineCycles p.val) = 0 then u1 else u1.bump (K.deadlineMissed p.val))

/-! Points. -/

/-- The cores of a cluster. -/
def clusterCores (k : ClusterId) : List CoreId := (List.finRange 64).filter (fun c => decide (c.val / 8 = k.val))

/-- Is a core in energy wait, and runs nothing? -/
def CoreSt.waitsEnergy (c : CoreSt) : Bool :=
  c.active.isNone && (c.pre.any (fun v => v.topWait) ||
    c.queue.any (fun e => match e with | .verb v => decide (v.stage = .energyWait) | .stream _ => false))

/-- Has a core a verb queued or running? -/
def CoreSt.hasWork (c : CoreSt) : Bool := c.hasVerb || c.active.isSome || !c.retiring.isEmpty

/-- Do the cores of a cluster with work all wait for energy, or are there none (Table 5-4, first row)? -/
def State.clusterRests (s : State) (k : ClusterId) : Bool :=
  ((clusterCores k).filter (fun c => s.cores[c].hasWork)).all (fun c => s.cores[c].waitsEnergy)

/-- The partitions with cores in a cluster. -/
def State.clusterParts (s : State) (k : ClusterId) : List Nat :=
  (List.range 16).filter (fun p => s.enabled p && (clusterCores k).any (fun c => bit (s.coreMask p) c.val))

/-- The lowest point whose clock is at least `f` Hz; 5 when none is. -/
def pointFor (f : Rat) : Nat := ((List.range 6).find? (fun n => decide (f ≤ (pointClock n * 1000000 : Nat)))).getD 5

/-- The wanted point of a cluster (Table 5-4). -/
def State.wantedPoint (s : State) (k : ClusterId) : Nat :=
  let ds := ((s.clusterParts k).map (fun p => (s.sgl (K.deadlineTick p), s.sgl (K.deadlineCycles p)))).filter
    (fun d => decide (d.1 ≠ 0) && decide (0 < d.2))
  let declared := ds.filter (fun d => decide (s.tick < d.1))
  if s.clusterRests k then 0
  else if ds.any (fun d => decide (d.1 ≤ s.tick)) then 5
  else if declared.isEmpty then s.act K.defaultPoint
  else declared.foldl (fun m d => max m (pointFor ((d.2 : Rat) * 1048576 / ((d.1 - s.tick : Nat) : Rat)))) 0

/-- The highest point within CLUSTER_CLOCK_CAP. -/
def State.capPoint (s : State) (k : ClusterId) : Nat :=
  (List.range 6).foldl (fun m n => if pointClock n ≤ s.act (K.clusterClockCap k.val) then n else m) 0

/-- May Surge be granted (R154, R171, R177)? -/
def State.surgeOk (s : State) : Bool :=
  decide (s.mood = .full) && decide (0 ≤ s.ledger.pool) && decide (sext 64 (s.act K.surgePoolMin) ≤ s.ledger.pool) &&
    (decide (s.act K.powerSource = 1) || (!s.feedStale && decide (s.act K.surgeMinSoc ≤ s.sgl K.batterySoc)))

/-- Was the clock of a cluster stopped for the whole period? -/
def State.stoppedPeriod (s : State) (k : ClusterId) : Bool :=
  s.aon.clocks.stopped[k] && decide (1088 ≤ s.aon.clocks.idle[k])

/-- The predicted power of a cluster at a point, in mW (R176; notes/assumptions/35.md). -/
def State.clusterPower (s : State) (m : Meters) (k : ClusterId) (n : Nat) : Rat :=
  let f : Rat := (pointClock n * pointScale n : Nat)
  if s.stoppedPeriod k then 4750 * f / ((1600 * 256 : Nat) : Rat)
  else
    let now := s.aon.clocks.points[k]
    ((at! 0 m.clusterMw k.val : Nat) : Rat) * f / ((pointClock now * pointScale now : Nat) : Rat)

/-- A candidate: a point for each cluster. -/
abbrev Points := Vector Nat 8

/-- Its predicted power (R176). -/
def State.candidatePower (s : State) (m : Meters) (w : Points) : Rat :=
  (List.finRange 8).foldl (fun t k => t + (if s.clusterUp k.val then s.clusterPower m k w[k] else 0)) (m.baseMw : Rat)

/-- The metered power of the last period, in mW. -/
def meteredMw (m : Meters) : Nat := m.baseMw + (m.clusterMw.take 8).sum

/-- What a candidate does not fit: bits 0 to 2 of PLANNER_LIMIT_CAUSE. -/
def State.misfit (s : State) (m : Meters) (w : Points) : Nat :=
  let p := s.candidatePower m w
  let lim := s.powerLimits
  let above : Bool := match lim.2 with
    | some d => decide (d < p - (meteredMw m : Rat))
    | none => false
  b2n (decide (ratOf (s.actF K.thermalLimit) < s.peakAt p)) + 2 * b2n above + 4 * b2n (decide (lim.1 < p))

/-- Lower the highest point by one; of equal ones that of the highest cluster. -/
def lowerOne (w : Points) : Points :=
  let top := w.toList.foldl max 0
  match (List.finRange 8).reverse.find? (fun k => decide (w[k] = top)) with
  | some k => vmod w k (fun n => n - 1)
  | none => w

/-- Lower points until the candidate fits or all are 0, with the causes met. -/
def State.fitPoints (s : State) (m : Meters) : Nat → Points → Nat → Points × Nat
  | 0, w, causes => (w, causes)
  | n + 1, w, causes =>
    let bad := s.misfit m w
    if bad = 0 ∨ w.toList.all (fun x => decide (x = 0)) then (w, causes) else s.fitPoints m n (lowerOne w) (causes ||| bad)

/-! Top-ups on a raised point (R167). -/

/-- Does a verb hold a reservation made at a lower scale, and run or stand admitted? -/
def Verb.lowScale (v : Verb) (scale : Nat) : Bool :=
  (decide (v.stage = .running) || decide (v.stage = .admitted)) && decide (v.scale < scale)

/-- The verb topped up. -/
def Verb.topped (v : Verb) (scale : Nat) : Verb :=
  if v.lowScale scale then { v with res := v.res + topUp v.res v.scale scale, scale := scale } else v

/-- The top-ups of a cluster's verbs: partition and amount of each. -/
def State.topUps (s : State) (k : ClusterId) (scale : Nat) : List (PartId × Nat) :=
  (clusterCores k).flatMap (fun c =>
    (s.cores[c].verbs.filter (fun v => v.lowScale scale)).map (fun v => (pid v.part, topUp v.res v.scale scale)))

/-- Fund the top-ups of a cluster: all of them, or none. -/
def State.fundTopUps (s : State) (k : ClusterId) (scale : Nat) : Option State :=
  let l := s.topUps k scale
  let need (p : PartId) : Nat := ((l.filter (fun e => decide (e.1 = p))).map (fun e => e.2)).sum
  if (List.finRange 16).all (fun p => decide (need p = 0) || s.canReserve p (need p)) then
    let s1 := s.forEach l (fun u e => u.reserve e.1 e.2)
    some (s1.forEach (clusterCores k) (fun u c => u.onCore c (fun x =>
      { x with active := x.active.map (fun v => v.topped scale),
               queue := x.queue.map (fun e => match e with
                 | .verb v => .verb (v.topped scale)
                 | .stream m => .stream m) })))
  else none

/-- Raise what can be funded; the ledger bit tells that a cluster could not. -/
def State.fundAll (s : State) (w : Points) : State × Points × Nat :=
  (List.finRange 8).foldl (fun a k =>
    let now := s.aon.clocks.points[k]
    if a.2.1[k] ≤ now then a
    else match a.1.fundTopUps k (pointScale a.2.1[k]) with
      | some u => (u, a.2)
      | none => (a.1, vset a.2.1 k now, a.2.2 ||| 8)) (s, w, 0)

/-! The planner tick. -/

/-- The first choice, before it is fitted, with the causes of R182 that it meets. `hold` in Brace and during a
transition. -/
def State.firstChoice (s : State) (hold : Bool) : Points × Nat :=
  let surge := s.surgeOk
  let top := if s.aon.mood.eff = .brisk then 2 else 5
  let one (k : ClusterId) : Nat × Nat :=
    if s.clusterUp k.val = false then (0, 0)
    else
      let want := s.wantedPoint k
      let cap := s.capPoint k
      let a := min want (min cap top)
      let b := if surge then a else min a 4
      let now := s.aon.clocks.points[k]
      let c := if s.ledger.pool < 0 then 0 else if hold then min b now else b
      (c, 32 * b2n (decide (cap < want)) + 64 * b2n (decide (b < a)) + 16 * b2n (decide (c < b)))
  (Vector.ofFn (fun k => (one k).1), (List.finRange 8).foldl (fun m k => m ||| (one k).2) 0)

/-- Choose and apply the points (R175 to R179, R182). -/
def State.choosePoints (s : State) (m : Meters) : State :=
  let first := s.firstChoice (decide (s.mood = .brace) || decide (s.mood = .quiesce) || s.inTransition)
  let fit := s.fitPoints m 48 first.1 first.2
  let r := s.fundAll fit.1
  let w := r.2.1
  let p := s.candidatePower m w
  let s1 := r.1.onAon (fun a => { a with
    clocks := { a.clocks with points := w, surge := w.toList.any (fun n => decide (n = 5)) },
    thermal := { a.thermal with peak := s.ratWord (s.peakAt p) } })
  (((s1.tickFree).setSgl K.plannerLimitCause (fit.2 ||| r.2.2)).setSgl K.predictedPower (sat32 p.floor.toNat))

/-- The moves between Brisk and Full that the planner starts (R180). -/
def State.plannerMove (s : State) : State :=
  if s.inTransition ∨ s.justStarted then s
  else if s.mood = .full ∧ (List.range 6).all (fun k => !s.aon.clocks.ran[(Fin.ofNat 8 (k + 2) : Fin 8)]) then s.startMove .brisk
  else if s.mood = .brisk ∧ s.act K.moodCeiling = 6 ∧ s.aon.thermal.tripActive = false ∧
      (2 < s.wantedPoint 0 ∨ 2 < s.wantedPoint 1) then s.startMove .full
  else s

/-- Does the planner choose points (R175)? In Brisk, Full and Brace and during a transition, Quiesce among them. -/
def State.plans (s : State) : Bool := [Mood.brisk, .full, .brace, .quiesce].contains s.mood || s.inTransition

/-- PLANNER (R175): the base charge, the automatic grants and, where it plans, the thermal state and the points; in Fault
nothing but that the energy metered waits for the next base charge (R137). -/
def State.applyPlanner (s : State) (m : Meters) : State :=
  if s.mood = .off ∨ s.aon.lock = 1 ∨ s.tick % 1024 ≠ 0 ∨ (s.tick ≠ 0 ∧ s.sgl K.plannerLastTick = s.tick) then s
  else if s.inFault then s.onLedger (fun l => l.withResidue (l.residue + m.basePj))
  else
    let s1 := ((s.setSgl K.plannerLastTick s.tick).setSgl K.meteredPower (sat32 (meteredMw m))).baseCharge m.basePj
    let s2 := ((s1.autoGrants).sense m.sensors).countCycles m
    let s3 := if s2.plans then ((s2.thermalTick).choosePoints m).plannerMove else s2
    s3.onAon (fun a => { a with clocks := { a.clocks with ran := Vector.replicate 8 false } })

/-- BATTERY_STALE: the feed becomes stale. -/
def State.applyStale (s : State) : State := if s.feedStale ∧ s.mood ≠ .off then s.syncFeed else s

/-! Commands. -/

/-- PLANNER. -/
def execPlanner (m : Meters) (s : State) : Host.Outcome State Fault Refusal :=
  .next (s.applyPlanner m)

/-- BATTERY_STALE. -/
def execBatteryStale (s : State) : Host.Outcome State Fault Refusal :=
  .next s.applyStale

end Sys2Proof.Machine
end

