-- ==== Sys2Proof/Machine/Doorbells.lean ====
section
/-!
DEFINITION. Doorbells (chapter 9, R320 to R326): when one is held, discarded, rejected or accepted, for the feed,
completion and clause rings.
-/
namespace Sys2Proof.Machine

/-- The size of a feed or clause ring in words. -/
def State.ringSize (s : State) (r : Fin 80) : Nat := (s.ringGeom r).2

/-- Reject a doorbell (R324, R326): its counter and a record. -/
def State.rejectDoorbell (s : State) (r : Fin 96) (k p : Nat) (v : W32) : State :=
  (s.bump k).logRec 0x0240 1 p r.val v.toNat

/-- A doorbell that is accepted: what it rang is noted for stalemate detection (R620). -/
def State.acceptDoorbell (s : State) (r : Fin 96) (p : PartId) (v : W32) : State :=
  (s.setDoorbell r v).onPart p (fun q => { q with rang := true })

/-- A tail `v` for a feed or clause ring (R324); `k` is the ring's rejection counter. -/
def State.tailDoorbell (s : State) (r : Fin 96) (ring : Fin 80) (p : PartId) (k : Nat) (v : W32) : State :=
  let q := s.rings[ring]
  if (v - q.retire).toNat ≤ s.ringSize ring ∧ (q.tail - q.retire).toNat ≤ (v - q.retire).toNat then
    (s.onRing ring (fun x => { x with tail := v })).acceptDoorbell r p v
  else s.rejectDoorbell r k p.val v

/-- A consumed count `v` for a completion ring (R326). -/
def State.complDoorbell (s : State) (r : Fin 96) (p : PartId) (v : W32) : State :=
  let q := s.parts[p]
  if (q.produced - v).toNat ≤ (q.produced - q.consumed).toNat then
    (s.onPart p (fun x => { x with consumed := v })).acceptDoorbell r p v
  else s.rejectDoorbell r (K.complRejected p.val) p.val v

/-- May a doorbell of partition `p` be applied, its ring's enable apart (R247, R254)? -/
def State.bellOpen (s : State) (p : PartId) : Bool := s.enabled p.val && decide (s.parts[p].state ≠ 6)

/-- A doorbell is applied (R324 to R326). -/
def State.applyDoorbell (s : State) (r : Fin 96) (v : W32) : State :=
  match s.doorbellPart r with
  | none => s.discardDoorbell r v.toNat
  | some p =>
    if s.bellOpen p = false then s.discardDoorbell r v.toNat
    else if r.val < 16 then
      (if s.act (K.feedEnable p.val) = 1 then s.tailDoorbell r (tid (64 + p.val)) p (K.feedRejected p.val) v
       else s.discardDoorbell r v.toNat)
    else if r.val < 32 then
      (if s.act (K.complEnable p.val) = 1 then s.complDoorbell r p v else s.discardDoorbell r v.toNat)
    else
      let c := r.val - 32
      if s.auto p.val ∧ s.act (K.ringEnable c) = 1 then s.tailDoorbell r (tid c) p (K.ringRejected c) v
      else s.discardDoorbell r v.toNat

/-- Is this request a write? -/
def HeldBar2.isWrite : HeldBar2 → Bool
  | .write .. => true
  | .read .. | .atomic .. => false

/-- Is a doorbell held: in a transition, in Quiesce, while it raises a demand (R107, R114, R132, Table 4-5), or while a BAR2
write waits, which it may not overtake (R209)? It waits for writes that came after it too (notes/assumptions/61.md). -/
def State.bellHeld (s : State) (r : Fin 96) (v : W32) : Bool :=
  s.inTransition || decide (s.mood = .quiesce) || (s.bellDemand (.doorbell r v)).isSome ||
    s.link.bar2.any (fun b => b.1.isWrite)

/-- The event of a doorbell register. -/
def isBell (r : Fin 96) : Event → Bool
  | .doorbell x _ => decide (x = r)
  | _ => false

/-- Hold a doorbell: its latch keeps the last value written (Table 2-1). -/
def State.holdBell (s : State) (r : Fin 96) (v : W32) : State :=
  s.onAon (fun a => { a with held := a.held.filter (fun e => !isBell r e) ++ [.doorbell r v] })

/-- Offer a doorbell. -/
def State.offerBell (s : State) (r : Fin 96) (v : W32) : State :=
  if s.bellHeld r v then s.holdBell r v else s.applyDoorbell r v

/-- A 4-byte write of a doorbell register, which only the host link brings (R104, R320). -/
def State.ringBell (s : State) (r : Fin 96) (v : W32) : State := if s.hostUp then s.offerBell r v else s

/-- A write of another size to a doorbell offset (R320). -/
def State.badBell (s : State) (r : Fin 96) (size : Nat) (v : W64) : State :=
  if s.hostUp ∧ size ≠ 4 then s.discardDoorbell r v.toNat else s

/-! Commands. -/

/-- FEED_DOORBELL. -/
def execFeedDoorbell (p : PartId) (v : W32) (s : State) : Host.Outcome State Fault Refusal :=
  .next (s.ringBell (Fin.ofNat 96 p.val) v)

/-- RING_DOORBELL. -/
def execRingDoorbell (c : CoreId) (v : W32) (s : State) : Host.Outcome State Fault Refusal :=
  .next (s.ringBell (Fin.ofNat 96 (32 + c.val)) v)

/-- COMPL_DOORBELL. -/
def execComplDoorbell (p : PartId) (v : W32) (s : State) : Host.Outcome State Fault Refusal :=
  .next (s.ringBell (Fin.ofNat 96 (16 + p.val)) v)

/-- DOORBELL_BAD_SIZE. -/
def execDoorbellBadSize (r : Fin 96) (size : Nat) (v : W64) (s : State) : Host.Outcome State Fault Refusal :=
  .next (s.badBell r size v)

end Sys2Proof.Machine
end

