-- ==== Sys2Proof/Machine/Bar2.lean ====
section
/-!
DEFINITION. The BAR2 aperture (R193, R209, R219, R220, R238, R358), the requests that wait for a mood (R114, R132, R237), and
the background work of the store (R197, R226, R227).
-/
namespace Sys2Proof.Machine

/-! Requests. -/

/-- Do `n` bytes from `off` lie in one mapped part of Table 6-1? -/
def mapped (off n : Nat) : Bool :=
  decide (0 < n) && decide (tierOf off ≠ .unmapped) && decide (tierOf (off + n - 1) = tierOf off)

/-- Is a request to the counters one of the two that R358 allows? -/
def counterAccess (off n : Nat) : Bool := decide (n = 4) && decide (off % 4 = 0)

/-- May a request of `n` bytes be performed? -/
def barOk (off n : Nat) : Bool := mapped off n && (decide (tierOf off ≠ .counters) || counterAccess off n)

/-- Unsupported Request with an address fault (R188, R193). -/
def State.barFault (s : State) (off : Nat) : State := (s.addrFaultRec (s.ga off) 0).output .bar2Unsupported

/-- A read (R193, R223, R358). -/
def State.barRead (s : State) (off n : Nat) : State :=
  if barOk off n = false then s.barFault off
  else if tierOf off = .counters then s.output (.bar2Data (leBytes 4 (s.conjVal (conjIdx off))) false)
  else
    let s1 := (s.checkRead off n).countLines .host off n
    s1.output (.bar2Data (s1.readMem off n) (s1.anyPoison off n))

/-- A write (R193, R224, R230, R358): discarded in Fault (R238). -/
def State.barWrite (s : State) (off : Nat) (data : List Byte) : State :=
  if s.inFault then s
  else if barOk off data.length = false then s.barFault off
  else if tierOf off = .counters then s.applySignal (conjIdx off) (ofLe data) 0 0 2
  else s.storeWrite .host (wbytes off data)

/-- An AtomicOp of width `w` (R216, R219, R224, R238). -/
def State.barAtomic (s : State) (code w off opnd cmp : Nat) : State :=
  if s.inFault then s.output .bar2Unsupported
  else if atomTargetOk off w = false then s.barFault off
  else
    let s1 := s.checkRead off (w / 8)
    if s1.anyPoison off (w / 8) then s1.output (.bar2Data (s1.readMem off (w / 8)) true)
    else
      let r := s1.atomLocal .host code w off opnd cmp
      r.2.output (.bar2Data (leBytes (w / 8) r.1) false)

/-- Perform a request. -/
def State.barServe (s : State) : HeldBar2 → State
  | .read off n => s.barRead off n
  | .write off data => s.barWrite off data
  | .atomic code w off opnd cmp => s.barAtomic code w off opnd cmp

/-- May a request be performed in this mood (R132, R237)? -/
def State.barReady (s : State) (r : HeldBar2) : Bool :=
  s.hostUp && decide (s.mood ≠ .quiesce) && (!r.high || s.storeUp)

/-- A request arrives: performed, or held behind those that wait. -/
def State.barOffer (s : State) (r : HeldBar2) : State :=
  if s.hostUp = false then s
  else if s.link.bar2.isEmpty && s.barReady r then s.barServe r
  else s.onLink (fun l => { l with bar2 := l.bar2 ++ [(r, false)] })

/-- Perform the requests that wait, in order, as far as the mood permits; `n` of them at most. -/
def State.barDrain (s : State) : Nat → State
  | 0 => s
  | n + 1 =>
    match s.link.bar2 with
    | [] => s
    | (r, _) :: rest =>
      if s.barReady r then ((s.onLink (fun l => { l with bar2 := rest })).barServe r).barDrain n else s

/-- Every request that waits is offered again. -/
def State.barAll (s : State) : State := s.barDrain s.link.bar2.length

/-- The width of an AtomicOp. -/
def atomWidth (w64 : Bool) : Nat := if w64 then 64 else 32

/-- A 128-bit CAS (R220); to the conjunction range it is an address fault too (R358). -/
def State.applyCas128 (s : State) (off : Nat) : State :=
  if s.hostUp = false then s else if tierOf off = .counters then s.barFault off else s.output .bar2Unsupported

/-! Background work. -/

/-- The line that the scrubber visits next. -/
def State.scrubLine (s : State) (deep : Bool) : Nat := if deep then deepBase + s.store.scrubDeep else s.store.scrubNear

/-- The scrubber moves on to the next line, ascending and wrapping (R226). -/
def Store.scrubNext (t : Store) (deep : Bool) : Store :=
  if deep then { t with scrubDeep := (t.scrubDeep + 128) % 0x400000000 }
  else { t with scrubNear := (t.scrubNear + 128) % nearSize }

/-- Where the near scrubber goes on (R226): the position held for arrays that are not live is resumed once they are, and the
live part below is swept meanwhile (notes/assumptions/60.md). -/
def State.scrubPlace (s : State) : State :=
  let t := s.store
  match t.scrubHeld with
  | some p => if s.live p then s.onStore (fun t => { t with scrubNear := p, scrubHeld := none })
    else if s.live t.scrubNear then s else s.onStore (fun t => { t with scrubNear := 0 })
  | none => if s.live t.scrubNear then s else s.onStore (fun t => { t with scrubNear := 0, scrubHeld := some t.scrubNear })

/-- What a scrub read finds in a word beside what earlier upsets left there. -/
def Store.found (t : Store) (w : Nat) (f : Finding) : Store :=
  if t.poison.contains w || t.latent.contains w then t
  else
    match f with
    | .clean => t
    | .single => { t with single := insertNat w t.single }
    | .double => { t with latent := insertNat w t.latent, single := t.single.filter (fun x => x ≠ w) }

/-- A background unit has had its slot: it is overdue no more (R227). -/
def State.served (s : State) (u : BgUnit) : State :=
  s.onStore (fun t => { t with overdue := t.overdue.filter (fun x => x ≠ u) })

/-- SCRUB_DUE (R222, R223, R226): the next line is read and corrected; it pauses at arrays that are not live. Which of its
words an error strikes is free (notes/assumptions/36.md). -/
def State.applyScrub (s : State) (deep : Bool) (f : Finding) : State :=
  let s0 := if deep then s else s.scrubPlace
  let off := s0.scrubLine deep
  if s0.live off = false then s
  else
    let w := off + 8 * ((Config.freeWord s.freeCtr 0).toNat % 16)
    let s1 := (s0.onStore (fun t => (t.scrubNext deep).found w f)).countLines .background off 128
    ((s1.checkRead off 128).served (if deep then .deepScrub (Fin.ofNat 16 (chanOf off)) else .nearBank (Fin.ofNat 64 (bankOf off)))).tickFree

/-- REFRESH_DUE (R227): a refresh takes one command slot of its channel and no value. -/
def State.applyRefresh (s : State) (ch : Fin 16) : State := s.served (.deepRefresh ch)

/-- Is a store unit at work? -/
def State.unitLive (s : State) : BgUnit → Bool
  | .nearBank _ => decide (4 ≤ s.lvl)
  | .deepRefresh ch => decide (4 ≤ s.lvl) && !s.store.selfRefresh[ch]
  | .deepScrub _ => decide (4 ≤ s.lvl)

/-- BACKGROUND_OVERDUE (R227): a unit's first request becomes overdue; it stays so until it is granted. -/
def State.applyOverdue (s : State) (u : BgUnit) : State :=
  if s.unitLive u && !s.store.overdue.contains u then
    (s.onStore (fun t => { t with overdue := t.overdue ++ [u] })).bump K.backgroundOverdue
  else s

/-- DEEP_SELF_REFRESH (R197): after 64 ticks of Listen without an access to the channel. -/
def State.applySelfRefresh (s : State) (ch : Fin 16) : State :=
  if s.mood = .listen ∧ max s.store.chanUse[ch] s.aon.mood.entryTick + 64 ≤ s.tick then
    s.onStore (fun t => { t with selfRefresh := vset t.selfRefresh ch true })
  else s

/-! Commands. -/

/-- BAR2_READ. -/
def execBar2Read (off : BitVec 36) (len : Nat) (s : State) : Host.Outcome State Fault Refusal :=
  .next (s.barOffer (.read off.toNat len))

/-- BAR2_WRITE. -/
def execBar2Write (off : BitVec 36) (data : List Byte) (s : State) : Host.Outcome State Fault Refusal :=
  .next (s.barOffer (.write off.toNat data))

/-- FETCHADD. -/
def execFetchadd (off : BitVec 36) (w64 : Bool) (v : W64) (s : State) : Host.Outcome State Fault Refusal :=
  .next (s.barOffer (.atomic 1 (atomWidth w64) off.toNat v.toNat 0))

/-- ATOMICOP_SWAP. -/
def execAtomicopSwap (off : BitVec 36) (w64 : Bool) (v : W64) (s : State) : Host.Outcome State Fault Refusal :=
  .next (s.barOffer (.atomic 0xA (atomWidth w64) off.toNat v.toNat 0))

/-- ATOMICOP_CAS. -/
def execAtomicopCas (off : BitVec 36) (w64 : Bool) (cmp new : W64) (s : State) : Host.Outcome State Fault Refusal :=
  .next (s.barOffer (.atomic 0xB (atomWidth w64) off.toNat new.toNat cmp.toNat))

/-- CAS_128. -/
def execCas128 (off : BitVec 36) (s : State) : Host.Outcome State Fault Refusal :=
  .next (s.applyCas128 off.toNat)

/-- BAR2_COUNTER_READ. -/
def execBar2CounterRead (i : BitVec 17) (s : State) : Host.Outcome State Fault Refusal :=
  .next (s.barOffer (.read (conjOff i.toNat) 4))

/-- BAR2_COUNTER_SIGNAL. -/
def execBar2CounterSignal (i : BitVec 17) (v : W32) (s : State) : Host.Outcome State Fault Refusal :=
  .next (s.barOffer (.write (conjOff i.toNat) (leBytes 4 v.toNat)))

/-- SCRUB_DUE. -/
def execScrubDue (deep : Bool) (found : Finding) (s : State) : Host.Outcome State Fault Refusal :=
  .next (s.applyScrub deep found)

/-- REFRESH_DUE. -/
def execRefreshDue (ch : Fin 16) (s : State) : Host.Outcome State Fault Refusal :=
  .next (s.applyRefresh ch)

/-- BACKGROUND_OVERDUE. -/
def execBackgroundOverdue (u : BgUnit) (s : State) : Host.Outcome State Fault Refusal :=
  .next (s.applyOverdue u)

/-- DEEP_SELF_REFRESH. -/
def execDeepSelfRefresh (ch : Fin 16) (s : State) : Host.Outcome State Fault Refusal :=
  .next (s.applySelfRefresh ch)

end Sys2Proof.Machine
end

