-- ==== Sys2Proof/Machine/Insns.lean ====
section
/-!
DEFINITION. The instructions of the control core (Table 8-12) as commands: each is the one instruction performed by its
thread (`State.insn`).
-/
namespace Sys2Proof.Machine

/-- INSN_ADD (R301): add: sd = sa + sb. -/
def execInsnAdd (t : ThreadId) (d a b : SReg) (s : State) : Host.Outcome State Fault Refusal :=
  .next (s.insn t 0 (.alu .add d a b))

/-- INSN_SUB (R301): sub: sd = sa − sb. -/
def execInsnSub (t : ThreadId) (d a b : SReg) (s : State) : Host.Outcome State Fault Refusal :=
  .next (s.insn t 0 (.alu .sub d a b))

/-- AND (R301): and: sd = sa AND sb. -/
def execInsnAnd (t : ThreadId) (d a b : SReg) (s : State) : Host.Outcome State Fault Refusal :=
  .next (s.insn t 0 (.alu .and d a b))

/-- OR (R301): or: sd = sa OR sb. -/
def execInsnOr (t : ThreadId) (d a b : SReg) (s : State) : Host.Outcome State Fault Refusal :=
  .next (s.insn t 0 (.alu .or d a b))

/-- XOR (R301): xor: sd = sa XOR sb. -/
def execInsnXor (t : ThreadId) (d a b : SReg) (s : State) : Host.Outcome State Fault Refusal :=
  .next (s.insn t 0 (.alu .xor d a b))

/-- SHL (R301): shl: sd = sa shifted left by sb[5:0]. -/
def execInsnShl (t : ThreadId) (d a b : SReg) (s : State) : Host.Outcome State Fault Refusal :=
  .next (s.insn t 0 (.alu .shl d a b))

/-- SHR (R301): shr: sd = sa shifted right logically by sb[5:0]. -/
def execInsnShr (t : ThreadId) (d a b : SReg) (s : State) : Host.Outcome State Fault Refusal :=
  .next (s.insn t 0 (.alu .shr d a b))

/-- SRA (R301): sra: sd = sa shifted right arithmetically by sb[5:0]. -/
def execInsnSra (t : ThreadId) (d a b : SReg) (s : State) : Host.Outcome State Fault Refusal :=
  .next (s.insn t 0 (.alu .sra d a b))

/-- INSN_MUL (R301): mul: sd = low 64 bits of sa × sb. -/
def execInsnMul (t : ThreadId) (d a b : SReg) (s : State) : Host.Outcome State Fault Refusal :=
  .next (s.insn t 0 (.alu .mul d a b))

/-- MULH (R301): mulh: sd = signed high 64 bits of sa × sb. -/
def execInsnMulh (t : ThreadId) (d a b : SReg) (s : State) : Host.Outcome State Fault Refusal :=
  .next (s.insn t 0 (.alu .mulh d a b))

/-- INSN_MIN (R301): min: sd = signed minimum of sa and sb. -/
def execInsnMin (t : ThreadId) (d a b : SReg) (s : State) : Host.Outcome State Fault Refusal :=
  .next (s.insn t 0 (.alu .min d a b))

/-- INSN_MAX (R301): max: sd = signed maximum of sa and sb. -/
def execInsnMax (t : ThreadId) (d a b : SReg) (s : State) : Host.Outcome State Fault Refusal :=
  .next (s.insn t 0 (.alu .max d a b))

/-- MINU (R301): minu: sd = unsigned minimum of sa and sb. -/
def execInsnMinu (t : ThreadId) (d a b : SReg) (s : State) : Host.Outcome State Fault Refusal :=
  .next (s.insn t 0 (.alu .minu d a b))

/-- MAXU (R301): maxu: sd = unsigned maximum of sa and sb. -/
def execInsnMaxu (t : ThreadId) (d a b : SReg) (s : State) : Host.Outcome State Fault Refusal :=
  .next (s.insn t 0 (.alu .maxu d a b))

/-- ADDI (R301): addi: sd = sa + sign-extended imm14. -/
def execInsnAddi (t : ThreadId) (d a : SReg) (imm : BitVec 14) (s : State) : Host.Outcome State Fault Refusal :=
  .next (s.insn t 0 (.imm .addi d a imm))

/-- ANDI (R301): andi: sd = sa AND sign-extended imm14. -/
def execInsnAndi (t : ThreadId) (d a : SReg) (imm : BitVec 14) (s : State) : Host.Outcome State Fault Refusal :=
  .next (s.insn t 0 (.imm .andi d a imm))

/-- ORI (R301): ori: sd = sa OR sign-extended imm14. -/
def execInsnOri (t : ThreadId) (d a : SReg) (imm : BitVec 14) (s : State) : Host.Outcome State Fault Refusal :=
  .next (s.insn t 0 (.imm .ori d a imm))

/-- XORI (R301): xori: sd = sa XOR sign-extended imm14. -/
def execInsnXori (t : ThreadId) (d a : SReg) (imm : BitVec 14) (s : State) : Host.Outcome State Fault Refusal :=
  .next (s.insn t 0 (.imm .xori d a imm))

/-- SHLI (R301): shli: sd = sa shifted left by imm14[5:0]. -/
def execInsnShli (t : ThreadId) (d a : SReg) (sh : BitVec 6) (s : State) : Host.Outcome State Fault Refusal :=
  .next (s.insn t 0 (.shi .shli d a sh))

/-- SHRI (R301): shri: sd = sa shifted right logically by imm14[5:0]. -/
def execInsnShri (t : ThreadId) (d a : SReg) (sh : BitVec 6) (s : State) : Host.Outcome State Fault Refusal :=
  .next (s.insn t 0 (.shi .shri d a sh))

/-- SRAI (R301): srai: sd = sa shifted right arithmetically by imm14[5:0]. -/
def execInsnSrai (t : ThreadId) (d a : SReg) (sh : BitVec 6) (s : State) : Host.Outcome State Fault Refusal :=
  .next (s.insn t 0 (.shi .srai d a sh))

/-- LIMM (R301): limm: sd = the clause's immediate slot. -/
def execInsnLimm (t : ThreadId) (d : SReg) (imm : W64) (s : State) : Host.Outcome State Fault Refusal :=
  .next (s.insn t imm (.limm d))

/-- FADD (R301): fadd: binary32 sum of sa and sb. -/
def execInsnFadd (t : ThreadId) (d a b : SReg) (s : State) : Host.Outcome State Fault Refusal :=
  .next (s.insn t 0 (.flt .fadd d a b))

/-- FSUB (R301): fsub: binary32 difference of sa and sb. -/
def execInsnFsub (t : ThreadId) (d a b : SReg) (s : State) : Host.Outcome State Fault Refusal :=
  .next (s.insn t 0 (.flt .fsub d a b))

/-- FMUL (R301): fmul: binary32 product of sa and sb. -/
def execInsnFmul (t : ThreadId) (d a b : SReg) (s : State) : Host.Outcome State Fault Refusal :=
  .next (s.insn t 0 (.flt .fmul d a b))

/-- FDIV (R301): fdiv: binary32 quotient of sa and sb. -/
def execInsnFdiv (t : ThreadId) (d a b : SReg) (s : State) : Host.Outcome State Fault Refusal :=
  .next (s.insn t 0 (.flt .fdiv d a b))

/-- FSQRT (R301): fsqrt: binary32 square root of sa. -/
def execInsnFsqrt (t : ThreadId) (d a : SReg) (s : State) : Host.Outcome State Fault Refusal :=
  .next (s.insn t 0 (.flt .fsqrt d a 0))

/-- FMIN (R301): fmin: binary32 minimum of sa and sb. -/
def execInsnFmin (t : ThreadId) (d a b : SReg) (s : State) : Host.Outcome State Fault Refusal :=
  .next (s.insn t 0 (.flt .fmin d a b))

/-- FMAX (R301): fmax: binary32 maximum of sa and sb. -/
def execInsnFmax (t : ThreadId) (d a b : SReg) (s : State) : Host.Outcome State Fault Refusal :=
  .next (s.insn t 0 (.flt .fmax d a b))

/-- FCVTIF (R301): fcvtif: converts signed 64-bit sa to binary32. -/
def execInsnFcvtif (t : ThreadId) (d a : SReg) (s : State) : Host.Outcome State Fault Refusal :=
  .next (s.insn t 0 (.flt .fcvtif d a 0))

/-- FCVTFI (R301): fcvtfi: converts binary32 to signed 64-bit, toward zero, saturating. -/
def execInsnFcvtfi (t : ThreadId) (d a : SReg) (s : State) : Host.Outcome State Fault Refusal :=
  .next (s.insn t 0 (.flt .fcvtfi d a 0))

/-- CMP (R301): cmp: pd = sa cc sb. -/
def execInsnCmp (t : ThreadId) (pd : PReg) (cc : Fin 8) (a b : SReg) (s : State) : Host.Outcome State Fault Refusal :=
  .next (s.insn t 0 (.cmp pd cc a b))

/-- CMPI (R301): cmpi: pd = sa cc sign-extended imm14. -/
def execInsnCmpi (t : ThreadId) (pd : PReg) (cc : Fin 6) (a : SReg) (imm : BitVec 14) (s : State) :
    Host.Outcome State Fault Refusal :=
  .next (s.insn t 0 (.cmpi pd cc a imm))

/-- PAND (R301): pand: pd = pa AND pb. -/
def execInsnPand (t : ThreadId) (d a b : PReg) (s : State) : Host.Outcome State Fault Refusal :=
  .next (s.insn t 0 (.prd .pand d a b))

/-- POR (R301): por: pd = pa OR pb. -/
def execInsnPor (t : ThreadId) (d a b : PReg) (s : State) : Host.Outcome State Fault Refusal :=
  .next (s.insn t 0 (.prd .por d a b))

/-- PXOR (R301): pxor: pd = pa XOR pb. -/
def execInsnPxor (t : ThreadId) (d a b : PReg) (s : State) : Host.Outcome State Fault Refusal :=
  .next (s.insn t 0 (.prd .pxor d a b))

/-- PANDN (R301): pandn: pd = pa AND NOT pb. -/
def execInsnPandn (t : ThreadId) (d a b : PReg) (s : State) : Host.Outcome State Fault Refusal :=
  .next (s.insn t 0 (.prd .pandn d a b))

/-- SEL (R301): sel: sd = p ? sa : sb. -/
def execInsnSel (t : ThreadId) (d a b : SReg) (p : PReg) (s : State) : Host.Outcome State Fault Refusal :=
  .next (s.insn t 0 (.sel d a b p))

/-- LDP (R302): ldp: 64-bit load from private data memory. -/
def execInsnLdp (t : ThreadId) (d a : SReg) (imm : BitVec 14) (s : State) : Host.Outcome State Fault Refusal :=
  .next (s.insn t 0 (.ldp d a imm))

/-- STP (R302): stp: 64-bit store to private data memory. -/
def execInsnStp (t : ThreadId) (d a : SReg) (imm : BitVec 14) (s : State) : Host.Outcome State Fault Refusal :=
  .next (s.insn t 0 (.stp d a imm))

/-- LDG (R303): ldg: 64-bit load from a global address through the windows. -/
def execInsnLdg (t : ThreadId) (d a : SReg) (imm : BitVec 14) (s : State) : Host.Outcome State Fault Refusal :=
  .next (s.insn t 0 (.ldg d a imm))

/-- STG (R303): stg: 64-bit store to a global address through the windows. -/
def execInsnStg (t : ThreadId) (d a : SReg) (imm : BitVec 14) (s : State) : Host.Outcome State Fault Refusal :=
  .next (s.insn t 0 (.stg d a imm))

/-- ATOM_ADD (R215): atom with code ADD: wrapping add at the word, returning the old value. -/
def execInsnAtomAdd (t : ThreadId) (d a b : SReg) (w64 : Bool) (s : State) : Host.Outcome State Fault Refusal :=
  .next (s.insn t 0 (.atom .add w64 d a b))

/-- ATOM_FADD (R218): atom with code FADD: binary32 add at the word, returning the old value. -/
def execInsnAtomFadd (t : ThreadId) (d a b : SReg) (s : State) : Host.Outcome State Fault Refusal :=
  .next (s.insn t 0 (.atom .fadd false d a b))

/-- ATOM_MIN (R215): atom with code MIN: signed minimum at the word. -/
def execInsnAtomMin (t : ThreadId) (d a b : SReg) (w64 : Bool) (s : State) : Host.Outcome State Fault Refusal :=
  .next (s.insn t 0 (.atom .min w64 d a b))

/-- ATOM_MAX (R215): atom with code MAX: signed maximum at the word. -/
def execInsnAtomMax (t : ThreadId) (d a b : SReg) (w64 : Bool) (s : State) : Host.Outcome State Fault Refusal :=
  .next (s.insn t 0 (.atom .max w64 d a b))

/-- ATOM_UMIN (R215): atom with code UMIN: unsigned minimum at the word. -/
def execInsnAtomUmin (t : ThreadId) (d a b : SReg) (w64 : Bool) (s : State) : Host.Outcome State Fault Refusal :=
  .next (s.insn t 0 (.atom .umin w64 d a b))

/-- ATOM_UMAX (R215): atom with code UMAX: unsigned maximum at the word. -/
def execInsnAtomUmax (t : ThreadId) (d a b : SReg) (w64 : Bool) (s : State) : Host.Outcome State Fault Refusal :=
  .next (s.insn t 0 (.atom .umax w64 d a b))

/-- ATOM_AND (R215): atom with code AND: bitwise AND at the word. -/
def execInsnAtomAnd (t : ThreadId) (d a b : SReg) (w64 : Bool) (s : State) : Host.Outcome State Fault Refusal :=
  .next (s.insn t 0 (.atom .and w64 d a b))

/-- ATOM_OR (R215): atom with code OR: bitwise OR at the word. -/
def execInsnAtomOr (t : ThreadId) (d a b : SReg) (w64 : Bool) (s : State) : Host.Outcome State Fault Refusal :=
  .next (s.insn t 0 (.atom .or w64 d a b))

/-- ATOM_XOR (R215): atom with code XOR: bitwise XOR at the word. -/
def execInsnAtomXor (t : ThreadId) (d a b : SReg) (w64 : Bool) (s : State) : Host.Outcome State Fault Refusal :=
  .next (s.insn t 0 (.atom .xor w64 d a b))

/-- ATOM_SWAP (R215): atom with code SWAP: the word takes the operand. -/
def execInsnAtomSwap (t : ThreadId) (d a b : SReg) (w64 : Bool) (s : State) : Host.Outcome State Fault Refusal :=
  .next (s.insn t 0 (.atom .swap w64 d a b))

/-- ATOM_CAS (R215): atom with code CAS: the word takes the swap value when old equals the compare value. -/
def execInsnAtomCas (t : ThreadId) (d a b : SReg) (w64 : Bool) (s : State) : Host.Outcome State Fault Refusal :=
  .next (s.insn t 0 (.atom .cas w64 d a b))

/-- BR (R287): br: when p XOR neg is 1, fetch is redirected at clause retirement. -/
def execInsnBr (t : ThreadId) (p : PReg) (neg : Bool) (off : BitVec 20) (s : State) :
    Host.Outcome State Fault Refusal :=
  .next (s.insn t 0 (.br p neg off))

/-- BMC (R291): bmc: branches on a memo register condition, waiting on its pending count. -/
def execInsnBmc (t : ThreadId) (k : MReg) (cc : Fin 6) (off : BitVec 19) (s : State) :
    Host.Outcome State Fault Refusal :=
  .next (s.insn t 0 (.bmc k cc off))

/-- WIN_MARK (R297): win mark sets the hold point to the next clause. -/
def execInsnWinMark (t : ThreadId) (s : State) : Host.Outcome State Fault Refusal :=
  .next (s.insn t 0 (.win false))

/-- WIN_UNMARK (R297): win unmark clears the hold point. -/
def execInsnWinUnmark (t : ThreadId) (s : State) : Host.Outcome State Fault Refusal :=
  .next (s.insn t 0 (.win true))

/-- WSET (R305): wset writes one word of a walker set of a core. -/
def execInsnWset (t : ThreadId) (core : CoreId) (w : Fin 8) (field : BitVec 6) (v : W64) (s : State) :
    Host.Outcome State Fault Refusal :=
  .next (s.insn t v (.wset (if t.val < 64 then 0 else core) w (field.toFin) 0 true))

/-- DPUT (R304): dput copies 64 bytes of private memory into a descriptor in one step, ordered against verbs. -/
def execInsnDput (t : ThreadId) (a b : SReg) (s : State) : Host.Outcome State Fault Refusal :=
  .next (s.insn t 0 (.dput a b))

/-- DGET (R304): dget copies a descriptor into private memory. -/
def execInsnDget (t : ThreadId) (a b : SReg) (s : State) : Host.Outcome State Fault Refusal :=
  .next (s.insn t 0 (.dget a b))

/-- QROOM (R306): qroom returns the free entries of a core's engine queue. -/
def execInsnQroom (t : ThreadId) (d a : SReg) (s : State) : Host.Outcome State Fault Refusal :=
  .next (s.insn t 0 (.qroom d a))

/-- FENCE (R301): fence waits until every verb and address-stream op that the thread pushed has retired or been abandoned. -/
def execInsnFence (t : ThreadId) (s : State) : Host.Outcome State Fault Refusal :=
  .next (s.insn t 0 (.fence))

/-- MFM (R291): mfm copies a memo register to sd, waiting on its pending count. -/
def execInsnMfm (t : ThreadId) (d : SReg) (k : MReg) (s : State) : Host.Outcome State Fault Refusal :=
  .next (s.insn t 0 (.mfm d k))

/-- RDSR (R301): rdsr reads the partition number, device number, control-core number or CORE_MASK. -/
def execInsnRdsr (t : ThreadId) (d : SReg) (sel : Fin 4) (s : State) : Host.Outcome State Fault Refusal :=
  .next (s.insn t 0 (.rdsr d sel))

/-- LSET (R308): lset sets a loop counter in autonomous mode. -/
def execInsnLset (t : ThreadId) (k : Fin 4) (v : BitVec 24) (s : State) : Host.Outcome State Fault Refusal :=
  .next (s.insn t 0 (.lset k v))

/-- LDBNZ (R308): ldbnz decrements a loop counter and branches while it is nonzero. -/
def execInsnLdbnz (t : ThreadId) (k : Fin 4) (off : BitVec 20) (s : State) : Host.Outcome State Fault Refusal :=
  .next (s.insn t 0 (.ldbnz k off))

end Sys2Proof.Machine
end

