-- ==== Sys2Proof/Machine/Transports.lean ====
section
/-!
DEFINITION. The three transports (chapter 3): the layout of a PDU (R68 to R70), responses on each transport (R55, R59 to R66,
R79), notifications and their handover (R88, R91), the I3C target with its common command codes (R54, R59 to R63), the
mailbox registers (R64 to R66, R694), and the frames that wait for a transmit opportunity (R79).
-/
namespace Sys2Proof.Machine

/-! PDUs. -/

/-- The bytes of a PDU (Table 3-4), CHECK included (R69). -/
def pduBytes (op txn status : Nat) (o : ObjRef) (data : List Byte) : List Byte :=
  let b := leBytes 1 0x10 ++ leBytes 1 op ++ leBytes 1 txn ++ leBytes 1 status ++ leBytes 2 o.idx.toNat ++
    leBytes 1 o.sub.toNat ++ leBytes 1 data.length ++ data
  b ++ leBytes 2 (crc16 b).toNat

/-- A received PDU. -/
structure Pdu where
  proto : Nat
  op : Nat
  txn : Byte
  status : Nat
  obj : ObjRef
  data : List Byte
  check : BitVec 16
  deriving DecidableEq, Repr

/-- Read a PDU; none when R70 discards it. Bytes past its CHECK are ignored. -/
def parsePdu (b : List Byte) : Option Pdu :=
  let n := (at! 0 b 7).toNat
  let body := b.take (8 + n)
  let check := BitVec.ofNat 16 (ofLe ((b.drop (8 + n)).take 2))
  if b.length < 10 + n ∨ crc16 body ≠ check then none
  else some { proto := (at! 0 b 0).toNat, op := (at! 0 b 1).toNat, txn := at! 0 b 2, status := (at! 0 b 3).toNat,
              obj := { idx := BitVec.ofNat 16 (ofLe ((b.drop 4).take 2)), sub := at! 0 b 6 }, data := body.drop 8,
              check := check }

/-- The name of an object by its key. -/
def objOf (k : Nat) : ObjRef := { idx := BitVec.ofNat 16 (k / 256), sub := BitVec.ofNat 8 k }

/-- The number of a transport, in the source order of event class 9. -/
def tix : Transport → Fin 3
  | .mbox => 0 | .i3c => 1 | .t1s => 2

/-- May requests and responses pass on a transport (R53, R104, Table 3-2)? -/
def State.linkOpen (s : State) : Transport → Bool
  | .mbox => s.hostUp
  | .i3c => decide (s.mood ≠ .off) && decide (s.sgl K.i3cEnable = 1)
  | .t1s => decide (s.mood ≠ .off) && decide (s.sgl K.t1sEnable = 1)

/-! 10BASE-T1S. -/

/-- The bytes of a MAC address in the order of the wire (notes/assumptions/37.md). -/
def macBytes (m : Mac) : List Byte := (leBytes 6 m.toNat).reverse

/-- An Ethernet II frame from the device, its FCS apart (R55). -/
def State.frameOf (s : State) (dst : Mac) (pdu : List Byte) : List Byte :=
  macBytes dst ++ macBytes Config.mac ++ (leBytes 2 (s.sgl K.t1sEthertype)).reverse ++ pdu ++
    List.replicate (46 - pdu.length) 0

/-- Queue a frame for the next transmit opportunity (R79). -/
def State.t1sQueue (s : State) (dst : Mac) (pdu : List Byte) : State :=
  let f := s.frameOf dst pdu
  s.onLink (fun l => { l with t1sTx := l.t1sTx ++ [f] })

/-- T1S_TRANSMIT_OPPORTUNITY: the oldest frame is sent. -/
def State.applyOpportunity (s : State) : State :=
  if s.linkOpen .t1s = false then s
  else match s.link.t1sTx with
    | [] => s
    | f :: rest => (s.onLink (fun l => { l with t1sTx := rest })).output (.t1sFrame f)

/-! I3C. -/

/-- Change the I3C target. -/
def State.onI3c (s : State) (f : I3c → I3c) : State := s.onLink (fun l => { l with i3c := f l.i3c })

/-- Has the target a dynamic address on a bus that it answers? -/
def State.i3cAddressed (s : State) : Bool := s.linkOpen .i3c && decide (s.link.i3c.dyn ≠ 0)

/-- The PDU of a notification (Table 3-7). -/
def Notify.pdu (n : Notify) : List Byte :=
  pduBytes 0x0E n.seq.toNat 0 { idx := n.idx, sub := n.sub }
    (leBytes 2 n.seq.toNat ++ leBytes 1 (b2n n.dropped) ++ [0] ++ leBytes 8 n.tick ++ leBytes 8 n.value)

/-- The oldest notification that I3C has pending: the head of the queue while I3C is selected (R59, R88). -/
def State.i3cNotify (s : State) : Option Notify :=
  if s.sgl K.notifyTransport = 2 then s.link.notifyQ.head? else none

/-- Raise the in-band interrupt of R61 when something is pending and in-band interrupts are enabled. -/
def State.i3cRaise (s : State) : State :=
  if s.link.i3c.ibi = false ∨ s.i3cAddressed = false then s
  else if !s.link.i3c.rsp.isEmpty then s.output (.ibi 1)
  else if s.link.i3c.cut.isSome || s.i3cNotify.isSome then s.output (.ibi 2)
  else s

/-- Make a response available to a private read (R79). -/
def State.i3cRespond (s : State) (b : List Byte) : State := (s.onI3c (fun i => { i with rsp := i.rsp ++ [b] })).i3cRaise

/-- I3C_PRIVATE_READ (R59, R60): `taken` bytes of a pending PDU are read; all of them take it away. A notification that was
cut short comes first; it has left the queue (notes/assumptions/39.md). -/
def State.applyPrivateRead (s : State) (taken : Nat) : State :=
  if s.i3cAddressed = false then s
  else match s.link.i3c.cut, s.link.i3c.rsp, s.i3cNotify with
    | some b, _, _ =>
      let s1 := s.output (.i3cByte (b.take taken))
      if b.length ≤ taken then (s1.onI3c (fun i => { i with cut := none })).i3cRaise else s1
    | none, b :: rest, _ =>
      let s1 := s.output (.i3cByte (b.take taken))
      if b.length ≤ taken then (s1.onI3c (fun i => { i with rsp := rest })).i3cRaise else s1
    | none, [], some n =>
      let s1 := (s.output (.i3cByte (n.pdu.take taken))).onLink (fun l => { l with notifyQ := l.notifyQ.drop 1 })
      if n.pdu.length ≤ taken then s1.i3cRaise else s1.onI3c (fun i => { i with cut := some n.pdu })
    | none, [], none => s.output .i3cNack

/-- ENEC and DISEC. -/
def State.applyEvents (s : State) (on : Bool) : State :=
  if s.linkOpen .i3c = false then s
  else
    let s1 := (s.onI3c (fun i => { i with ibi := on })).output .i3cAck
    if on then s1.i3cRaise else s1

/-- RSTDAA. -/
def State.applyRstdaa (s : State) : State :=
  if s.linkOpen .i3c = false then s else (s.onI3c (fun i => { i with dyn := 0 })).output .i3cAck

/-- The 48-bit provisional ID (R62). -/
def provisionalId : Nat := 0x02D3 * 2 ^ 33 + 0x0A01 * 2 ^ 16 + Config.serial.toNat % 2 ^ 16

/-- Its bytes, most significant first (notes/assumptions/38.md). -/
def pidBytes : List Byte := (leBytes 6 provisionalId).reverse

/-- BCR and DCR (R62). -/
def bcr : Byte := 0x06
/-- See `bcr`. -/
def dcr : Byte := 0x00

/-- ENTDAA: a target without a dynamic address sends its provisional ID, BCR and DCR, and takes one. -/
def State.applyEntdaa (s : State) (dyn : BitVec 7) : State :=
  if s.linkOpen .i3c = false ∨ s.link.i3c.dyn ≠ 0 then s
  else ((s.onI3c (fun i => { i with dyn := dyn })).output (.i3cByte (pidBytes ++ [bcr, dcr]))).i3cRaise

/-- SETDASA: at the static address, for a target without a dynamic address (notes/assumptions/38.md). -/
def State.applySetdasa (s : State) (static dyn : BitVec 7) : State :=
  if s.linkOpen .i3c = false ∨ static.toNat ≠ s.sgl K.i3cStaticAddr then s
  else if s.link.i3c.dyn ≠ 0 then s.output .i3cNack
  else ((s.onI3c (fun i => { i with dyn := dyn })).output .i3cAck).i3cRaise

/-- The answer to a directed read command. -/
def State.i3cGet (s : State) (b : List Byte) : State := if s.i3cAddressed then s.output (.i3cByte b) else s

/-- SETMWL and SETMRL: a value below 256 is not acknowledged (R62). -/
def State.i3cSetMax (s : State) (n : BitVec 16) (f : I3c → I3c) : State :=
  if s.linkOpen .i3c = false then s
  else if n.toNat < 256 then s.output .i3cNack
  else (s.onI3c f).output .i3cAck

/-- GETSTATUS and GETMXDS: the spec names them and gives no bytes, so both bytes are free (notes/assumptions/3.md). -/
def State.i3cFree (s : State) : State :=
  if s.i3cAddressed then (s.i3cGet [Config.cccByte (2 * s.freeCtr), Config.cccByte (2 * s.freeCtr + 1)]).tickFree else s

/-- RSTACT: actions other than 0x00 and 0x01 are not supported (R54, R63). -/
def State.applyRstact (s : State) (a : Byte) : State :=
  if s.linkOpen .i3c = false then s
  else if 1 < a.toNat then s.output .i3cNack
  else (s.onI3c (fun i => { i with rstact := some (decide (a = 1)) })).output .i3cAck

/-- TARGET_RESET_PATTERN (R63). -/
def State.applyResetPattern (s : State) : State :=
  if s.linkOpen .i3c = false then s
  else if s.link.i3c.rstact = some false then s.onI3c (fun i => { i with rstact := none })
  else s.onLink (fun l =>
    { l with rx := l.rx.filter (fun p => p.req.via ≠ .i3c), i3c := { l.i3c with rsp := [], dyn := 0, rstact := none } })

/-! The mailbox. -/

/-- Change the mailbox. -/
def State.onMbox (s : State) (f : Mbox → Mbox) : State := s.onLink (fun l => { l with mbox := f l.mbox })

/-- Write a response to MBOX_RSP (R66). -/
def State.mboxPut (s : State) (b : List Byte) : State :=
  (s.onMbox (fun m => { m with rsp := patch m.rsp 0 b, rspReady := true, busy := false })).msix (s.sgl K.mboxVector)

/-- A response for the host: written, or waiting for RSP_READY to clear or for the mailbox to be reachable (R66, R694). -/
def State.mboxRespond (s : State) (b : List Byte) : State :=
  if s.hostUp ∧ s.link.mbox.rspReady = false ∧ s.link.mbox.waiting.isEmpty then s.mboxPut b
  else s.onMbox (fun m => { m with waiting := m.waiting ++ [b], busy := true, restore := m.restore || !s.hostUp })

/-- Write the oldest response that waits, when it may be written. -/
def State.mboxNext (s : State) : State :=
  match s.link.mbox.waiting with
  | [] => s
  | b :: rest =>
    if s.hostUp ∧ s.link.mbox.rspReady = false then ((s.onMbox (fun m => { m with waiting := rest })).mboxPut b).takeVector
    else s

/-- RSP_READY_CLEAR (R66). -/
def State.applyRspClear (s : State) : State :=
  if s.hostUp then (s.onMbox (fun m => { m with rspReady := false })).mboxNext else s

/-- MAILBOX_RESTORE (R694): what was kept is written again, with its flags and messages. -/
def State.applyRestore (s : State) : State :=
  if s.hostUp = false ∨ s.link.mbox.restore = false then s
  else
    let busy := !s.link.mbox.waiting.isEmpty || s.link.rx.any (fun p => decide (p.req.via = .mbox))
    let s1 := s.onMbox (fun m => { m with restore := false, busy := busy })
    let s2 := if s.link.mbox.rspReady then s1.msix (s.sgl K.mboxVector) else s1.mboxNext
    if s.link.mbox.ntfReady then s2.msix (s.sgl K.mboxVector) else s2

/-- Hand a response to its requester's transport (R57, R79). -/
def State.respond (s : State) (req : Requester) (b : List Byte) : State :=
  let s1 := s.output (.pdu req b)
  match req.via with
  | .mbox => s1.mboxRespond b
  | .i3c => s1.i3cRespond b
  | .t1s => s1.t1sQueue req.mac b

/-! Notifications. -/

/-- Has the selected transport room for a notification (R66, R91)? -/
def State.notifyOpen (s : State) : Bool :=
  let n := s.sgl K.notifyTransport
  if n = 1 then s.hostUp && !s.link.mbox.ntfReady && !s.link.mbox.restore
  else if n = 3 then s.linkOpen .t1s
  else false

/-- Put one notification PDU into the mailbox or a 10BASE-T1S frame. -/
def State.notifyPut (s : State) (b : List Byte) : State :=
  if s.sgl K.notifyTransport = 1 then
    (s.onMbox (fun m => { m with ntf := patch m.ntf 0 b, ntfReady := true })).msix (s.sgl K.mboxVector)
  else s.t1sQueue (BitVec.ofNat 48 (s.sgl K.notifyMac)) b

/-- Announce on I3C the notifications not announced yet: they stay in the queue until private reads take them
(R59, R61; notes/assumptions/39.md). -/
def State.offerNotify (s : State) : State :=
  if s.sgl K.notifyTransport = 2 ∧ s.i3cAddressed = true ∧ s.link.notifyQ.any (fun n => !n.offered) = true then
    let s1 := s.onLink (fun l => { l with notifyQ := l.notifyQ.map (fun n => { n with offered := true }) })
    if s.link.i3c.rsp.isEmpty then s1.i3cRaise else s1
  else s

/-- NOTIFY_HANDOVER (R88, R91): the oldest queued notification. -/
def State.handNotify (s : State) : State :=
  match s.link.notifyQ with
  | [] => s
  | n :: rest => if s.notifyOpen then (s.onLink (fun l => { l with notifyQ := rest })).notifyPut n.pdu else s.offerNotify

/-- Hand over all that the transport takes; the queue holds 16. -/
def State.handAll (s : State) : State := (List.range 16).foldl (fun u _ => u.handNotify) s

/-- NTF_READY_CLEAR (R66). -/
def State.applyNtfClear (s : State) : State :=
  if s.hostUp then (s.onMbox (fun m => { m with ntfReady := false })).handNotify else s

/-- A write of NOTIFY_TRANSPORT (R88): 0 discards what is queued. -/
def State.setNotify (s : State) (n : Nat) : State :=
  let s1 := s.setSgl K.notifyTransport n
  if n = 0 then
    s1.onLink (fun l => { l with notifyQ := [], notifyLost := true })
  else s1

/-! Commands. -/

/-- NOTIFY_HANDOVER. -/
def execNotifyHandover (s : State) : Host.Outcome State Fault Refusal :=
  .next s.handNotify

/-- I3C_PRIVATE_READ. -/
def execI3cPrivateRead (taken : Nat) (s : State) : Host.Outcome State Fault Refusal :=
  .next (s.applyPrivateRead taken)

/-- ENEC. -/
def execEnec (s : State) : Host.Outcome State Fault Refusal :=
  .next (s.applyEvents true)

/-- DISEC. -/
def execDisec (s : State) : Host.Outcome State Fault Refusal :=
  .next (s.applyEvents false)

/-- RSTDAA. -/
def execRstdaa (s : State) : Host.Outcome State Fault Refusal :=
  .next s.applyRstdaa

/-- ENTDAA. -/
def execEntdaa (dyn : BitVec 7) (s : State) : Host.Outcome State Fault Refusal :=
  .next (s.applyEntdaa dyn)

/-- SETDASA. -/
def execSetdasa (static dyn : BitVec 7) (s : State) : Host.Outcome State Fault Refusal :=
  .next (s.applySetdasa static dyn)

/-- GETPID. -/
def execGetpid (s : State) : Host.Outcome State Fault Refusal :=
  .next (s.i3cGet pidBytes)

/-- GETBCR. -/
def execGetbcr (s : State) : Host.Outcome State Fault Refusal :=
  .next (s.i3cGet [bcr])

/-- GETDCR. -/
def execGetdcr (s : State) : Host.Outcome State Fault Refusal :=
  .next (s.i3cGet [dcr])

/-- GETSTATUS. -/
def execGetstatus (s : State) : Host.Outcome State Fault Refusal :=
  .next s.i3cFree

/-- GETMXDS. -/
def execGetmxds (s : State) : Host.Outcome State Fault Refusal :=
  .next s.i3cFree

/-- SETMWL. -/
def execSetmwl (n : BitVec 16) (s : State) : Host.Outcome State Fault Refusal :=
  .next (s.i3cSetMax n (fun i => { i with mwl := n }))

/-- GETMWL. -/
def execGetmwl (s : State) : Host.Outcome State Fault Refusal :=
  .next (s.i3cGet (leBytes 2 s.link.i3c.mwl.toNat).reverse)

/-- SETMRL. -/
def execSetmrl (n : BitVec 16) (s : State) : Host.Outcome State Fault Refusal :=
  .next (s.i3cSetMax n (fun i => { i with mrl := n }))

/-- GETMRL. -/
def execGetmrl (s : State) : Host.Outcome State Fault Refusal :=
  .next (s.i3cGet (leBytes 2 s.link.i3c.mrl.toNat).reverse)

/-- RSTACT. -/
def execRstact (a : Byte) (s : State) : Host.Outcome State Fault Refusal :=
  .next (s.applyRstact a)

/-- TARGET_RESET_PATTERN. -/
def execTargetResetPattern (s : State) : Host.Outcome State Fault Refusal :=
  .next s.applyResetPattern

/-- RSP_READY_CLEAR. -/
def execRspReadyClear (s : State) : Host.Outcome State Fault Refusal :=
  .next s.applyRspClear

/-- NTF_READY_CLEAR. -/
def execNtfReadyClear (s : State) : Host.Outcome State Fault Refusal :=
  .next s.applyNtfClear

/-- MAILBOX_RESTORE. -/
def execMailboxRestore (s : State) : Host.Outcome State Fault Refusal :=
  .next s.applyRestore

/-- T1S_TRANSMIT_OPPORTUNITY. -/
def execT1sTransmitOpportunity (s : State) : Host.Outcome State Fault Refusal :=
  .next s.applyOpportunity

end Sys2Proof.Machine
end

