-- ==== Sys2Proof/Machine/Requests.lean ====
section
/-!
DEFINITION. Requests (chapter 3): the checks of Table 3-6 in their order, the answer of each operation of Table 3-5, what a
write of each object does (R52, R53, R689), segmented transfers (R82 to R87), duplicates (R80), and receipt into the buffers
of R75 with the class that R36 and R689 give a write.
-/
namespace Sys2Proof.Machine

/-! Checks. -/

/-- The code of the first condition that holds; 0 when none does (R73). -/
def firstCode : List (Bool × Nat) → Nat
  | [] => 0
  | (b, n) :: l => if b then n else firstCode l

/-- DOMAIN objects that a write must fill exactly (R687). -/
def exactDom (k : Nat) : Bool :=
  decide (k = K.conjOwner) || decide (k = K.conjShare) || (List.range 8).any (fun x => decide (k = K.slotCodes x))

/-- The largest value a request may carry outside a segmented transfer, and the most a READ returns. -/
abbrev maxData : Nat := 240

/-- Is a value of `n` bytes of a wrong length for an object (LENGTH; R235, R687)? -/
def badLength (r : ObjRow) (k n : Nat) : Bool :=
  match r.ty with
  | .domain m => decide (m < n) || (exactDom k && decide (n ≠ m)) || (decide (k = K.pokeData) && decide (n % 8 ≠ 0))
  | ty => decide (n ≠ ty.size)

/-- Is a total size one that SEG_WRITE_INIT refuses (R87)? -/
def badTotal (r : ObjRow) (k n : Nat) : Bool := decide (n = 0) || badLength r k n

/-- Does a value of CONJ_SHARE or SLOT_CODES carry a nonzero reserved bit (R9; notes/assumptions/57.md)? -/
def domReserved (k : Nat) (v : List Byte) : Bool :=
  (decide (k = K.conjShare) && (List.range 512).any (fun b => decide (bits (ofLe ((v.drop (4 * b)).take 4)) 31 17 ≠ 0))) ||
    ((List.range 8).any (fun x => decide (k = K.slotCodes x)) && (v.drop 4040).any (fun b => decide (b ≠ 0)))

/-- RESERVED_VALUE or RANGE of a value, 0 when it has neither (R9, R47, R235, R684). -/
def State.badValue (s : State) (r : ObjRow) (k : Nat) (v : List Byte) : Nat :=
  match r.ty with
  | .domain _ =>
    if domReserved k v then 6
    else if k = K.pokeData ∧ v ≠ [] ∧ inOneTier (s.sgl K.peekAddress) v.length = false then 5 else 0
  | _ => s.valueStatus r (ofLe v)

/-- Is a write not permitted in this build (R4, Table 3-2)? -/
def State.badBuild (s : State) (k n : Nat) : Bool :=
  (!s.sled && decide (n = 1) && (decide (k = K.t1sEnable) || (List.range 8).any (fun q => decide (k = K.portEnable q)))) ||
    (s.sled && decide (k = K.i3cEnable) && decide (n = 1)) ||
    (decide (k = K.notifyTransport) && decide (n = if s.sled then 2 else 3))

/-- Are the arrays of a range live in the current mood (R236)? -/
def State.rangeLive (s : State) (off n : Nat) : Bool := s.live off && s.live (off + n - 1)

/-- The partition whose object `base + p` is named. -/
def instOf (base sub : Nat) (n : Nat) (k : Nat) : Option Nat :=
  if k % 256 = sub ∧ base ≤ k / 256 ∧ k / 256 < base + n then some (k / 256 - base) else none

/-- The object of FLUSH: a core, or 64 more than a control core. -/
def flushUnit (k : Nat) : Option ThreadId :=
  match instOf 0x5010 3 64 k with
  | some c => some (tid c)
  | none => (instOf 0x5050 1 16 k).map (fun c => tid (64 + c))

/-- Is a write of a ledger object, which Fault does not accept (R137)? -/
def ledgerWrite (k : Nat) : Bool :=
  decide (k = K.deposit) || decide (k = K.poolLowMark) ||
    [1, 6, 10, 11].any (fun j => (instOf 0x2410 j 16 k).isSome)

/-- Does the mood, or a partition's state, refuse any write of an object (R98, R137, R236, R252, R362, R631)? -/
def State.moodRefuses (s : State) (k : Nat) : Bool :=
  (s.inFault && (ledgerWrite k || decide (k = K.swapRequest) || decide (k = K.pokeData))) ||
    (decide (k = K.pokeData) && !s.live (s.sgl K.peekAddress)) ||
    (match instOf 0x3010 6 16 k with
     | some p => !s.enabled p
     | none => false) ||
    (match flushUnit k with
     | some u => (match s.threadPart u with
       | some p => decide (s.parts[p].state = 6)
       | none => true)
     | none => false) ||
    (match instOf 0x7810 5 16 k with
     | some p => !s.enabled p || !([3, 4, 5].contains (s.partState (pid p)))
     | none => false)

/-- Does the mood refuse this value (R108, R236)? -/
def State.moodRefusesValue (s : State) (k : Nat) (v : List Byte) : Bool :=
  (decide (k = K.moodRequest) && !s.moodOk (ofLe v)) ||
    (decide (k = K.pokeData) && decide (v ≠ []) && !s.rangeLive (s.sgl K.peekAddress) v.length)

/-- Does a pending swap refuse a write (Table 3-6, order 11)? -/
def State.swapRefuses (s : State) (r : ObjRow) (k : Nat) : Bool :=
  decide (s.aon.swapStatus ≠ 0) && (r.set || decide (k = K.swapRequest) || decide (k = K.shadowRevert))

/-- The status of a whole value written to an object: orders 5 to 12 of Table 3-6. -/
def State.writeStatus (s : State) (r : ObjRow) (k : Nat) (v : List Byte) : Nat :=
  firstCode [(decide (r.acc = .ro), 3), (badLength r k v.length, 4), (decide (s.badValue r k v = 6), 6),
    (decide (s.badValue r k v = 5), 5), (s.badBuild k (ofLe v), 0x0F),
    (s.moodRefuses k || s.moodRefusesValue k v, 0x0C), (s.swapRefuses r k, 0x0D),
    (decide (k = K.swapRequest) && s.swapFaultKey.isSome, 0x0E)]

/-- Does the selected thread show its registers (R649)? -/
def State.snapReady (s : State) : Bool :=
  let t := tid (s.sgl K.snapThread)
  decide (s.threadState t = 5) ||
    (match s.threadPart t with
     | some p => [3, 4, 5].contains (s.partState p)
     | none => false)

/-- Is nothing captured for an object that shows a thread (R649)? Then the object is empty, as at reset. DEDUCED (log 44). -/
def State.snapEmpty (s : State) (k : Nat) : Bool :=
  (decide (k = K.snapRegs) || decide (k = K.snapPrivData)) && !s.snapReady

/-- Does the mood, or a unit's state, refuse a read of an object (R51, R236, R649, R650, R690)? -/
def State.readRefused (s : State) (k : Nat) : Bool :=
  (decide (k = K.peekData) && !s.rangeLive (s.sgl K.peekAddress) (s.sgl K.peekLength)) ||
    (decide (k = K.digest) && !s.rangeLive (s.sgl K.digestAddress) (s.sgl K.digestLength)) ||
    s.snapEmpty k ||
    (decide (0x5010 ≤ k / 256) && decide (k / 256 < 0x5050) && [5, 6, 7, 8, 9].contains (k % 256) &&
      !s.coreUp (k / 256 - 0x5010))

/-- The status of a read of an object of `n` bytes at most `most`: orders 5 to 12, `extra` data bytes in the request. -/
def State.readStatus (s : State) (r : ObjRow) (k extra n most : Nat) : Nat :=
  firstCode [(decide (r.acc = .wo), 3), (decide (extra ≠ 0) || (decide (most < n) && !s.snapEmpty k), 4),
    (decide (k = K.snapPrivData) && decide (s.sgl K.snapThread < 64), 5), (s.readRefused k, 0x0C)]

/-! What a request changes. -/

/-- A change that a request makes: what reading an object does, a value written, the object that a refused swap names, or
the segmented transfer of its transport. -/
inductive Eff where
  | readOf (i j : Nat)
  | put (k : Nat) (v : List Byte)
  | refused
  | seg (x : Option Seg)
  deriving DecidableEq, Repr

/-- The answer to a request: its status, its data, and what it changes. -/
structure Answer where
  status : Nat
  data : List Byte
  effs : List Eff
  deriving DecidableEq, Repr

/-- An answer that changes nothing and carries no data. -/
def Answer.only (st : Nat) : Answer := { status := st, data := [], effs := [] }

/-- What a write that has passed its checks does (R53, R689). -/
def State.applyPut (s : State) (k : Nat) (v : List Byte) : State :=
  let n := ofLe v
  let plain : State := match objRow (k / 256) (k % 256) with
    | some r => (match r.ty with
      | .domain _ => if r.set then s.setDomShd k v else s.setDom k v
      | _ => if r.set then s.setShd k n else s.setSgl k n)
    | none => s
  if k = K.swapRequest then s.applySwapRequest.2
  else if k = K.shadowRevert then s.revertShadow
  else if k = K.moodRequest then s.startMove (Mood.ofCode n)
  else if k = K.resetCommand then (if n = 1 then s.resetCore else s.resetConfig)
  else if k = K.deposit then s.applyDeposit n
  else if k = K.batterySoc ∨ k = K.packVoltage ∨ k = K.packResistance ∨ k = K.packMaxCurrent then s.applyBattery k n
  else if k = K.notifyTransport then s.setNotify n
  else if k = K.conjValue then
    let i := s.sgl K.conjSelect
    ((s.setConj i n).ringOwner (i / 256)).answerWaits i
  else if k = K.commission then s.commission
  else if k = K.pokeData then s.storeWrite .host (wbytes (s.sgl K.peekAddress) v)
  else match instOf 0x2410 1 16 k, instOf 0x2410 10 16 k, instOf 0x3010 6 16 k with
    | some p, _, _ => s.applyGrant (pid p) (sext 64 n)
    | _, some p, _ => s.setDeadline (pid p) n
    | _, _, some p => s.beginReset (pid p)
    | none, none, none =>
      match instOf 0x7810 5 16 k, instOf 0x7C10 2 16 k, flushUnit k with
      | some p, _, _ => s.release (pid p)
      | _, some p, _ => s.applyStopAfter (pid p) n
      | _, _, some u => (match s.threadPart u with
        | some p => s.applyFlush u p n
        | none => s)
      | none, none, none => plain

/-- Make a change. MBOX_VECTOR, written over the mailbox, waits for its response to be handed over (R53). -/
def State.applyEff (s : State) (req : Requester) : Eff → State
  | .readOf i j => s.readEffect i j
  | .put k v =>
    if req.via = .mbox ∧ k = K.mboxVector ∧ s.link.mbox.waiting ≠ [] then s.onMbox (fun m => { m with vector := some (ofLe v) })
    else s.applyPut k v
  | .refused => s.applySwapRequest.2
  | .seg x => s.onLink (fun l => { l with segs := vset l.segs (tix req.via) x })

/-! Operations of Table 3-5. -/

/-- The bytes of DESCRIBE. -/
def State.describeBytes (s : State) (r : ObjRow) (i j : Nat) : List Byte :=
  let d : Nat := match r.ty with
    | .domain _ => 0
    | _ => s.dfltOf r i j
  leBytes 1 r.ty.code ++ leBytes 1 r.acc.code ++ leBytes 1 (b2n r.set) ++ [0] ++ leBytes 4 r.ty.size ++ leBytes 8 d

/-- READ and READ_SHADOW. -/
def State.answerRead (s : State) (r : ObjRow) (i j extra : Nat) (shadow : Bool) : Answer :=
  let st := s.readStatus r (key i j) extra (s.objSize shadow r i j) maxData
  if st ≠ 0 then .only st
  else { status := if s.readTorn i j then 0x20 else 0, data := s.objBytes shadow r i j, effs := [.readOf i j] }

/-- WRITE. -/
def State.answerWrite (s : State) (r : ObjRow) (k : Nat) (v : List Byte) : Answer :=
  match s.writeStatus r k v with
  | 0 => { status := 0, data := [], effs := [.put k v] }
  | 0x0E => { status := 0x0E, data := [], effs := [.refused] }
  | st => .only st

/-- The open transfer of a transport. -/
def State.openSeg (s : State) (req : Requester) : Option Seg := (s.link.segs[tix req.via]).filter (fun x => !x.closed)

/-- Is the transport's transfer another requester's (R82)? -/
def State.segBusy (s : State) (req : Requester) : Bool :=
  match s.openSeg req with
  | some x => decide (x.owner ≠ req)
  | none => false

/-- A transfer as it opens. -/
def State.newSeg (s : State) (req : Requester) (write : Bool) (o : ObjRef) (total : Nat) (buf : List Byte) (torn : Bool) :
    Seg :=
  { owner := req, write := write, obj := o, total := total, buf := buf, next := 0, torn := torn, tick := s.tick,
    closed := false, ackStatus := 0, ackData := [] }

/-- Is an object captured at SEG_READ_INIT (R85, R686)? -/
def ObjRow.captured (r : ObjRow) : Bool :=
  match r.ty with
  | .domain _ => true
  | _ => false

/-- SEG_READ_INIT (R83, R85, R234). -/
def State.answerSegRead (s : State) (req : Requester) (o : ObjRef) (r : ObjRow) (i j extra : Nat) : Answer :=
  let n := s.objSize false r i j
  let st := s.readStatus r (key i j) extra n n
  if st ≠ 0 then .only st
  else if s.segBusy req then .only 7
  else
    let torn := r.captured && s.readTorn i j
    let buf := if r.captured then s.objBytes false r i j else []
    { status := if torn then 0x20 else 0, data := leBytes 4 n ++ leBytes 1 (b2n r.captured) ++ leBytes 3 0,
      effs := [.seg (if n = 0 then none else some (s.newSeg req false o n buf torn))] ++
        (if r.captured then [.readOf i j] else []) }

/-- SEG_WRITE_INIT (R87): the orders of a write that need no value. -/
def State.answerSegWrite (s : State) (req : Requester) (o : ObjRef) (r : ObjRow) (k : Nat) (data : List Byte) : Answer :=
  let total := ofLe data
  let st := firstCode [(decide (r.acc = .ro), 3), (decide (data.length ≠ 4) || badTotal r k total, 4), (s.moodRefuses k, 0x0C),
    (s.swapRefuses r k, 0x0D), (s.segBusy req, 7)]
  if st ≠ 0 then .only st else { status := 0, data := [], effs := [.seg (some (s.newSeg req true o total [] false))] }

/-- The bytes that a full segment carries (R83). -/
abbrev segSize : Nat := 238

/-- A segment of a read. -/
def State.segOut (s : State) (x : Seg) (r : ObjRow) (i j num : Nat) : Answer :=
  let src := if r.captured then x.buf else s.objBytes false r i j
  let part := (src.drop (segSize * num)).take segSize
  let st := if x.torn || (!r.captured && s.readTorn i j) then 0x20 else 0
  let done := decide (x.total ≤ segSize * (num + 1))
  let body := leBytes 2 num ++ part
  { status := st, data := body,
    effs := [.seg (some { x with next := num + 1, tick := s.tick, closed := done, ackStatus := st, ackData := body })] ++
      (if r.captured then [] else [.readOf i j]) }

/-- A segment of a write: the last one writes the whole value, or, when a check fails, none of it (R86). -/
def State.segIn (s : State) (x : Seg) (r : ObjRow) (k num : Nat) (bytes : List Byte) : Answer :=
  let buf := x.buf ++ bytes
  let last := decide (x.total ≤ buf.length)
  let a : Answer := if last then s.answerWrite r k buf else .only 0
  let body := if a.status = 0 then leBytes 2 num else []
  { status := a.status, data := body,
    effs := [.seg (some { x with buf := buf, next := num + 1, tick := s.tick, closed := last, ackStatus := a.status,
                                 ackData := body })] ++ a.effs }

/-- A SEG_DATA of its requester keeps an open transfer from timing out, whatever becomes of the segment (R82). -/
def State.touchSeg (s : State) (req : Requester) : List Eff :=
  match (s.openSeg req).filter (fun x => decide (x.owner = req)) with
  | some x => [.seg (some { x with tick := s.tick })]
  | none => []

/-- An answer to a SEG_DATA that moves nothing. -/
def State.segOnly (s : State) (req : Requester) (st : Nat) : Answer := { status := st, data := [], effs := s.touchSeg req }

/-- SEG_DATA (R82 to R86; notes/assumptions/40.md). -/
def State.answerSegData (s : State) (req : Requester) (o : ObjRef) (r : ObjRow) (i j : Nat) (data : List Byte) : Answer :=
  let num := ofLe (data.take 2)
  if data.length < 2 then s.segOnly req 4
  else match (s.link.segs[tix req.via]).filter (fun x => decide (x.owner = req) && decide (x.obj = o)) with
    | none => s.segOnly req 0x0B
    | some x =>
      let want := if x.write then 2 + min segSize (x.total - segSize * num) else 2
      if x.closed = false ∧ num = x.next ∧ data.length ≠ want then s.segOnly req 4
      else if 0 < x.next ∧ num + 1 = x.next then { status := x.ackStatus, data := x.ackData, effs := s.touchSeg req }
      else if x.closed then .only 0x0B
      else if num ≠ x.next then s.segOnly req 0x0A
      else if x.write then s.segIn x r (key i j) num (data.drop 2)
      else s.segOut x r i j num

/-- SEG_ABORT. -/
def State.answerSegAbort (s : State) (req : Requester) (o : ObjRef) (extra : Nat) : Answer :=
  if extra ≠ 0 then .only 4
  else match (s.openSeg req).filter (fun x => decide (x.owner = req) && decide (x.obj = o)) with
    | none => .only 0x0B
    | some _ => { status := 0, data := [], effs := [.seg none] }

/-- The answer to a request (Tables 3-5 and 3-6). -/
def State.replyTo (s : State) (req : Requester) (q : Pdu) : Answer :=
  let i := q.obj.idx.toNat
  let j := q.obj.sub.toNat
  if q.proto ≠ 0x10 ∨ q.status ≠ 0 ∨ maxData < q.data.length then .only 9
  else if q.op = 0 ∨ 9 < q.op then .only 8
  else if q.op = 9 then { status := 0, data := q.data, effs := [] }
  else if idxKnown i = false then .only 1
  else match objRow i j with
    | none => .only 2
    | some r =>
      match q.op with
      | 1 => s.answerRead r i j q.data.length false
      | 2 => s.answerWrite r (key i j) q.data
      | 3 => s.answerRead r i j q.data.length true
      | 4 => { status := 0, data := s.describeBytes r i j, effs := [] }
      | 5 => s.answerSegRead req q.obj r i j q.data.length
      | 6 => s.answerSegWrite req q.obj r (key i j) q.data
      | 7 => s.answerSegData req q.obj r i j q.data
      | _ => s.answerSegAbort req q.obj q.data.length

/-! Executing a request. -/

/-- For how long a duplicate is known (R80). -/
abbrev dupTicks : Nat := 1024

/-- The response kept for a request that repeats the requester's last one (R80). -/
def State.duplicate (s : State) (req : Requester) (q : Pdu) : Option (List Byte) :=
  (s.link.dups.find? (fun d => decide (d.req = req) && decide (d.txn = q.txn) && decide (d.check = q.check) &&
    decide (s.tick < d.tick + dupTicks))).map (fun d => d.resp)

/-- Keep a response, for 32 requesters; the list is oldest first (R80). -/
def State.keepDup (s : State) (req : Requester) (q : Pdu) (resp : List Byte) : State :=
  s.onLink (fun l =>
    let rest := l.dups.filter (fun d => d.req ≠ req)
    { l with dups := rest.drop (rest.length - 31) ++
        [{ req := req, txn := q.txn, check := q.check, resp := resp, tick := s.tick }] })

/-- DUPLICATE_RECORD_EXPIRY (R80). -/
def State.expireDups (s : State) : State :=
  s.onLink (fun l => { l with dups := l.dups.filter (fun d => decide (s.tick < d.tick + dupTicks)) })

/-- Execute a request: R70, R80, then its answer, which is handed over before it takes effect (R53, R694;
notes/assumptions/41.md). A reset that a stronger one overrides is answered only (`acts` false, R139). -/
def State.handle (s : State) (req : Requester) (acts : Bool) (b : List Byte) : State :=
  match parsePdu b with
  | none =>
    let s1 := s.bump K.checkFailed
    if req.via = .mbox then s1.onMbox (fun m => { m with busy := false }) else s1
  | some q =>
    match s.duplicate req q with
    | some resp => (s.bump K.duplicates).respond req resp
    | none =>
      let a := s.replyTo req q
      let resp := pduBytes (q.op % 128 + 128) q.txn.toNat a.status q.obj a.data
      let s1 := (s.respond req resp).keepDup req q resp
      if acts then s1.forEach a.effs (fun u e => u.applyEff req e) else s1

/-! Receipt. -/

/-- The value that a request brings to an object: that of a WRITE, or of the SEG_DATA of a segmented write. The objects of
Table 21-15 are scalars, so one segment carries the whole value. -/
def Pdu.brings (q : Pdu) : Option (List Byte) :=
  if q.op = 2 then some q.data else if q.op = 7 ∧ 2 < q.data.length then some (q.data.drop 2) else none

/-- The class and source in which a request is executed (R36, R689): a write of Table 21-15 has its own. -/
def classOf (req : Requester) (b : List Byte) : Nat × Nat :=
  match parsePdu b with
  | none => (9, (tix req.via).val)
  | some q =>
    let k := key q.obj.idx.toNat q.obj.sub.toNat
    if q.brings = none ∨ q.proto ≠ 0x10 ∨ q.status ≠ 0 ∨ maxData < q.data.length then (9, (tix req.via).val)
    else if k = K.resetCommand then (4, 0)
    else if k = K.swapRequest then (6, 0)
    else if k = K.deposit ∨ k = K.poolLowMark ∨ (K.batterySoc ≤ k ∧ k ≤ K.packMaxCurrent) then (7, 0)
    else match instOf 0x3010 6 16 k, [1, 6, 10, 11].findSome? (fun j => instOf 0x2410 j 16 k) with
      | some p, _ => (4, p + 1)
      | none, some p => (7, p + 1)
      | none, none => (9, (tix req.via).val)

/-- PDUs that a receive buffer holds (R75). -/
def rxRoom : Transport → Nat
  | .mbox => 1 | .i3c => 4 | .t1s => 8

/-- Is a receive buffer full? -/
def State.rxFull (s : State) (t : Transport) : Bool :=
  decide (rxRoom t ≤ (s.link.rx.filter (fun p => decide (p.req.via = t))).length)

/-- A PDU that has passed its transport's own checks enters the receive buffer, or is turned away (R65, R75). -/
def State.receive (s : State) (req : Requester) (b : List Byte) : State :=
  if req.via = .mbox ∧ s.link.mbox.busy then s.bump K.mboxIgnored
  else if s.rxFull req.via then
    (match req.via with
     | .mbox => s.bump K.mboxIgnored
     | .i3c => s.output .i3cNack
     | .t1s => s.bump K.rxDropped)
  else
    let s1 := s.onLink (fun l => { l with rx := l.rx ++ [{ req := req, bytes := b, tick := none }] })
    if req.via = .mbox then s1.onMbox (fun m => { m with busy := true }) else s1

/-- May a PDU reach the device on its transport now (R54, R59, R104)? -/
def State.canReach (s : State) : Transport → Bool
  | .i3c => s.i3cAddressed
  | t => s.linkOpen t

/-- The broadcast MAC address. -/
def broadcast : Mac := 0xFFFFFFFFFFFF

/-- The longest payload of a frame of 1,518 bytes: its two addresses, EtherType and FCS take 18 (Table 3-2). -/
abbrev maxPayload : Nat := 1500

/-- PDU_RECEIVE (R55, R58, R59, R75, Table 3-2): a longer frame, one that is not addressed to the device and one of another
EtherType are discarded without a count. -/
def State.applyReceive (s : State) (t : Transport) (f : Frame) (b : List Byte) : State :=
  if s.canReach t = false then s
  else match t with
    | .t1s =>
      if f.fcsOk = false then s.bump K.checkFailed
      else if f.etherType.toNat ≠ s.sgl K.t1sEthertype ∨ maxPayload < b.length then s
      else if f.dst = Config.mac ∨ (f.dst = broadcast ∧ (at! 0 b 1 = 4 ∨ at! 0 b 1 = 9)) then
        s.receive { via := .t1s, mac := f.src } b
      else s
    | t => s.receive { via := t, mac := 0 } b

/-- Does the machine hold back requests of a class and source (R41)? A transition holds SWAP_REQUEST (R107), and so does a
core-domain reset of the same tick; a reset waits for the next tick when another transition has started in this one
(R106). -/
def State.classHeld (s : State) (c : Nat × Nat) : Bool :=
  (decide (c.1 = 6) && (s.inTransition || s.aon.mood.wiped)) || (decide (c = (4, 0)) && s.justStarted)

/-- Does an earlier request of the same requester wait (R36, R77)? -/
def State.queuedFor (s : State) (req : Requester) : Bool := s.link.rx.any (fun p => decide (p.req = req))

/-- A request arrives whole and is sampled: executed at once, or kept in the receive buffer behind what holds it. -/
def State.request (s : State) (req : Requester) (b : List Byte) : State :=
  if s.canReach req.via = false then s
  else if s.queuedFor req ∨ s.classHeld (classOf req b) then s.receive req b
  else if req.via = .mbox ∧ s.link.mbox.busy then s.bump K.mboxIgnored
  else
    let s1 := if req.via = .mbox then s.onMbox (fun m => { m with busy := true }) else s
    s1.handle req true b

/-- A request of an operation. -/
def State.ask (s : State) (h : Head) (op : Nat) (o : ObjRef) (data : List Byte) : State :=
  s.request h.req (pduBytes op h.txn.toNat 0 o data)

/-- A READ of the object with key `k`. -/
def State.askRead (s : State) (h : Head) (k : Nat) : State := s.ask h 1 (objOf k) []

/-- A SEG_READ_INIT of the object with key `k`. -/
def State.askSegRead (s : State) (h : Head) (k : Nat) : State := s.ask h 5 (objOf k) []

/-- The bytes that a scalar object takes. -/
def sizeOf (k : Nat) : Nat :=
  match objRow (k / 256) (k % 256) with
  | some r => r.ty.size
  | none => 0

/-- A WRITE of the number `v` to the scalar object with key `k`. -/
def State.askWrite (s : State) (h : Head) (k v : Nat) : State := s.ask h 2 (objOf k) (leBytes (sizeOf k) v)

/-- REQ_GO (R64, R65, R67): the bytes that the host has written to MBOX_REQ since the last REQ_GO stand in the buffer, whether
this one is accepted or not; an accepted one submits the buffer. -/
def State.applyReqGo (s : State) (buf : List Byte) : State :=
  if s.hostUp then
    let s1 := s.onMbox (fun m => { m with req := patch m.req 0 (buf.take 256) })
    s1.receive { via := .mbox, mac := 0 } s1.link.mbox.req
  else s

/-- SEG_TIMEOUT (R82). -/
def State.applySegTimeout (s : State) (t : Transport) : State :=
  match (s.link.segs[tix t]).filter (fun x => !x.closed) with
  | none => s
  | some x =>
    if s.tick < x.tick + 4096 then s
    else (s.onLink (fun l => { l with segs := vset l.segs (tix t) none })).bump K.segAbandoned

/-- The FLUSH object of a core or control core. -/
def flushKey (u : ThreadId) : Nat := if u.val < 64 then K.flush u.val else K.ctlFlush (u.val - 64)

/-! Commands. -/

/-- CORE_DOMAIN_RESET. -/
def execCoreDomainReset (h : Head) (s : State) : Host.Outcome State Fault Refusal :=
  .next (s.askWrite h K.resetCommand 1)

/-- CONFIGURATION_RESET. -/
def execConfigurationReset (h : Head) (s : State) : Host.Outcome State Fault Refusal :=
  .next (s.askWrite h K.resetCommand 2)

/-- MOOD_REQUEST. -/
def execMoodRequest (h : Head) (v : Byte) (s : State) : Host.Outcome State Fault Refusal :=
  .next (s.askWrite h K.moodRequest v.toNat)

/-- DEPOSIT. -/
def execDeposit (h : Head) (v : W64) (s : State) : Host.Outcome State Fault Refusal :=
  .next (s.askWrite h K.deposit v.toNat)

/-- GRANT. -/
def execGrant (h : Head) (p : PartId) (v : W64) (s : State) : Host.Outcome State Fault Refusal :=
  .next (s.askWrite h (K.grant p.val) v.toNat)

/-- BATTERY_FEED_WRITE: BATTERY_SOC to PACK_MAX_CURRENT by their subindex. -/
def execBatteryFeedWrite (h : Head) (sub : Fin 4) (v : W32) (s : State) : Host.Outcome State Fault Refusal :=
  .next (s.askWrite h (key 0x2420 (1 + sub.val)) v.toNat)

/-- PDU_RECEIVE. -/
def execPduReceive (t : Transport) (f : Frame) (pdu : List Byte) (s : State) : Host.Outcome State Fault Refusal :=
  .next (s.applyReceive t f pdu)

/-- READ. -/
def execRead (h : Head) (o : ObjRef) (s : State) : Host.Outcome State Fault Refusal :=
  .next (s.ask h 1 o [])

/-- WRITE. -/
def execWrite (h : Head) (o : ObjRef) (data : List Byte) (s : State) : Host.Outcome State Fault Refusal :=
  .next (s.ask h 2 o data)

/-- READ_SHADOW. -/
def execReadShadow (h : Head) (o : ObjRef) (s : State) : Host.Outcome State Fault Refusal :=
  .next (s.ask h 3 o [])

/-- DESCRIBE. -/
def execDescribe (h : Head) (o : ObjRef) (s : State) : Host.Outcome State Fault Refusal :=
  .next (s.ask h 4 o [])

/-- SEG_READ_INIT. -/
def execSegReadInit (h : Head) (o : ObjRef) (s : State) : Host.Outcome State Fault Refusal :=
  .next (s.ask h 5 o [])

/-- SEG_WRITE_INIT. -/
def execSegWriteInit (h : Head) (o : ObjRef) (total : W32) (s : State) : Host.Outcome State Fault Refusal :=
  .next (s.ask h 6 o (leBytes 4 total.toNat))

/-- SEG_DATA. -/
def execSegData (h : Head) (o : ObjRef) (num : BitVec 16) (data : List Byte) (s : State) :
    Host.Outcome State Fault Refusal :=
  .next (s.ask h 7 o (leBytes 2 num.toNat ++ data))

/-- SEG_ABORT. -/
def execSegAbort (h : Head) (o : ObjRef) (s : State) : Host.Outcome State Fault Refusal :=
  .next (s.ask h 8 o [])

/-- ECHO. -/
def execEcho (h : Head) (o : ObjRef) (data : List Byte) (s : State) : Host.Outcome State Fault Refusal :=
  .next (s.ask h 9 o data)

/-- UNKNOWN_OP. -/
def execUnknownOp (h : Head) (op : Byte) (o : ObjRef) (data : List Byte) (s : State) :
    Host.Outcome State Fault Refusal :=
  .next (s.ask h op.toNat o data)

/-- DUPLICATE_RECORD_EXPIRY. -/
def execDuplicateRecordExpiry (s : State) : Host.Outcome State Fault Refusal :=
  .next s.expireDups

/-- SEG_TIMEOUT. -/
def execSegTimeout (t : Transport) (s : State) : Host.Outcome State Fault Refusal :=
  .next (s.applySegTimeout t)

/-- NOTIFY_TRANSPORT_WRITE. -/
def execNotifyTransportWrite (h : Head) (v : Byte) (s : State) : Host.Outcome State Fault Refusal :=
  .next (s.askWrite h K.notifyTransport v.toNat)

/-- REQ_GO. -/
def execReqGo (buf : List Byte) (s : State) : Host.Outcome State Fault Refusal :=
  .next (s.applyReqGo buf)

/-- SWAP_REQUEST. -/
def execSwapRequest (h : Head) (s : State) : Host.Outcome State Fault Refusal :=
  .next (s.askWrite h K.swapRequest 1)

/-- SHADOW_REVERT. -/
def execShadowRevert (h : Head) (s : State) : Host.Outcome State Fault Refusal :=
  .next (s.askWrite h K.shadowRevert 1)

/-- PEEK_DATA: a READ, or a SEG_READ_INIT. -/
def execPeekData (h : Head) (seg : Bool) (s : State) : Host.Outcome State Fault Refusal :=
  .next (if seg then s.askSegRead h K.peekData else s.askRead h K.peekData)

/-- POKE_DATA. -/
def execPokeData (h : Head) (data : List Byte) (s : State) : Host.Outcome State Fault Refusal :=
  .next (s.ask h 2 (objOf K.pokeData) data)

/-- PART_RESET. -/
def execPartReset (h : Head) (p : PartId) (s : State) : Host.Outcome State Fault Refusal :=
  .next (s.askWrite h (K.partReset p.val) 1)

/-- FLUSH_RUN. -/
def execFlushRun (h : Head) (u : ThreadId) (s : State) : Host.Outcome State Fault Refusal :=
  .next (s.askWrite h (flushKey u) 1)

/-- FLUSH_ABANDON_QUEUED. -/
def execFlushAbandonQueued (h : Head) (u : ThreadId) (s : State) : Host.Outcome State Fault Refusal :=
  .next (s.askWrite h (flushKey u) 2)

/-- FLUSH_PREEMPT. -/
def execFlushPreempt (h : Head) (u : ThreadId) (s : State) : Host.Outcome State Fault Refusal :=
  .next (s.askWrite h (flushKey u) 3)

/-- CONJ_VALUE_WRITE. -/
def execConjValueWrite (h : Head) (v : W32) (s : State) : Host.Outcome State Fault Refusal :=
  .next (s.askWrite h K.conjValue v.toNat)

/-- CONJ_VALUE_READ. -/
def execConjValueRead (h : Head) (s : State) : Host.Outcome State Fault Refusal :=
  .next (s.askRead h K.conjValue)

/-- COMMISSION. -/
def execCommission (h : Head) (s : State) : Host.Outcome State Fault Refusal :=
  .next (s.askWrite h K.commission 1)

/-- PART_RELEASE. -/
def execPartRelease (h : Head) (p : PartId) (s : State) : Host.Outcome State Fault Refusal :=
  .next (s.askWrite h (K.partRelease p.val) 1)

/-- STOP_AFTER. -/
def execStopAfter (h : Head) (p : PartId) (n : W64) (s : State) : Host.Outcome State Fault Refusal :=
  .next (s.askWrite h (K.stopAfter p.val) n.toNat)

/-- EVENT_LOG: its 8,192 bytes are read by SEG_READ_INIT (R633, R686). -/
def execEventLog (h : Head) (s : State) : Host.Outcome State Fault Refusal :=
  .next (s.askSegRead h K.eventLog)

/-- SNAP_REGS: its 672 bytes are read by SEG_READ_INIT (R649, R686). -/
def execSnapRegs (h : Head) (s : State) : Host.Outcome State Fault Refusal :=
  .next (s.askSegRead h K.snapRegs)

/-- SNAP_PRIV_DATA: read by SEG_READ_INIT, whatever its length (R649, R686). -/
def execSnapPrivData (h : Head) (s : State) : Host.Outcome State Fault Refusal :=
  .next (s.askSegRead h K.snapPrivData)

/-- DIGEST. -/
def execDigest (h : Head) (s : State) : Host.Outcome State Fault Refusal :=
  .next (s.askRead h K.digest)

end Sys2Proof.Machine
end

