-- ==== Sys2Proof/Machine/Tick.lean ====
section
/-!
DEFINITION. A tick boundary (chapter 2): what is sampled there (R33 to R35), and its application in the class order of
Table 2-2 (R38 to R41), with the audits of Table 18-1, the timers, the telemetry thresholds (R652), and what is counted
after every event of the tick (R113, R116, R153, R620).
-/
namespace Sys2Proof.Machine

/-! Audits (R608 to R614). -/

/-- A relation of Table 18-1 that does not hold: its code, its instance and its part of Table 18-2, its fixed total and the sum
found. -/
structure Broken where
  code : Nat
  inst : Nat
  sub : Nat
  expected : Int
  found : Int
  deriving DecidableEq, Repr

/-- The ledger (R147). -/
def State.auditLedger (s : State) : List Broken :=
  let l := s.ledger
  let all := l.pool + l.poolSpent + l.sum (fun b => b.balance + b.reserved + b.spent)
  let spent := l.poolSpent + l.sum Sub.spent
  if l.deposits ≠ all then [{ code := 1, inst := 0, sub := 0, expected := l.deposits, found := all }]
  else if l.totalReserved ≠ l.sum Sub.reserved then
    [{ code := 1, inst := 0, sub := 0, expected := l.totalReserved, found := l.sum Sub.reserved }]
  else if l.totalSpent ≠ spent then [{ code := 1, inst := 0, sub := 0, expected := l.totalSpent, found := spent }]
  else []

/-- Request credits of the store, by bank group and class (R201). -/
def State.auditStore (s : State) : List Broken :=
  s.store.traffic.broken.map (fun g =>
    { code := 2, inst := g.1, sub := g.2, expected := allotment g.2, found := s.store.traffic.found g.1 g.2 })

/-- Engine queues, then the rings: entries or words in use, and those that are free, make the size (R335). More in use than
the size is what cannot be made up. -/
def State.auditQueues (s : State) : List Broken :=
  let excess (inst used size : Nat) : List Broken :=
    if used ≤ size then [] else [{ code := 3, inst := inst, sub := 0, expected := size, found := used }]
  let ring (r : Fin 80) : Nat := (s.rings[r].tail - s.rings[r].retire).toNat
  (List.finRange 64).flatMap (fun c => excess c.val s.cores[c].used 16) ++
    (List.finRange 16).flatMap (fun p => if s.ringOn (tid (64 + p.val)) then excess (64 + p.val) (ring (tid (64 + p.val)))
      (s.ringGeom (tid (64 + p.val))).2 else []) ++
    (List.finRange 64).flatMap (fun c => if s.ringOn (tid c.val) then excess (80 + c.val) (ring (tid c.val))
      (s.ringGeom (tid c.val)).2 else []) ++
    (List.finRange 16).flatMap (fun p => if s.complOn p.val then excess (144 + p.val)
      (s.parts[p].produced - s.parts[p].consumed).toNat (s.act (K.complEntries p.val)) else [])

/-- Conjunction signals (R361). -/
def State.auditConj (s : State) : List Broken :=
  if s.store.sigAccepted = s.store.sigApplied then []
  else [{ code := 4, inst := 0, sub := 0, expected := s.store.sigAccepted, found := s.store.sigApplied }]

/-- Flits that a receive buffer of a channel holds (Table 16-4). -/
def linkSize (ch : Nat) : Nat := if ch = 4 then 8 else 64

/-- Link credits of the ports that are up, by channel: of a sending direction the credits held, of a receiving one the flits in
its buffer with the credits in return (R561). The rest of each sum is at the far end: more than the size is what this end
can find. -/
def State.auditLinks (s : State) : List Broken :=
  (List.finRange 8).flatMap (fun q =>
    let e := s.ports[q].sess
    if s.ports[q].up = false then []
    else (List.finRange 5).flatMap (fun ch =>
      let held := (e.rxBuf.filter (fun b => decide (b.1 = ch.val))).length + e.ret[ch]
      let found := max e.credits[ch] held
      if found ≤ linkSize ch.val then []
      else [{ code := 5, inst := q.val, sub := ch.val, expected := linkSize ch.val, found := found }]))

/-- Flits of the device (R561). -/
def State.auditFlits (s : State) : List Broken :=
  let f := s.fab
  let held := (s.ports.toList.map (fun (p : Port) => p.sess.rxBuf.length)).sum
  let into := f.received + f.injected
  let out := f.sent + f.ejected + held + f.discarded
  if into = out then [] else [{ code := 6, inst := 0, sub := 0, expected := into, found := out }]

/-- The banks of the bursts of a tap channel that have not returned (R485). -/
def TapCh.due (t : TapCh) : Nat :=
  match t.bus with
  | some b => 2 ^ (b.bank % 64)
  | none => 0

/-- Accumulator tokens of the enabled channels (R485). -/
def State.auditTap (s : State) : List Broken :=
  (List.finRange 4).filterMap (fun h =>
    if s.act (K.tapEnable h.val) = 1 ∧ s.tap[h].heldBanks.toNat ≠ s.tap[h].due then
      some { code := 7, inst := h.val, sub := 0, expected := s.tap[h].heldBanks.toNat, found := s.tap[h].due }
    else none)

/-- Slots of a direction that stand on a ring of their own, neither failed nor the spare (R533). In a receive direction the
spare ring is the one that the far device's map leaves out. -/
def State.placed (s : State) (q : PortId) (rx : Bool) : Nat :=
  let p := s.ports[q]
  let slots := if rx then p.slotsRx else p.slotsTx
  ((List.finRange 16).filter (fun n =>
    let k : Nat := slots[n]
    decide (k < 17) && decide (p.rings[ringIx rx (Fin.ofNat 17 k)] ≠ 5) &&
      !(!rx && p.spared && decide (k = s.pho.spareLine)) && decide ((slots.toList.filter (fun x => x = k)).length = 1))).length

/-- Slots of both directions of the ports that are up (R533). -/
def State.auditLines (s : State) : List Broken :=
  (List.finRange 8).flatMap (fun q => [false, true].filterMap (fun rx =>
    if s.ports[q].up ∧ s.placed q rx ≠ 16 then
      some { code := 8, inst := q.val, sub := b2n rx, expected := 16, found := s.placed q rx }
    else none))

/-- Every relation that does not hold, by code (notes/assumptions/42.md). -/
def State.audit (s : State) : List Broken :=
  s.auditLedger ++ s.auditStore ++ s.auditQueues ++ s.auditConj ++ s.auditLinks ++ s.auditFlits ++ s.auditTap ++ s.auditLines

/-- A failure of class 5: its code, its AUDIT_DETAIL, and AUDIT_EXPECTED and AUDIT_FOUND (R614, Table 18-2). -/
structure Failure where
  code : Nat
  detail : Nat
  expected : Int
  found : Int
  deriving DecidableEq, Repr

/-- A failed audit (CAUSE 0). -/
def Broken.failure (b : Broken) : Failure :=
  { code := b.code, detail := b.code + 2 ^ 8 * b.inst + 2 ^ 16 * b.sub, expected := b.expected, found := b.found }

/-- An error in protected state (CAUSE 1): nothing expected and nothing found. -/
def identityOf : Event → Option Failure
  | .identityError id inst sub =>
    some { code := id.val + 1, detail := id.val + 1 + 2 ^ 8 * inst.toNat + 2 ^ 16 * sub.toNat + 2 ^ 24, expected := 0, found := 0 }
  | _ => none

/-- The mask of the identities concerned (R614). -/
def failMask (l : List Failure) : Nat :=
  (List.range 8).foldl (fun m i => m + (if l.any (fun b => b.code = i + 1) then 2 ^ i else 0)) 0

/-- The first failure of the lowest code. -/
def lowestFail (l : List Failure) : Option Failure := (List.range 9).findSome? (fun c => l.find? (fun b => b.code = c))

/-- Failed audits and errors in protected state, as one event of class 5 (R136, R614). An audit that a reset of this tick
has mended does not fail (R612). -/
def State.failAudit (s : State) (l : List Broken) (errs : List Failure) : State :=
  let all := errs ++ (l.filter (fun b => s.audit.any (fun x => x.code = b.code))).map Broken.failure
  match lowestFail all with
  | none => s
  | some b => s.enterFault (failMask all) b.code b.detail b.expected b.found

/-! Supply monitors and power-goods (R657 to R666). -/

/-- Warning, reset and exit levels of a monitor, in mV (Table 20-5). -/
def monLevels (m : MonId) : Nat × Nat × Nat :=
  at! (0, 0, 0) [(930, 850, 950), (744, 680, 760), (698, 638, 713), (977, 893, 998), (1674, 1530, 1710),
    (1395, 1275, 1425), (3069, 2805, 3135), (1674, 1530, 1710)] m.val

/-- Is a reset level of a monitor among the latched crossings (R664)? -/
def latchedReset (m : MonId) : Event → Bool
  | .supplyReset x => decide (x = m)
  | _ => false
/-- Is a warning? -/
def latchedWarning (m : MonId) : Event → Bool
  | .supplyWarning x => decide (x = m)
  | _ => false

/-- The level that a monitor is sampled at: 1 normal, 2 below warning, 3 below reset (SUPPLY_STATE). -/
def sampledLevel (i : TickInputs) (m : MonId) : Nat :=
  let v := at! 0 i.mv m.val
  if i.arr.any (latchedReset m) ∨ v < (monLevels m).2.1 then 3
  else if i.arr.any (latchedWarning m) ∨ v < (monLevels m).1 then 2
  else 1

/-- A monitor samples its rail; at a planner tick SUPPLY_MV is the mean of the period. -/
def Mon.sample (x : Mon) (v level : Nat) (publish : Bool) : Mon :=
  if x.active then
    let sum := x.sumMv + v
    let n := x.samples + 1
    { x with state := level, minMv := min x.minMv v, mv := if publish then sum / n else x.mv,
             sumMv := if publish then 0 else sum, samples := if publish then 0 else n }
  else x

/-- Power-goods that rise: the rail is good, and its monitors are active (R666). -/
def State.riseGood (s : State) (pg : BitVec 4) : State :=
  let rise := pg &&& s.aon.railEn.setWidth 4 &&& ~~~s.aon.railGood
  s.onAon (fun a =>
    { a with railGood := a.railGood ||| rise,
             mons := Vector.ofFn (fun m : Fin 8 =>
               if monRail m.val < 4 ∧ rise.getLsbD (monRail m.val) then { a.mons[m] with active := true, state := 1 }
               else a.mons[m]) })

/-- Was the monitor sampled below its warning level in the tick before? -/
def State.warned (s : State) (m : MonId) : Bool := decide (2 ≤ s.aon.mons[m].state)

/-- Sample every monitor. -/
def State.sampleMons (s : State) (i : TickInputs) : State :=
  let publish := decide (s.tick % 1024 = 0) && decide (s.aon.lock ≠ 1)
  s.onAon (fun a => { a with mons := Vector.ofFn (fun m : Fin 8 =>
    (a.mons[m]).sample (at! 0 i.mv m.val) (sampledLevel i m) publish) })

/-- A power-good that falls, or that has not risen in time, at the place of its rail's monitor (R659). -/
def State.samplePg (s : State) (pg : BitVec 4) (m : MonId) : State :=
  s.forEach ([RailEn.sram, RailEn.core, RailEn.deep, RailEn.pho].filter (fun r => decide (railMon r = m))) (fun u r =>
    let n := railOf r
    if u.aon.railEn.getLsbD n.val ∧ u.aon.railGood.getLsbD n.val ∧ pg.getLsbD n.val = false then u.applyPgFall n m
    else u.applyPgTimeout n m)

/-- Class 1, by monitor number: reset levels, and power-goods that fall or do not rise in time. -/
def State.class1 (s : State) (pg : BitVec 4) : State :=
  s.forEach (List.finRange 8) (fun u m =>
    (if u.aon.mons[m].active ∧ s.aon.mons[m].state = 3 then u.applySupplyReset m else u).samplePg pg m)

/-- Class 2: warnings; `o` is the machine before the monitors were sampled. -/
def State.class2 (s o : State) : State :=
  s.forEach (List.finRange 8) (fun u m =>
    if u.aon.mons[m].active ∧ u.aon.mons[m].state = 2 then u.warnAct m (!o.warned m) else u)

/-- Is every active monitor sampled above its exit level (R665)? -/
def State.exitGood (s : State) (i : TickInputs) : Bool :=
  (List.finRange 8).all (fun m =>
    !s.aon.mons[m].active || (decide ((monLevels m).2.2 < at! 0 i.mv m.val) && decide (s.aon.mons[m].state < 2)))

/-! Thermal trip (R673, R674). -/

/-- The trip level of a sensor (Table 20-8). -/
def State.tripOf (s : State) (n : SensorId) : W32 := s.actF (if n.val = 11 then K.tripLevelDeep else K.tripLevel)

/-- The event of a sensor's trip. -/
def isTrip (n : SensorId) : Event → Bool
  | .thermalTrip x => decide (x = n)
  | _ => false

/-- Sensors at or above their trip levels. -/
def State.hot (s : State) (i : TickInputs) : List SensorId :=
  (List.finRange 12).filter (fun n => i.arr.any (isTrip n) || fle (s.tripOf n) (at! 0 i.temps n.val))

/-- Does every sensor stand at least 5 °C below its trip level (R674)? -/
def State.cold (s : State) (i : TickInputs) : Bool :=
  (List.finRange 12).all (fun n => fle (fadd (at! 0 i.temps n.val) 0x40A00000) (s.tripOf n))

/-- Count the ticks of R674. -/
def State.coolTick (s : State) (i : TickInputs) : State :=
  let on := (s.hot i).isEmpty && s.cold i
  s.onAon (fun a => { a with thermal := { a.thermal with cool := if on then min 1025 (a.thermal.cool + 1) else 0 } })

/-- Class 3. -/
def State.class3 (s : State) (i : TickInputs) : State :=
  let hot := s.hot i
  let s1 := (s.coolTick i).applyTripClear
  if hot.isEmpty then (if s1.aon.thermal.tripActive then s1.tripAct else s1) else s1.forEach hot State.applyTrip

/-! Requests in their classes (R36, R38, R76). -/

/-- PDUs with no earlier one of their requester: those that a class other than 9 can sample at this boundary. -/
def headsOf : List RxPdu → List RxPdu → List RxPdu
  | [], _ => []
  | p :: l, seen => (if seen.any (fun x => decide (x.req = p.req)) then [] else [p]) ++ headsOf l (p :: seen)

/-- Take a PDU from the buffers and execute it, as a request of the tick in which it was sampled (R30). -/
def State.serve (s : State) (acts : Bool) (p : RxPdu) : State :=
  if s.link.rx.contains p then
    ((s.onLink (fun l => { l with rx := l.rx.erase p, readTick := p.tick })).handle p.req acts p.bytes).onLink
      (fun l => { l with readTick := none })
  else s

/-- Execute the requests of one class and source, in arrival order. -/
def State.serveAll (s : State) (heads : List RxPdu) (c src : Nat) : State :=
  s.forEach (heads.filter (fun p => decide (classOf p.req p.bytes = (c, src)))) (fun u p => u.serve true p)

/-- The number that a request would write to RESET_COMMAND when it is executed: a duplicate, and one that is refused, writes
none (R73, R80). -/
def State.resetValue (s : State) (p : RxPdu) : Option Nat :=
  match parsePdu p.bytes with
  | none => none
  | some q =>
    if (s.duplicate p.req q).isSome then none
    else (s.replyTo p.req q).effs.findSome? (fun e =>
      match e with
      | .put k v => if k = K.resetCommand then some (ofLe v) else none
      | _ => none)

/-- Class 4, source 0: the strongest of the requests acts, the others are answered only (R139). All wait for the next tick
when another transition has started in this one (R106); RST_N is a level, which is sampled again there. -/
def State.class4Reset (s : State) (heads : List RxPdu) (rst : Bool) : State :=
  let cmds := heads.filter (fun p => decide (classOf p.req p.bytes = (4, 0)))
  let asks (n : Nat) : Option RxPdu := cmds.find? (fun p => decide (s.resetValue p = some n))
  let lead := match asks 2 with
    | some p => some p
    | none => if rst then none else asks 1
  let held := s.onMood (fun d => { d with rstAsserted := d.rstAsserted || rst })
  if s.classHeld (4, 0) then held
  else
    let s1 := s.forEach (cmds.filter (fun p => decide (some p ≠ lead))) (fun u p => u.serve false p)
    match lead with
    | some p => (s1.serve true p).onMood (fun d => { d with rstAsserted := d.rstAsserted || rst })
    | none => if rst then s1.applyRstN else s1

/-- Class 4: the external resets, then those of the partitions. RST_N that stays asserted is sampled in every tick (R141). -/
def State.class4 (s : State) (heads : List RxPdu) (rst : Bool) : State :=
  (s.class4Reset heads (rst || s.aon.mood.rstAsserted)).forEach (List.range 16) (fun u p => u.serveAll heads 4 (p + 1))

/-- The next PDU of class 9: mailbox, I3C, 10BASE-T1S; those behind an earlier one of their requester wait. -/
def State.nextFrame (s : State) : Option RxPdu :=
  let ready := (headsOf s.link.rx []).filter (fun p => decide ((classOf p.req p.bytes).1 = 9))
  [Transport.mbox, .i3c, .t1s].findSome? (fun t => ready.find? (fun p => decide (p.req.via = t)))

/-- Class 9: at most `n` PDUs. -/
def State.class9 (s : State) : Nat → State
  | 0 => s
  | n + 1 =>
    match s.nextFrame with
    | some p => (s.serve true p).class9 n
    | none => s

/-! The other classes. -/

/-- An error in a data word. -/
def dataOf : Event → Option Nat
  | .dataError a => some a.toNat
  | _ => none

/-- The first error in a data word of the near tier, or of another, is reported, with the source of its own that each has
(R37, R223, Table 2-1). -/
def State.reportData (s : State) (evs : List Event) (near : Bool) : State :=
  match (evs.filterMap dataOf).filter (fun a => decide (tierOf (gaOff a) = .near) == near) with
  | [] => s
  | a :: _ => s.logRec (if near then 0x0110 else 0x0111) 1 noPart a 0

/-- Class 5: failed audits and errors in protected state, then errors in data words (R136, R223, Table 2-1). The entry into
Fault waits for the next tick when another transition has started in this one (R106): the audits run again there, and the
errors stay latched. -/
def State.class5 (s : State) (evs : List Event) (bad : List Broken) : State :=
  let s1 := if s.justStarted then
      s.onAon (fun a => { a with held := a.held ++ evs.filter (fun e => (identityOf e).isSome) })
    else s.failAudit bad (evs.filterMap identityOf)
  (s1.reportData evs true).reportData evs false

/-- The value last written to a doorbell register. -/
def bellOf (r : Fin 96) : Event → Option W32
  | .doorbell x v => if x = r then some v else none
  | _ => none

/-- Is an event that of a doorbell? -/
def bellEvent : Event → Bool
  | .doorbell .. => true
  | _ => false

/-- Class 8: each doorbell register in turn, with the last value that its latch holds. -/
def State.class8 (s : State) : State :=
  let bells := s.aon.held
  (s.onAon (fun a => { a with held := a.held.filter (fun e => !bellEvent e) })).forEach (List.finRange 96) (fun u r =>
    match (bells.filterMap (bellOf r)).getLast? with
    | some v => u.offerBell r v
    | none => u)

/-- Class 10: the level of WAKE_N, and an assertion that Quiesce has held (R134). -/
def State.class10 (s : State) (level : Bool) : State :=
  let held := s.aon.mood.wakeHeld && decide (s.mood ≠ .quiesce)
  let s1 := if level || held then (s.onMood (fun d => { d with wakeHeld := if held then false else d.wakeHeld })).applyWakeN else s
  s1.onMood (fun d => { d with wakeAsserted := level })

/-- Is partition `p` quiet (R620)? -/
def State.quietNow (s : State) (p : PartId) : Bool :=
  let ts := s.threadsOf p.val
  let heldAfar (t : ThreadId) : Bool :=
    match s.threads[t].wait with
    | .conj ref _ registered _ _ => s.isLocal ref.toNat || registered
    | _ => false
  let streams := (List.finRange 64).any (fun c => s.cores[c].queue.any (fun e =>
    match e with
    | .stream m => decide (m.part = p.val)
    | .verb _ => false))
  let flying := s.fab.outstanding.any (fun r => decide (r.part = p.val)) ||
    s.fab.inject.any (fun m => decide (m.srcPart = p)) ||
    (List.finRange 64).any (fun c => s.cores[c].wbuf.any (fun t => decide (t.part = p.val) && decide (t.remote ≠ 0)))
  s.enabled p.val && decide (s.partState p = 1) && !ts.isEmpty && ts.all (fun t => decide (s.threadState t = 3) && heldAfar t) &&
    (s.verbsOf p.val).isEmpty && !streams && !flying && !s.parts[p].rang &&
    [Mood.listen, .brisk, .full, .brace].contains s.mood

/-- Class 11, in source order; a timer whose condition an earlier event has removed does not fire (R40). -/
def State.class11 (s : State) (i : TickInputs) : State :=
  let s1 := if s.mood = .brace then
      s.onMood (fun d => { d with exitCnt := if s.exitGood i then d.exitCnt + 1 else 0 }) else s
  let s2 := ((s1.applyBraceExit).applyBraceLimit).applySwapForce
  let s3 := s2.forEach (List.finRange 16) (fun u p =>
    if u.quietNow p then u.applyStalemate p else u.onPart p (fun q => { q with quiet := 0 }))
  ((s3.applyLinger).applyPlanner i.meters).missDeadlines

/-- Apply a mislock of port `q`. -/
def State.mislockOf (s : State) (q : PortId) : Event → State
  | .mislock x rx k line => if x = q then s.applyMislock q rx k line else s
  | _ => s
/-- Apply a fade of the comb, or of the mesh input. -/
def State.fadeOf (s : State) (mesh : Bool) : Event → State
  | .fade m line loss => if m = mesh then s.applyFade mesh line loss else s
  | _ => s

/-- Class 12: by port, then the mesh; within each its mislocks, then fades, then the calibration due. -/
def State.class12 (s : State) (evs : List Event) : State :=
  let s1 := s.forEach (List.finRange 8) (fun u q =>
    let u1 := u.forEach evs (fun x e => x.mislockOf q e)
    (if q.val = 0 then u1.forEach evs (fun x e => x.fadeOf false e) else u1).calDueAt q)
  s1.forEach evs (fun x e => x.fadeOf true e)

/-- The value of the object that a telemetry entry watches. -/
def State.watched (s : State) (t : Fin 16) : Nat :=
  let w := s.act (K.telWatch t.val)
  match objRow (bits w 23 8) (bits w 7 0) with
  | some r => s.scalarVal false r (bits w 23 8) (bits w 7 0)
  | none => 0

/-- Telemetry entries whose value has crossed its level since the last boundary, with the value (R652). -/
def State.crossings (s : State) : List (Fin 16 × Nat) :=
  (List.finRange 16).filterMap (fun t =>
    if s.act (K.telArmed t.val) = 1 ∧ s.act (K.telLevel t.val) ≤ s.watched t ∧ s.aon.above[t] = false then some (t, s.watched t)
    else none)

/-- Note which entries stand at or above their levels. -/
def State.noteOver (s : State) : State :=
  s.onAon (fun a => { a with above := Vector.ofFn (fun t : Fin 16 =>
    decide (s.act (K.telArmed t.val) = 1) && decide (s.act (K.telLevel t.val) ≤ s.watched t)) })

/-- Put a crossing into its place: ascending by the watched object. -/
def State.insertCrossing (s : State) (x : Fin 16 × Nat) : List (Fin 16 × Nat) → List (Fin 16 × Nat)
  | [] => [x]
  | y :: l => if s.act (K.telWatch x.1.val) < s.act (K.telWatch y.1.val) then x :: y :: l else y :: s.insertCrossing x l

/-- Class 13. -/
def State.class13 (s : State) (l : List (Fin 16 × Nat)) : State :=
  s.forEach (l.foldl (fun acc x => s.insertCrossing x acc) []) (fun u x =>
    let w := u.act (K.telWatch x.1.val)
    (u.logRec 0x0600 0 noPart x.1.val x.2).notify 4 (w % 2 ^ 24) x.2)

/-! After the events of a tick. -/

/-- Count idle ticks, quiet ticks and ticks without work of each cluster, whose clock starts again with work (R115, R116,
R620). -/
def State.countTick (s : State) : State :=
  let idle := s.idleNow && (lingerStep s.mood).isSome
  let s1 := s.onMood (fun d => { d with lingerCnt := if idle then d.lingerCnt + 1 else 0 })
  let s2 := s1.forEach (List.finRange 16) (fun u p =>
    u.onPart p (fun q => { q with quiet := if u.quietNow p then min 256 (q.quiet + 1) else 0, rang := false }))
  s2.onAon (fun a => { a with clocks := { a.clocks with
    stopped := Vector.ofFn (fun k : Fin 8 => a.clocks.stopped[k] && !s.clusterWork k),
    idle := Vector.ofFn (fun k : Fin 8 => if s.clusterWork k || !s.clusterUp k.val then 0 else a.clocks.idle[k] + 1),
    ran := Vector.ofFn (fun k : Fin 8 => a.clocks.ran[k] || s.clusterWork k) } })

/-- Return receive credits that no other flit has returned (R558). -/
def State.returnCredits (s : State) : State :=
  s.forEach (List.finRange 8) (fun u q =>
    if u.runs && u.ports[q].up && u.ports[q].sess.ret.toList.any (fun n => decide (n ≠ 0)) then u.putNull q false none else u)

/-- What follows the events of a tick: a held floor or ceiling is acted on before the demands (notes/assumptions/45.md), and
a cluster's clock stops 64 ticks after that in which it was first without work (R12). -/
def State.afterTick (s : State) : State :=
  let s1 := (((s.applyBounds).evalDemands).forEach (List.finRange 8) State.applyClusterStop).countTick
  let s2 := ((s1.syncFeed).sampleLows).barAll
  let s3 := s2.forEach [Transport.mbox, .i3c, .t1s] State.applySegTimeout
  ((s3.expireDups).returnCredits).handAll

/-- A tick opens: the tick counter, which stands until the tick oscillator first locks (R28, R143), the doorbells that the
latches hold, the one message per tick of R635, and no transition started yet (R106). The PDUs in the receive buffers are
sampled (R30). -/
def State.openTick (s : State) (arr : List Event) : State :=
  let s1 := s.onAon (fun a =>
    { a with tick := if a.lock = 1 then a.tick else a.tick + 1, held := (a.held ++ arr).filter bellEvent,
             log := { a.log with msixSent := false }, mood := { a.mood with started := none, wiped := false } })
  s1.onLink (fun l => { l with rx := l.rx.map (fun p => { p with tick := p.tick.or (some s1.tick) }) })

/-- Errors have struck a cell of a store word (R222, R223): the next read of the word finds them. Two single errors are beyond
correction together. -/
def Store.strike (t : Store) (w : Nat) (double : Bool) : Store :=
  if isData w = false ∨ t.poison.contains w = true then t
  else if double || t.single.contains w then
    { t with latent := insertNat w t.latent, single := t.single.filter (fun x => x ≠ w) }
  else if t.latent.contains w then t
  else { t with single := insertNat w t.single }

/-- The words that arriving errors name, where a source beside the model's own reads has found them: marked as R223 states. -/
def State.markArrivals (s : State) (arr : List Event) : State :=
  s.forEach (arr.filterMap dataOf) (fun u a =>
    if u.isLocal a && isData (gaOff a) && !u.poisoned (gaOff a) then u.markWord (gaOff a) else u)

/-- The boundary itself: the tick opens, errors have struck, the lock loops have moved their heaters (R525), what becomes
reachable is restored, halts that are complete end. -/
def State.boundary (s : State) (i : TickInputs) : State :=
  let s1 := (s.openTick i.arr).onStore (fun t => i.upsets.foldl (fun t u => t.strike (u.1 / 8 * 8) u.2) t)
  let s2 := ((s1.markArrivals i.arr).lockLoops.addSat K.lateSampleCount i.late).onMood (fun d => { d with tapWake := i.tapWake })
  s2.applyRestore.forEach (List.finRange 16) (fun u p => (u.applyHalted p).applyStopReached p)

/-- TICK_BOUNDARY (R33, R38): nothing happens in Off. A swap takes effect in its class when every unit was ready at the
boundary, before the events of the tick (R94, R98). -/
def State.applyTick (s : State) (i : TickInputs) : State :=
  if s.mood = .off then s
  else
    let evs := s.aon.held ++ i.arr
    let b := s.boundary i
    let heads := headsOf b.link.rx []
    let bad := if b.inFault then [] else b.audit
    let b1 := if b.inFault then b else b.setSgl K.auditLastTick b.tick
    let cross := b1.crossings
    let b2 := if b1.tick % 64 = 0 ∧ b1.aon.lock ≠ 1 then (b1.noteOver).sense i.temps else b1.noteOver
    let g := (b2.riseGood i.pg).syncPower
    let m := g.sampleMons i
    let c3 := ((m.class1 i.pg).class2 g).class3 i
    let c4 := c3.class4 heads (evs.any (fun e => decide (e = .rstN)))
    let c5 := c4.class5 evs bad
    let c6 := if b.swapReady then c5.applySwapEffect else c5
    let c6' := if c6.classHeld (6, 0) then c6 else c6.serveAll heads 6 0
    let c7 := c6'.forEach (List.range 17) (fun u src => u.serveAll heads 7 src)
    let c10 := ((c7.class8).class9 4).class10 (i.wakeN || evs.any (fun e => decide (e = .wakeN)))
    let c13 := (((c10.class11 i).class12 evs)).class13 cross
    c13.afterTick

/-! Command. -/

/-- TICK_BOUNDARY. -/
def execTickBoundary (i : TickInputs) (s : State) : Host.Outcome State Fault Refusal :=
  .next (s.applyTick i)

end Sys2Proof.Machine
end

