-- ==== Sys2Proof/Machine/Dispatch.lean ====
section
/-!
DEFINITION. The one dispatch from a command to its meaning.
-/
namespace Sys2Proof.Machine

/-- What a command does to the device, its queue apart. -/
def exec (i : Instr) (s : State) : Host.Outcome State Fault Refusal :=
  match i with
  | .tickBoundary x => Sys2Proof.Machine.execTickBoundary x s
  | .tickLock => Sys2Proof.Machine.execTickLock s
  | .holdoverEntry => Sys2Proof.Machine.execHoldoverEntry s
  | .tickRelock => Sys2Proof.Machine.execTickRelock s
  | .alwaysOnPowerOn node sled => Sys2Proof.Machine.execAlwaysOnPowerOn node sled s
  | .alwaysOnLoss => Sys2Proof.Machine.execAlwaysOnLoss s
  | .supplyWarning m => Sys2Proof.Machine.execSupplyWarning m s
  | .supplyResetLevel m => Sys2Proof.Machine.execSupplyResetLevel m s
  | .powerGoodTimeout r => Sys2Proof.Machine.execPowerGoodTimeout r s
  | .powerGoodFall r => Sys2Proof.Machine.execPowerGoodFall r s
  | .thermalTrip n => Sys2Proof.Machine.execThermalTrip n s
  | .thermalTripClear => Sys2Proof.Machine.execThermalTripClear s
  | .rstN => Sys2Proof.Machine.execRstN s
  | .wakeN => Sys2Proof.Machine.execWakeN s
  | .coreDomainReset h => Sys2Proof.Machine.execCoreDomainReset h s
  | .configurationReset h => Sys2Proof.Machine.execConfigurationReset h s
  | .enterFault id inst xub => Sys2Proof.Machine.execEnterFault id inst xub s
  | .moodRequest h v => Sys2Proof.Machine.execMoodRequest h v s
  | .floorCeilingRequest => Sys2Proof.Machine.execFloorCeilingRequest s
  | .wakePhaseComplete => Sys2Proof.Machine.execWakePhaseComplete s
  | .clusterClockStop c => Sys2Proof.Machine.execClusterClockStop c s
  | .idleLinger => Sys2Proof.Machine.execIdleLinger s
  | .quiesceStepComplete => Sys2Proof.Machine.execQuiesceStepComplete s
  | .braceExit => Sys2Proof.Machine.execBraceExit s
  | .braceLimit => Sys2Proof.Machine.execBraceLimit s
  | .deposit h v => Sys2Proof.Machine.execDeposit h v s
  | .grant h p v => Sys2Proof.Machine.execGrant h p v s
  | .planner m => Sys2Proof.Machine.execPlanner m s
  | .batteryFeedWrite h sub v => Sys2Proof.Machine.execBatteryFeedWrite h sub v s
  | .batteryStale => Sys2Proof.Machine.execBatteryStale s
  | .energyWaitEnd p => Sys2Proof.Machine.execEnergyWaitEnd p s
  | .pduReceive t f pdu => Sys2Proof.Machine.execPduReceive t f pdu s
  | .read h o => Sys2Proof.Machine.execRead h o s
  | .write h o data => Sys2Proof.Machine.execWrite h o data s
  | .readShadow h o => Sys2Proof.Machine.execReadShadow h o s
  | .describe h o => Sys2Proof.Machine.execDescribe h o s
  | .segReadInit h o => Sys2Proof.Machine.execSegReadInit h o s
  | .segWriteInit h o total => Sys2Proof.Machine.execSegWriteInit h o total s
  | .segData h o num data => Sys2Proof.Machine.execSegData h o num data s
  | .segAbort h o => Sys2Proof.Machine.execSegAbort h o s
  | .echo h o data => Sys2Proof.Machine.execEcho h o data s
  | .unknownOp h op o data => Sys2Proof.Machine.execUnknownOp h op o data s
  | .duplicateRecordExpiry => Sys2Proof.Machine.execDuplicateRecordExpiry s
  | .segTimeout t => Sys2Proof.Machine.execSegTimeout t s
  | .notifyHandover => Sys2Proof.Machine.execNotifyHandover s
  | .notifyTransportWrite h v => Sys2Proof.Machine.execNotifyTransportWrite h v s
  | .i3cPrivateRead taken => Sys2Proof.Machine.execI3cPrivateRead taken s
  | .enec => Sys2Proof.Machine.execEnec s
  | .disec => Sys2Proof.Machine.execDisec s
  | .rstdaa => Sys2Proof.Machine.execRstdaa s
  | .entdaa dyn => Sys2Proof.Machine.execEntdaa dyn s
  | .setdasa static dyn => Sys2Proof.Machine.execSetdasa static dyn s
  | .getpid => Sys2Proof.Machine.execGetpid s
  | .getbcr => Sys2Proof.Machine.execGetbcr s
  | .getdcr => Sys2Proof.Machine.execGetdcr s
  | .getstatus => Sys2Proof.Machine.execGetstatus s
  | .getmxds => Sys2Proof.Machine.execGetmxds s
  | .setmwl n => Sys2Proof.Machine.execSetmwl n s
  | .getmwl => Sys2Proof.Machine.execGetmwl s
  | .setmrl n => Sys2Proof.Machine.execSetmrl n s
  | .getmrl => Sys2Proof.Machine.execGetmrl s
  | .rstact a => Sys2Proof.Machine.execRstact a s
  | .targetResetPattern => Sys2Proof.Machine.execTargetResetPattern s
  | .reqGo buf => Sys2Proof.Machine.execReqGo buf s
  | .rspReadyClear => Sys2Proof.Machine.execRspReadyClear s
  | .ntfReadyClear => Sys2Proof.Machine.execNtfReadyClear s
  | .mailboxRestore => Sys2Proof.Machine.execMailboxRestore s
  | .swapRequest h => Sys2Proof.Machine.execSwapRequest h s
  | .swapTakesEffect => Sys2Proof.Machine.execSwapTakesEffect s
  | .swapForce => Sys2Proof.Machine.execSwapForce s
  | .shadowRevert h => Sys2Proof.Machine.execShadowRevert h s
  | .bar2Read off len => Sys2Proof.Machine.execBar2Read off len s
  | .bar2Write off data => Sys2Proof.Machine.execBar2Write off data s
  | .fetchadd off w64 v => Sys2Proof.Machine.execFetchadd off w64 v s
  | .atomicopSwap off w64 v => Sys2Proof.Machine.execAtomicopSwap off w64 v s
  | .atomicopCas off w64 cmp new => Sys2Proof.Machine.execAtomicopCas off w64 cmp new s
  | .cas128 off => Sys2Proof.Machine.execCas128 off s
  | .bar2CounterRead x => Sys2Proof.Machine.execBar2CounterRead x s
  | .bar2CounterSignal x v => Sys2Proof.Machine.execBar2CounterSignal x v s
  | .tileCommit c => Sys2Proof.Machine.execTileCommit c s
  | .scrubDue deep found => Sys2Proof.Machine.execScrubDue deep found s
  | .refreshDue ch => Sys2Proof.Machine.execRefreshDue ch s
  | .backgroundOverdue u => Sys2Proof.Machine.execBackgroundOverdue u s
  | .deepSelfRefresh ch => Sys2Proof.Machine.execDeepSelfRefresh ch s
  | .peekData h seg => Sys2Proof.Machine.execPeekData h seg s
  | .pokeData h data => Sys2Proof.Machine.execPokeData h data s
  | .partReset h p => Sys2Proof.Machine.execPartReset h p s
  | .partResetComplete p => Sys2Proof.Machine.execPartResetComplete p s
  | .feedDoorbell p v => Sys2Proof.Machine.execFeedDoorbell p v s
  | .ringDoorbell c v => Sys2Proof.Machine.execRingDoorbell c v s
  | .complDoorbell p v => Sys2Proof.Machine.execComplDoorbell p v s
  | .doorbellBadSize r size v => Sys2Proof.Machine.execDoorbellBadSize r size v s
  | .clauseFetch t => Sys2Proof.Machine.execClauseFetch t s
  | .clauseExecute t => Sys2Proof.Machine.execClauseExecute t s
  | .waitGe t ref v => Sys2Proof.Machine.execWaitGe t ref v s
  | .waitSatisfied t => Sys2Proof.Machine.execWaitSatisfied t s
  | .signalAtRetire t ref v => Sys2Proof.Machine.execSignalAtRetire t ref v s
  | .signalNow t ref v => Sys2Proof.Machine.execSignalNow t ref v s
  | .verbPush t second slot adv imm => Sys2Proof.Machine.execVerbPush t second slot adv imm s
  | .pushResume t => Sys2Proof.Machine.execPushResume t s
  | .addressStreamPush t slot => Sys2Proof.Machine.execAddressStreamPush t slot s
  | .memoWaitEnd t => Sys2Proof.Machine.execMemoWaitEnd t s
  | .fenceRelease t => Sys2Proof.Machine.execFenceRelease t s
  | .insnAdd t d a b => Sys2Proof.Machine.execInsnAdd t d a b s
  | .insnSub t d a b => Sys2Proof.Machine.execInsnSub t d a b s
  | .insnAnd t d a b => Sys2Proof.Machine.execInsnAnd t d a b s
  | .insnOr t d a b => Sys2Proof.Machine.execInsnOr t d a b s
  | .insnXor t d a b => Sys2Proof.Machine.execInsnXor t d a b s
  | .insnShl t d a b => Sys2Proof.Machine.execInsnShl t d a b s
  | .insnShr t d a b => Sys2Proof.Machine.execInsnShr t d a b s
  | .insnSra t d a b => Sys2Proof.Machine.execInsnSra t d a b s
  | .insnMul t d a b => Sys2Proof.Machine.execInsnMul t d a b s
  | .insnMulh t d a b => Sys2Proof.Machine.execInsnMulh t d a b s
  | .insnMin t d a b => Sys2Proof.Machine.execInsnMin t d a b s
  | .insnMax t d a b => Sys2Proof.Machine.execInsnMax t d a b s
  | .insnMinu t d a b => Sys2Proof.Machine.execInsnMinu t d a b s
  | .insnMaxu t d a b => Sys2Proof.Machine.execInsnMaxu t d a b s
  | .insnAddi t d a imm => Sys2Proof.Machine.execInsnAddi t d a imm s
  | .insnAndi t d a imm => Sys2Proof.Machine.execInsnAndi t d a imm s
  | .insnOri t d a imm => Sys2Proof.Machine.execInsnOri t d a imm s
  | .insnXori t d a imm => Sys2Proof.Machine.execInsnXori t d a imm s
  | .insnShli t d a sh => Sys2Proof.Machine.execInsnShli t d a sh s
  | .insnShri t d a sh => Sys2Proof.Machine.execInsnShri t d a sh s
  | .insnSrai t d a sh => Sys2Proof.Machine.execInsnSrai t d a sh s
  | .insnLimm t d imm => Sys2Proof.Machine.execInsnLimm t d imm s
  | .insnFadd t d a b => Sys2Proof.Machine.execInsnFadd t d a b s
  | .insnFsub t d a b => Sys2Proof.Machine.execInsnFsub t d a b s
  | .insnFmul t d a b => Sys2Proof.Machine.execInsnFmul t d a b s
  | .insnFdiv t d a b => Sys2Proof.Machine.execInsnFdiv t d a b s
  | .insnFsqrt t d a => Sys2Proof.Machine.execInsnFsqrt t d a s
  | .insnFmin t d a b => Sys2Proof.Machine.execInsnFmin t d a b s
  | .insnFmax t d a b => Sys2Proof.Machine.execInsnFmax t d a b s
  | .insnFcvtif t d a => Sys2Proof.Machine.execInsnFcvtif t d a s
  | .insnFcvtfi t d a => Sys2Proof.Machine.execInsnFcvtfi t d a s
  | .insnCmp t pd cc a b => Sys2Proof.Machine.execInsnCmp t pd cc a b s
  | .insnCmpi t pd cc a imm => Sys2Proof.Machine.execInsnCmpi t pd cc a imm s
  | .insnPand t d a b => Sys2Proof.Machine.execInsnPand t d a b s
  | .insnPor t d a b => Sys2Proof.Machine.execInsnPor t d a b s
  | .insnPxor t d a b => Sys2Proof.Machine.execInsnPxor t d a b s
  | .insnPandn t d a b => Sys2Proof.Machine.execInsnPandn t d a b s
  | .insnSel t d a b p => Sys2Proof.Machine.execInsnSel t d a b p s
  | .insnLdp t d a imm => Sys2Proof.Machine.execInsnLdp t d a imm s
  | .insnStp t d a imm => Sys2Proof.Machine.execInsnStp t d a imm s
  | .insnLdg t d a imm => Sys2Proof.Machine.execInsnLdg t d a imm s
  | .insnStg t d a imm => Sys2Proof.Machine.execInsnStg t d a imm s
  | .insnAtomAdd t d a b w64 => Sys2Proof.Machine.execInsnAtomAdd t d a b w64 s
  | .insnAtomFadd t d a b => Sys2Proof.Machine.execInsnAtomFadd t d a b s
  | .insnAtomMin t d a b w64 => Sys2Proof.Machine.execInsnAtomMin t d a b w64 s
  | .insnAtomMax t d a b w64 => Sys2Proof.Machine.execInsnAtomMax t d a b w64 s
  | .insnAtomUmin t d a b w64 => Sys2Proof.Machine.execInsnAtomUmin t d a b w64 s
  | .insnAtomUmax t d a b w64 => Sys2Proof.Machine.execInsnAtomUmax t d a b w64 s
  | .insnAtomAnd t d a b w64 => Sys2Proof.Machine.execInsnAtomAnd t d a b w64 s
  | .insnAtomOr t d a b w64 => Sys2Proof.Machine.execInsnAtomOr t d a b w64 s
  | .insnAtomXor t d a b w64 => Sys2Proof.Machine.execInsnAtomXor t d a b w64 s
  | .insnAtomSwap t d a b w64 => Sys2Proof.Machine.execInsnAtomSwap t d a b w64 s
  | .insnAtomCas t d a b w64 => Sys2Proof.Machine.execInsnAtomCas t d a b w64 s
  | .insnBr t p neg off => Sys2Proof.Machine.execInsnBr t p neg off s
  | .insnBmc t k cc off => Sys2Proof.Machine.execInsnBmc t k cc off s
  | .insnWinMark t => Sys2Proof.Machine.execInsnWinMark t s
  | .insnWinUnmark t => Sys2Proof.Machine.execInsnWinUnmark t s
  | .insnWset t core w field v => Sys2Proof.Machine.execInsnWset t core w field v s
  | .insnDput t a b => Sys2Proof.Machine.execInsnDput t a b s
  | .insnDget t a b => Sys2Proof.Machine.execInsnDget t a b s
  | .insnQroom t d a => Sys2Proof.Machine.execInsnQroom t d a s
  | .insnFence t => Sys2Proof.Machine.execInsnFence t s
  | .insnMfm t d k => Sys2Proof.Machine.execInsnMfm t d k s
  | .insnRdsr t d sel => Sys2Proof.Machine.execInsnRdsr t d sel s
  | .insnLset t k v => Sys2Proof.Machine.execInsnLset t k v s
  | .insnLdbnz t k off => Sys2Proof.Machine.execInsnLdbnz t k off s
  | .verbRecord c => Sys2Proof.Machine.execVerbRecord c s
  | .scoreboardAdmit c => Sys2Proof.Machine.execScoreboardAdmit c s
  | .verbStart c => Sys2Proof.Machine.execVerbStart c s
  | .verbRetire c => Sys2Proof.Machine.execVerbRetire c s
  | .completionStallEnd c => Sys2Proof.Machine.execCompletionStallEnd c s
  | .preemption c => Sys2Proof.Machine.execPreemption c s
  | .verbResume c => Sys2Proof.Machine.execVerbResume c s
  | .flushRun h u => Sys2Proof.Machine.execFlushRun h u s
  | .flushAbandonQueued h u => Sys2Proof.Machine.execFlushAbandonQueued h u s
  | .flushPreempt h u => Sys2Proof.Machine.execFlushPreempt h u s
  | .flushComplete t => Sys2Proof.Machine.execFlushComplete t s
  | .coreFlushComplete c => Sys2Proof.Machine.execCoreFlushComplete c s
  | .conjValueWrite h v => Sys2Proof.Machine.execConjValueWrite h v s
  | .conjValueRead h => Sys2Proof.Machine.execConjValueRead h s
  | .verbAdd c => Sys2Proof.Machine.execVerbAdd c s
  | .verbSub c => Sys2Proof.Machine.execVerbSub c s
  | .verbMul c => Sys2Proof.Machine.execVerbMul c s
  | .verbFma c => Sys2Proof.Machine.execVerbFma c s
  | .verbMin c => Sys2Proof.Machine.execVerbMin c s
  | .verbMax c => Sys2Proof.Machine.execVerbMax c s
  | .verbAbs c => Sys2Proof.Machine.execVerbAbs c s
  | .verbNeg c => Sys2Proof.Machine.execVerbNeg c s
  | .verbLdexp c => Sys2Proof.Machine.execVerbLdexp c s
  | .verbConvert c => Sys2Proof.Machine.execVerbConvert c s
  | .verbQuant c => Sys2Proof.Machine.execVerbQuant c s
  | .verbDequant c => Sys2Proof.Machine.execVerbDequant c s
  | .verbFunc c => Sys2Proof.Machine.execVerbFunc c s
  | .verbCompare c => Sys2Proof.Machine.execVerbCompare c s
  | .verbSelect c => Sys2Proof.Machine.execVerbSelect c s
  | .verbReduce c => Sys2Proof.Machine.execVerbReduce c s
  | .verbSoftmax c => Sys2Proof.Machine.execVerbSoftmax c s
  | .verbSoftmaxPart c => Sys2Proof.Machine.execVerbSoftmaxPart c s
  | .verbSoftmaxFix c => Sys2Proof.Machine.execVerbSoftmaxFix c s
  | .verbRmsnorm c => Sys2Proof.Machine.execVerbRmsnorm c s
  | .verbRope c => Sys2Proof.Machine.execVerbRope c s
  | .verbCopy c => Sys2Proof.Machine.execVerbCopy c s
  | .verbPermute c => Sys2Proof.Machine.execVerbPermute c s
  | .verbShift c => Sys2Proof.Machine.execVerbShift c s
  | .verbCompress c => Sys2Proof.Machine.execVerbCompress c s
  | .verbExpand c => Sys2Proof.Machine.execVerbExpand c s
  | .verbGather c => Sys2Proof.Machine.execVerbGather c s
  | .verbScatter c => Sys2Proof.Machine.execVerbScatter c s
  | .verbRotate c => Sys2Proof.Machine.execVerbRotate c s
  | .verbReshard c => Sys2Proof.Machine.execVerbReshard c s
  | .tapOffer ch bank fmt dest => Sys2Proof.Machine.execTapOffer ch bank fmt dest s
  | .tapGrant ch => Sys2Proof.Machine.execTapGrant ch s
  | .tapBurstEnd ch b => Sys2Proof.Machine.execTapBurstEnd ch b s
  | .tapAbort ch => Sys2Proof.Machine.execTapAbort ch s
  | .tapBurstTimeout ch => Sys2Proof.Machine.execTapBurstTimeout ch s
  | .tapWaitLimit c => Sys2Proof.Machine.execTapWaitLimit c s
  | .tapStrayBeat ch => Sys2Proof.Machine.execTapStrayBeat ch s
  | .tapLinkMRise ch => Sys2Proof.Machine.execTapLinkMRise ch s
  | .tapTrainingEnd ch ok => Sys2Proof.Machine.execTapTrainingEnd ch ok s
  | .tapLinkFall ch => Sys2Proof.Machine.execTapLinkFall ch s
  | .tapClockStop ch => Sys2Proof.Machine.execTapClockStop ch s
  | .tapWake => Sys2Proof.Machine.execTapWake s
  | .moduleResponse r => Sys2Proof.Machine.execModuleResponse r s
  | .moduleRequestTimeout => Sys2Proof.Machine.execModuleRequestTimeout s
  | .moduleRetry => Sys2Proof.Machine.execModuleRetry s
  | .pilotsPresent q rx found => Sys2Proof.Machine.execPilotsPresent q rx found s
  | .searchCalibrationComplete q rx => Sys2Proof.Machine.execSearchCalibrationComplete q rx s
  | .outOfLock q rx k found => Sys2Proof.Machine.execOutOfLock q rx k found s
  | .pilotCheck q rx k line => Sys2Proof.Machine.execPilotCheck q rx k line s
  | .mislock q rx k line => Sys2Proof.Machine.execMislock q rx k line s
  | .mislockMove k found => Sys2Proof.Machine.execMislockMove k found s
  | .calibrationDue => Sys2Proof.Machine.execCalibrationDue s
  | .rotationMove => Sys2Proof.Machine.execRotationMove s
  | .spareCalibrationStep q rx last => Sys2Proof.Machine.execSpareCalibrationStep q rx last s
  | .calibrationOverdue q rx => Sys2Proof.Machine.execCalibrationOverdue q rx s
  | .fadeSample mon => Sys2Proof.Machine.execFadeSample mon s
  | .spareNotReady => Sys2Proof.Machine.execSpareNotReady s
  | .spareReady => Sys2Proof.Machine.execSpareReady s
  | .handoverStep => Sys2Proof.Machine.execHandoverStep s
  | .commission h => Sys2Proof.Machine.execCommission h s
  | .lossLocation q mon far => Sys2Proof.Machine.execLossLocation q mon far s
  | .train q m => Sys2Proof.Machine.execTrain q m s
  | .trainingTimeout q => Sys2Proof.Machine.execTrainingTimeout q s
  | .linkDown q => Sys2Proof.Machine.execLinkDown q s
  | .retrainLimit q => Sys2Proof.Machine.execRetrainLimit q s
  | .flitReceive q bytes => Sys2Proof.Machine.execFlitReceive q bytes s
  | .remoteRead m => Sys2Proof.Machine.execRemoteRead m s
  | .remoteWrite m => Sys2Proof.Machine.execRemoteWrite m s
  | .tileOpen m => Sys2Proof.Machine.execTileOpen m s
  | .tileData m => Sys2Proof.Machine.execTileData m s
  | .atomic m => Sys2Proof.Machine.execAtomic m s
  | .signal m => Sys2Proof.Machine.execSignal m s
  | .waitReg m => Sys2Proof.Machine.execWaitReg m s
  | .readData m => Sys2Proof.Machine.execReadData m s
  | .writeAck m => Sys2Proof.Machine.execWriteAck m s
  | .tileGrant m => Sys2Proof.Machine.execTileGrant m s
  | .tileAck m => Sys2Proof.Machine.execTileAck m s
  | .atomicData m => Sys2Proof.Machine.execAtomicData m s
  | .waitAnswer m => Sys2Proof.Machine.execWaitAnswer m s
  | .error m => Sys2Proof.Machine.execError m s
  | .moveAnnounce q slot ring => Sys2Proof.Machine.execMoveAnnounce q slot ring s
  | .spareRequest q k => Sys2Proof.Machine.execSpareRequest q k s
  | .calStep q => Sys2Proof.Machine.execCalStep q s
  | .calDone q => Sys2Proof.Machine.execCalDone q s
  | .remoteTimeout tag => Sys2Proof.Machine.execRemoteTimeout tag s
  | .waitReregister t => Sys2Proof.Machine.execWaitReregister t s
  | .meshBringup => Sys2Proof.Machine.execMeshBringup s
  | .slotLoad x => Sys2Proof.Machine.execSlotLoad x s
  | .meshGrant => Sys2Proof.Machine.execMeshGrant s
  | .inputStepDue => Sys2Proof.Machine.execInputStepDue s
  | .meshTempSample temp => Sys2Proof.Machine.execMeshTempSample temp s
  | .meshPowerSample mon => Sys2Proof.Machine.execMeshPowerSample mon s
  | .inputStep r => Sys2Proof.Machine.execInputStep r s
  | .gainStep mon => Sys2Proof.Machine.execGainStep mon s
  | .meshCalOverdue => Sys2Proof.Machine.execMeshCalOverdue s
  | .stalemate p => Sys2Proof.Machine.execStalemate p s
  | .partitionFault p f => Sys2Proof.Machine.execPartitionFault p f s
  | .partitionHalted p => Sys2Proof.Machine.execPartitionHalted p s
  | .partRelease h p => Sys2Proof.Machine.execPartRelease h p s
  | .stopAfter h p n => Sys2Proof.Machine.execStopAfter h p n s
  | .stopReached p => Sys2Proof.Machine.execStopReached p s
  | .eventLog h => Sys2Proof.Machine.execEventLog h s
  | .snapRegs h => Sys2Proof.Machine.execSnapRegs h s
  | .snapPrivData h => Sys2Proof.Machine.execSnapPrivData h s
  | .digest h => Sys2Proof.Machine.execDigest h s
  | .rstNRelease => Sys2Proof.Machine.execRstNRelease s
  | .crystalEdgesReturn => Sys2Proof.Machine.execCrystalEdgesReturn s
  | .verbFill c => Sys2Proof.Machine.execVerbFill c s
  | .t1sTransmitOpportunity => Sys2Proof.Machine.execT1sTransmitOpportunity s

end Sys2Proof.Machine
end

