-- ==== Sys2Proof/Safety.lean ====
section
/-!
DEFINITION. What claims mean by a step that completes, and by a state whose shared promises hold.
-/
namespace Sys2Proof.Safety

open Sys2Proof.Machine

/-- An outcome that is a next state. -/
def completes (o : Host.Outcome State Fault Refusal) : Prop := ∃ t, o = .next t

/-- The relations of R147 hold of the ledger. -/
def ledgerOk (s : State) : Prop := s.ledger.ok = true

/-- The central store and every private memory are in canonical form. -/
def memoriesOk (s : State) : Prop :=
  Memory.wf s.store.mem = true ∧ ∀ t : ThreadId, Memory.wf s.threads[t].priv = true

/-- Both copies of the dictionary and the conjunction counters are in canonical form: nothing is listed twice, and nothing
is listed that an unlisted key reads as. -/
def mapsOk (s : State) : Prop :=
  SMap.wf objDflt s.dict.act = true ∧ SMap.wf objDflt s.dict.shd = true ∧ SMap.wf objDflt s.dict.sgl = true ∧
    SMap.wf domDflt s.dict.dact = true ∧ SMap.wf domDflt s.dict.dshd = true ∧ SMap.wf domDflt s.dict.dsgl = true ∧
    SMap.wf (fun _ => 0) s.store.conj = true

/-- The promises that every step keeps. -/
def sound (s : State) : Prop := ledgerOk s ∧ memoriesOk s ∧ mapsOk s

end Sys2Proof.Safety
end

