-- ==== Sys2Proof/Certificates/Slice0/Obligations.lean ====
section
/-!
DEFINITION. The statements for the provers.
-/

/-! Frames and results, in which the statements are written. -/

namespace Sys2Proof.Claims

open Sys2Proof.Machine

/-- Thread `t` of partition `p` is a control core's and may execute an instruction now. -/
def onControl (s : State) (t : ThreadId) (p : PartId) : Prop := s.ready t = some p ∧ 64 ≤ t.val

/-- Thread `t` of partition `p` is the ring thread of a core and may execute an instruction now. -/
def onCore (s : State) (t : ThreadId) (p : PartId) : Prop := s.ready t = some p ∧ t.val < 64

/-- No thread but `t` differs. -/
def otherThreads (s u : State) (t : ThreadId) : Prop := ∀ i, i ≠ t → u.threads[i] = s.threads[i]

/-- Nothing differs but thread `t`. -/
def sameButThread (s u : State) (t : ThreadId) : Prop :=
  otherThreads s u t ∧ { u with threads := s.threads } = s

/-- Nothing of a thread differs but its scalar registers. -/
def sameButScalars (h k : Thread) : Prop := { k with s := h.s } = h

/-- Scalar register `d` of thread `t` has taken `v`, s0 apart, and nothing else of the threads differs. -/
def scalarTook (s u : State) (t : ThreadId) (d : SReg) (v : W64) : Prop :=
  u.threads[t].sget d = (if d = 0 then 0 else v) ∧ (∀ r, r ≠ d → u.threads[t].sget r = s.threads[t].sget r) ∧
    sameButScalars s.threads[t] u.threads[t] ∧ otherThreads s u t

/-- Scalar register `d` of thread `t` has taken `v`, s0 apart, and nothing else differs. -/
def wroteScalar (s u : State) (t : ThreadId) (d : SReg) (v : W64) : Prop :=
  scalarTook s u t d v ∧ { u with threads := s.threads } = s

/-- Predicate register `d` of thread `t` has taken `v`, p0 apart, and nothing else differs. -/
def wrotePredicate (s u : State) (t : ThreadId) (d : PReg) (v : Bool) : Prop :=
  u.threads[t].pget d = (if d = 0 then true else v) ∧ (∀ r, r ≠ d → u.threads[t].pget r = s.threads[t].pget r) ∧
    { u.threads[t] with p := s.threads[t].p } = s.threads[t] ∧ sameButThread s u t

/-- The only plain objects that may differ are those of `ks`. -/
def onlyObjects (s u : State) (ks : List Nat) : Prop :=
  (∀ k, k ∉ ks → u.sgl k = s.sgl k) ∧ { u.dict with sgl := s.dict.sgl } = s.dict

/-- The objects that writing a record or queueing a notification may count in. -/
def logKeys : List Nat := [K.eventLogLost, K.telRecords, K.notifyDropped]

/-- The log has gained exactly this record (R632, R634). -/
def logged (s u : State) (src sev part a b : Nat) : Prop :=
  u.aon.log.seq = wrap32 (s.aon.log.seq + 1) ∧
    u.aon.log.recs = (if 256 ≤ s.aon.log.recs.length then s.aon.log.recs.drop 1 else s.aon.log.recs) ++
      [{ tick := s.tick, seq := u.aon.log.seq, source := src, severity := sev, part := part, a := a, b := b }]

/-- The value of `n` little-endian bytes from `a` (R10). -/
def leValue (m : Memory) (a n : Nat) : Nat := ((List.range n).map (fun i => (m.read (a + i)).toNat * 256 ^ i)).sum

/-- The `n` bytes at `o` can be read: no word of them is poisoned or holds an error that no read corrects (R222 to R224). -/
def readable (s : State) (o n : Nat) : Prop := wordsRead s.store.latent o n = [] ∧ s.anyPoison o n = false

/-- The objects that an access to the store may count in: the lines of each tier and the errors corrected. -/
def lineKeys : List Nat := [K.telNearLines, K.telDeepLines, K.correctedNear, K.correctedDeep]

/-- The `n` bytes at `o` have taken those of `v`, a guarded one apart, and every other byte reads as before. -/
def stored (s u : State) (o n v : Nat) : Prop :=
  (∀ i, i < n → u.store.mem.read (o + i) =
    if guarded s.guards (o + i) then s.store.mem.read (o + i) else BitVec.ofNat 8 (v / 256 ^ i)) ∧
  ∀ j, (j < o ∨ o + n ≤ j) → u.store.mem.read j = s.store.mem.read j

/-- The thread of a command that is an instruction of Table 8-12. -/
def insnOf : Instr → Option ThreadId
  | .insnAdd t _ _ _ | .insnSub t _ _ _ | .insnAnd t _ _ _ | .insnOr t _ _ _ | .insnXor t _ _ _ | .insnShl t _ _ _
  | .insnShr t _ _ _ | .insnSra t _ _ _ | .insnMul t _ _ _ | .insnMulh t _ _ _ | .insnMin t _ _ _ | .insnMax t _ _ _
  | .insnMinu t _ _ _ | .insnMaxu t _ _ _ | .insnAddi t _ _ _ | .insnAndi t _ _ _ | .insnOri t _ _ _ | .insnXori t _ _ _
  | .insnShli t _ _ _ | .insnShri t _ _ _ | .insnSrai t _ _ _ | .insnLimm t _ _ | .insnFadd t _ _ _ | .insnFsub t _ _ _
  | .insnFmul t _ _ _ | .insnFdiv t _ _ _ | .insnFsqrt t _ _ | .insnFmin t _ _ _ | .insnFmax t _ _ _ | .insnFcvtif t _ _
  | .insnFcvtfi t _ _ | .insnCmp t _ _ _ _ | .insnCmpi t _ _ _ _ | .insnPand t _ _ _ | .insnPor t _ _ _
  | .insnPxor t _ _ _ | .insnPandn t _ _ _ | .insnSel t _ _ _ _ | .insnLdp t _ _ _ | .insnStp t _ _ _ | .insnLdg t _ _ _
  | .insnStg t _ _ _ | .insnAtomAdd t _ _ _ _ | .insnAtomFadd t _ _ _ | .insnAtomMin t _ _ _ _ | .insnAtomMax t _ _ _ _
  | .insnAtomUmin t _ _ _ _ | .insnAtomUmax t _ _ _ _ | .insnAtomAnd t _ _ _ _ | .insnAtomOr t _ _ _ _
  | .insnAtomXor t _ _ _ _ | .insnAtomSwap t _ _ _ _ | .insnAtomCas t _ _ _ _ | .insnBr t _ _ _ | .insnBmc t _ _ _
  | .insnWinMark t | .insnWinUnmark t | .insnWset t _ _ _ _ | .insnDput t _ _ | .insnDget t _ _ | .insnQroom t _ _
  | .insnFence t | .insnMfm t _ _ | .insnRdsr t _ _ | .insnLset t _ _ | .insnLdbnz t _ _ => some t
  | _ => none

/-- The instructions legal in a core's clauses (R308); a branch names p0 there. -/
def legalOnCore : Instr → Bool
  | .insnBr _ q _ _ => decide (q = 0)
  | .insnBmc _ _ _ _ | .insnWinMark _ | .insnWinUnmark _ | .insnWset _ _ _ _ _ | .insnFence _ | .insnLset _ _ _
  | .insnLdbnz _ _ _ => true
  | _ => false

/-- Thread `t` of partition `p` has stopped with a thread fault of the given cause, reported at slot index 1, and nothing
else has changed but the record of it (R311 to R314). -/
def stoppedBy (s u : State) (t : ThreadId) (p : PartId) (cause : Nat) : Prop :=
  u.threads[t] = { s.threads[t] with
    run := 5, faultWord := BitVec.ofNat 16 (cause + 0x100), faultAddr := BitVec.ofNat 64 (s.clauseAddr t), wait := .none,
    cl := ClauseSt.reset, fetchq := [] } ∧
  otherThreads s u t ∧ logged s u 0x0210 2 p.val (cause + 0x100) (s.clauseAddr t) ∧ onlyObjects s u logKeys ∧
  { u with aon := s.aon, dict := s.dict, link := s.link, threads := s.threads } = s ∧ u.aon.mood = s.aon.mood

/-- The verb and the core of a command that runs one tile of a verb. -/
def verbOf : Instr → Option (Op × CoreId)
  | .verbAdd c => some (.add, c)
  | .verbSub c => some (.sub, c)
  | .verbMul c => some (.mul, c)
  | .verbFma c => some (.fma, c)
  | .verbMin c => some (.min, c)
  | .verbMax c => some (.max, c)
  | .verbAbs c => some (.abs, c)
  | .verbNeg c => some (.neg, c)
  | .verbLdexp c => some (.ldexp, c)
  | .verbConvert c => some (.convert, c)
  | .verbQuant c => some (.quant, c)
  | .verbDequant c => some (.dequant, c)
  | .verbFunc c => some (.func, c)
  | .verbCompare c => some (.compare, c)
  | .verbSelect c => some (.select, c)
  | .verbReduce c => some (.reduce, c)
  | .verbSoftmax c => some (.softmax, c)
  | .verbSoftmaxPart c => some (.softmaxPart, c)
  | .verbSoftmaxFix c => some (.softmaxFix, c)
  | .verbRmsnorm c => some (.rmsnorm, c)
  | .verbRope c => some (.rope, c)
  | .verbCopy c => some (.copy, c)
  | .verbPermute c => some (.permute, c)
  | .verbShift c => some (.shift, c)
  | .verbCompress c => some (.compress, c)
  | .verbExpand c => some (.expand, c)
  | .verbGather c => some (.gather, c)
  | .verbScatter c => some (.scatter, c)
  | .verbRotate c => some (.rotate, c)
  | .verbReshard c => some (.reshard, c)
  | .verbFill c => some (.fill, c)
  | _ => none

/-- A request of `h.req` for object `o` reaches the device and is executed as it arrives: its transport is open, nothing holds
it back (R36, R41, R77, R106), and it repeats no transaction of a response that is kept (R80). -/
def reaches (s : State) (h : Head) (o : ObjRef) : Prop :=
  s.canReach h.req.via = true ∧ s.queuedFor h.req = false ∧
    (o = objOf K.swapRequest → s.inTransition = false ∧ s.aon.mood.wiped = false) ∧
    (o = objOf K.resetCommand → s.justStarted = false) ∧
    (h.req.via = .mbox → s.link.mbox.busy = false) ∧ ∀ d, d ∈ s.link.dups → d.req = h.req → d.txn ≠ h.txn

/-- The response to operation `op` of request `h` (Tables 3-4 to 3-6). -/
def response (h : Head) (op status : Nat) (o : ObjRef) (data : List Byte) : List Byte :=
  pduBytes (op % 128 + 128) h.txn.toNat status o data

/-- The first thing the device has sent is the response to operation `op` of request `h`. -/
def answered (s u : State) (h : Head) (op status : Nat) (o : ObjRef) (data : List Byte) : Prop :=
  ∃ rest, u.link.out = s.link.out ++ .pdu h.req (response h op status o data) :: rest

/-- A response has come to its transport: MBOX_RSP, when it is free, the I3C responses or a 10BASE-T1S frame (R66, R79). -/
def handed (s u : State) (h : Head) (b : List Byte) : Prop :=
  match h.req.via with
  | .mbox =>
    if s.link.mbox.rspReady = false ∧ s.link.mbox.waiting = [] then
      u.link.mbox = { s.link.mbox with rsp := patch s.link.mbox.rsp 0 b, rspReady := true, busy := false }
    else u.link.mbox = { s.link.mbox with waiting := s.link.mbox.waiting ++ [b], busy := true }
  | .i3c => u.link.i3c = { s.link.i3c with rsp := s.link.i3c.rsp ++ [b] }
  | .t1s => u.link.t1sTx = s.link.t1sTx ++ [s.frameOf h.req.mac b]

/-- Nothing of the transports differs but what a response changes. -/
def linkKept (s u : State) : Prop :=
  { u.link with out := s.link.out, mbox := s.link.mbox, i3c := s.link.i3c, t1sTx := s.link.t1sTx, dups := s.link.dups,
                msixPba := s.link.msixPba } = s.link

/-- The outcome is the response to operation `op` of request `h`, and nothing else has changed. -/
def answersOnly (s : State) (r : Host.Outcome State Fault Refusal) (h : Head) (op status : Nat) (o : ObjRef)
    (data : List Byte) : Prop :=
  ∃ u, r = .next u ∧ answered s u h op status o data ∧ handed s u h (response h op status o data) ∧ linkKept s u ∧
    { u with link := s.link } = s

/-- The transition of Table 4-3 from the current mood to `d` has begun: a wake, or the lowering from Full to Brisk, with its first
phase; Quiesce with its target; or Hush, which is entered at once. -/
def began (s u : State) (d : Mood) : Prop :=
  if (s.mood.code < d.code ∧ d ≠ .hush) ∨ (s.mood = .full ∧ d = .brisk) then
    u.mood = s.mood ∧ u.aon.mood.target = d ∧ u.aon.mood.phase = at! 0 (wakePhases s.mood d) 0 ∧
      u.aon.mood.trans = some (Sys2Proof.Machine.Trans.mk s.mood d (wakePhases s.mood d) false false)
  else if 4 ≤ s.mood.code then
    u.mood = .quiesce ∧ u.aon.mood.target = d ∧ u.aon.mood.phase = 17 ∧ u.aon.mood.trans = none ∧ u.aon.mood.entryTick = s.tick
  else u.mood = .hush ∧ u.aon.mood.target = .hush ∧ u.aon.mood.entryTick = s.tick

end Sys2Proof.Claims
/-! Instructions of control cores (chapter 8). -/

open Sys2Proof Sys2Proof.Machine Sys2Proof.Claims in
/-- R301, the first row of Table 8-12: the fourteen integer operations on two registers.
R301, R306, R291: the operations whose second operand is in the instruction, and the reads of a memo register, of the
queue room and of the thread's own numbers. -/
def Obligations.IntegerOpsAndReadsWriteTheirResult : Prop :=
  (
  ∀ (s : State) (t : ThreadId) (p : PartId) (d a b : SReg), onControl s t p →
    let x := s.threads[t].sget a
    let y := s.threads[t].sget b
    let n := y.toNat % 64
    let gives (c : Instr) (v : W64) : Prop := ∃ u, exec c s = .next u ∧ wroteScalar s u t d v
    gives (.insnAdd t d a b) (BitVec.ofNat 64 (x.toNat + y.toNat)) ∧
    gives (.insnSub t d a b) (BitVec.ofInt 64 (x.toInt - y.toInt)) ∧
    gives (.insnAnd t d a b) (x &&& y) ∧
    gives (.insnOr t d a b) (x ||| y) ∧
    gives (.insnXor t d a b) (x ^^^ y) ∧
    gives (.insnShl t d a b) (BitVec.ofNat 64 (x.toNat * 2 ^ n)) ∧
    gives (.insnShr t d a b) (BitVec.ofNat 64 (x.toNat / 2 ^ n)) ∧
    gives (.insnSra t d a b) (BitVec.ofInt 64 (x.toInt / 2 ^ n)) ∧
    gives (.insnMul t d a b) (BitVec.ofNat 64 (x.toNat * y.toNat)) ∧
    gives (.insnMulh t d a b) (BitVec.ofInt 64 (x.toInt * y.toInt / 2 ^ 64)) ∧
    gives (.insnMin t d a b) (BitVec.ofInt 64 (min x.toInt y.toInt)) ∧
    gives (.insnMax t d a b) (BitVec.ofInt 64 (max x.toInt y.toInt)) ∧
    gives (.insnMinu t d a b) (BitVec.ofNat 64 (min x.toNat y.toNat)) ∧
    gives (.insnMaxu t d a b) (BitVec.ofNat 64 (max x.toNat y.toNat))) ∧
  (
  ∀ (s : State) (t : ThreadId) (p : PartId) (d a b : SReg) (imm : BitVec 14) (sh : BitVec 6) (w : W64) (q : PReg) (k : MReg),
    onControl s t p →
    let x := s.threads[t].sget a
    let gives (c : Instr) (v : W64) : Prop := ∃ u, exec c s = .next u ∧ wroteScalar s u t d v
    gives (.insnAddi t d a imm) (BitVec.ofInt 64 (x.toInt + imm.toInt)) ∧
    gives (.insnAndi t d a imm) (x &&& BitVec.ofInt 64 imm.toInt) ∧
    gives (.insnOri t d a imm) (x ||| BitVec.ofInt 64 imm.toInt) ∧
    gives (.insnXori t d a imm) (x ^^^ BitVec.ofInt 64 imm.toInt) ∧
    gives (.insnShli t d a sh) (BitVec.ofNat 64 (x.toNat * 2 ^ sh.toNat)) ∧
    gives (.insnShri t d a sh) (BitVec.ofNat 64 (x.toNat / 2 ^ sh.toNat)) ∧
    gives (.insnSrai t d a sh) (BitVec.ofInt 64 (x.toInt / 2 ^ sh.toNat)) ∧
    gives (.insnLimm t d w) w ∧
    gives (.insnSel t d a b q) (if s.threads[t].pget q then x else s.threads[t].sget b) ∧
    gives (.insnRdsr t d 0) (BitVec.ofNat 64 p.val) ∧
    gives (.insnRdsr t d 1) (BitVec.ofNat 64 (s.act K.deviceNumber)) ∧
    gives (.insnRdsr t d 2) (BitVec.ofNat 64 (t.val - 64)) ∧
    gives (.insnRdsr t d 3) (BitVec.ofNat 64 (s.act (K.coreMask p.val))) ∧
    gives (.insnQroom t d a) (BitVec.ofNat 64
      (if s.act (K.replayEnable p.val) = 1 then 16 else 16 - (s.cores[cid (x.toNat % 64)].queue).length)) ∧
    (s.threads[t].pend[k] = 0 → gives (.insnMfm t d k) s.threads[t].m[k]))

open Sys2Proof Sys2Proof.Machine Sys2Proof.Claims in
/-- R301, major opcode 0x0A: the binary32 operations take bits [31:0], and the upper half of a binary32 result is zero.
R301, majors 0x0B to 0x0D: compares and predicate operations. -/
def Obligations.FloatOpsAndComparesWriteTheirResult : Prop :=
  (
  ∀ (s : State) (t : ThreadId) (p : PartId) (d a b : SReg), onControl s t p →
    let x : W32 := (s.threads[t].sget a).setWidth 32
    let y : W32 := (s.threads[t].sget b).setWidth 32
    let gives (c : Instr) (v : W64) : Prop := ∃ u, exec c s = .next u ∧ wroteScalar s u t d v
    gives (.insnFadd t d a b) ((fadd x y).setWidth 64) ∧
    gives (.insnFsub t d a b) ((fsub x y).setWidth 64) ∧
    gives (.insnFmul t d a b) ((fmul x y).setWidth 64) ∧
    gives (.insnFdiv t d a b) ((fdiv x y).setWidth 64) ∧
    gives (.insnFsqrt t d a) ((fsqrt x).setWidth 64) ∧
    gives (.insnFmin t d a b) ((fmin x y).setWidth 64) ∧
    gives (.insnFmax t d a b) ((fmax x y).setWidth 64) ∧
    gives (.insnFcvtif t d a) ((fofInt (s.threads[t].sget a).toInt).setWidth 64) ∧
    gives (.insnFcvtfi t d a) (match (fval x).toInt 2 0 with
      | none => 0
      | some i => BitVec.ofInt 64 (max (-(2 ^ 63)) (min (2 ^ 63 - 1) i)))) ∧
  (
  ∀ (s : State) (t : ThreadId) (p : PartId) (pd pa pb : PReg) (a b : SReg) (imm : BitVec 14), onControl s t p →
    let x := s.threads[t].sget a
    let y := s.threads[t].sget b
    let i : Int := imm.toInt
    let m := s.threads[t].pget pa
    let n := s.threads[t].pget pb
    let gives (c : Instr) (v : Bool) : Prop := ∃ u, exec c s = .next u ∧ wrotePredicate s u t pd v
    gives (.insnCmp t pd 0 a b) (decide (x = y)) ∧
    gives (.insnCmp t pd 1 a b) (decide (x ≠ y)) ∧
    gives (.insnCmp t pd 2 a b) (decide (x.toInt < y.toInt)) ∧
    gives (.insnCmp t pd 3 a b) (decide (y.toInt ≤ x.toInt)) ∧
    gives (.insnCmp t pd 4 a b) (decide (x.toNat < y.toNat)) ∧
    gives (.insnCmp t pd 5 a b) (decide (y.toNat ≤ x.toNat)) ∧
    gives (.insnCmp t pd 6 a b) (flt (x.setWidth 32) (y.setWidth 32)) ∧
    gives (.insnCmp t pd 7 a b) (fle (y.setWidth 32) (x.setWidth 32)) ∧
    gives (.insnCmpi t pd 0 a imm) (decide (x.toInt = i)) ∧
    gives (.insnCmpi t pd 1 a imm) (decide (x.toInt ≠ i)) ∧
    gives (.insnCmpi t pd 2 a imm) (decide (x.toInt < i)) ∧
    gives (.insnCmpi t pd 3 a imm) (decide (i ≤ x.toInt)) ∧
    gives (.insnCmpi t pd 4 a imm) (decide (x.toNat < (BitVec.ofInt 64 i).toNat)) ∧
    gives (.insnCmpi t pd 5 a imm) (decide ((BitVec.ofInt 64 i).toNat ≤ x.toNat)) ∧
    gives (.insnPand t pd pa pb) (m && n) ∧
    gives (.insnPor t pd pa pb) (m || n) ∧
    gives (.insnPxor t pd pa pb) (decide (m ≠ n)) ∧
    gives (.insnPandn t pd pa pb) (m && !n))

/-! Memory as a control core reaches it (chapters 6 and 8). -/

open Sys2Proof Sys2Proof.Machine Sys2Proof.Claims in
/-- R302: ldp and stp. A private address that is misaligned or out of range, of dput and dget too, stops the thread, and no byte is
accessed.
R303: ldg and stg on the device's own store. A guarded byte is not written (R230). -/
def Obligations.LoadsAndStoresReachTheirEightBytes : Prop :=
  (
  ∀ (s : State) (t : ThreadId) (p : PartId) (d a : SReg) (imm : BitVec 14), onControl s t p → Safety.sound s →
    let x := (BitVec.ofInt 64 ((s.threads[t].sget a).toInt + imm.toInt)).toNat
    (x % 8 = 0 ∧ x + 8 ≤ 0x40000 →
      (∃ u, exec (.insnLdp t d a imm) s = .next u ∧ wroteScalar s u t d (BitVec.ofNat 64 (leValue s.threads[t].priv x 8))) ∧
      (∃ u, exec (.insnStp t d a imm) s = .next u ∧ sameButThread s u t ∧
        { u.threads[t] with priv := s.threads[t].priv } = s.threads[t] ∧
        (∀ i, i < 8 → u.threads[t].priv.read (x + i) = BitVec.ofNat 8 ((s.threads[t].sget d).toNat / 256 ^ i)) ∧
        ∀ j, (j < x ∨ x + 8 ≤ j) → u.threads[t].priv.read j = s.threads[t].priv.read j)) ∧
    (¬ (x % 8 = 0 ∧ x + 8 ≤ 0x40000) → ∀ c, (c = Instr.insnLdp t d a imm ∨ c = Instr.insnStp t d a imm) →
      ∃ u, exec c s = .next u ∧ u.threads[t].run = 5 ∧ u.threads[t].faultWord = 0x0111 ∧
        u.threads[t].priv = s.threads[t].priv ∧ u.threads[t].s = s.threads[t].s ∧ otherThreads s u t ∧
        { u with aon := s.aon, dict := s.dict, link := s.link, threads := s.threads } = s) ∧
    (let q := (s.threads[t].sget a).toNat
     (s.threads[t].sget d).toNat < 4096 → ¬ (q % 64 = 0 ∧ q + 64 ≤ 0x40000) →
      ∀ c, (c = Instr.insnDput t d a ∨ c = Instr.insnDget t d a) →
      ∃ u, exec c s = .next u ∧ u.threads[t].run = 5 ∧ u.threads[t].faultWord = 0x0111 ∧
        u.threads[t].priv = s.threads[t].priv ∧ otherThreads s u t ∧
        { u with aon := s.aon, dict := s.dict, link := s.link, threads := s.threads } = s)) ∧
  (
  ∀ (s : State) (t : ThreadId) (p : PartId) (d a : SReg) (imm : BitVec 14), onControl s t p → Safety.sound s →
    let x := (BitVec.ofInt 64 ((s.threads[t].sget a).toInt + imm.toInt)).toNat
    s.isLocal x = true →
    (s.accessCause p.val x 8 .read = none → readable s (gaOff x) 8 →
      ∃ u, exec (.insnLdg t d a imm) s = .next u ∧
        scalarTook s u t d (BitVec.ofNat 64 (leValue s.store.mem (gaOff x) 8)) ∧ u.store.mem = s.store.mem ∧
        onlyObjects s u lineKeys ∧
        { u with threads := s.threads, dict := s.dict, store := s.store } = s) ∧
    (s.accessCause p.val x 8 .write = none →
      ∃ u, exec (.insnStg t d a imm) s = .next u ∧ stored s u (gaOff x) 8 (s.threads[t].sget d).toNat ∧
        onlyObjects s u (logKeys ++ [K.telNearLines, K.telDeepLines, K.guardDrops]) ∧
        { u with aon := s.aon, link := s.link, dict := s.dict, store := s.store } = s))

open Sys2Proof Sys2Proof.Machine Sys2Proof.Claims in
/-- R215 to R218, R303: the atomics on the device's own store. The register of the result takes the old value, which is
zero-extended when it is 32 bits wide (notes/assumptions/24.md). -/
def Obligations.AtomicsUpdateTheirWordAndReturnTheOldValue : Prop :=
  ∀ (s : State) (t : ThreadId) (p : PartId) (d a b : SReg) (wide : Bool), onControl s t p → Safety.sound s →
    let x := (s.threads[t].sget a).toNat
    let o := gaOff x
    let does (c : Instr) (w : Nat) (f : Nat → Nat) : Prop :=
      s.accessCause p.val x (w / 8) .atomic = none → readable s o (w / 8) →
        ∃ u, exec c s = .next u ∧ scalarTook s u t d (BitVec.ofNat 64 (leValue s.store.mem o (w / 8))) ∧
          stored s u o (w / 8) (f (leValue s.store.mem o (w / 8))) ∧
          onlyObjects s u (logKeys ++ K.guardDrops :: lineKeys) ∧
          { u with threads := s.threads, aon := s.aon, link := s.link, dict := s.dict, store := s.store } = s
    let w := if wide then 64 else 32
    let y := (s.threads[t].sget b).toNat % 2 ^ w
    let signed (n : Nat) : Int := if n < 2 ^ (w - 1) then n else (n : Int) - 2 ^ w
    s.isLocal x = true →
    does (.insnAtomAdd t d a b wide) w (fun old => (old + y) % 2 ^ w) ∧
    does (.insnAtomFadd t d a b) 32 (fun old =>
      (fadd (BitVec.ofNat 32 old) ((s.threads[t].sget b).setWidth 32)).toNat) ∧
    does (.insnAtomMin t d a b wide) w (fun old => if signed old ≤ signed y then old else y) ∧
    does (.insnAtomMax t d a b wide) w (fun old => if signed old ≤ signed y then y else old) ∧
    does (.insnAtomUmin t d a b wide) w (fun old => min old y) ∧
    does (.insnAtomUmax t d a b wide) w (fun old => max old y) ∧
    does (.insnAtomAnd t d a b wide) w (fun old => old &&& y) ∧
    does (.insnAtomOr t d a b wide) w (fun old => old ||| y) ∧
    does (.insnAtomXor t d a b wide) w (fun old => old ^^^ y) ∧
    does (.insnAtomSwap t d a b wide) w (fun _ => y) ∧
    does (.insnAtomCas t d a b wide) w (fun old => if old = (s.threads[t].sget d).toNat % 2 ^ w then y else old)

open Sys2Proof Sys2Proof.Machine Sys2Proof.Claims in
/-- R185 to R191, R216, R303, Table 19-3: which address faults a thread's access of 4 or 8 bytes takes, in the order of the
causes, and that it takes none when one window of the partition holds the whole access and grants the right.
R188, R303, R627 to R630: an access that its partition may not make raises a partition fault of kind 1: counted, kept
when it is the partition's first, the partition begins to halt, and the thread holds before the instruction. -/
def Obligations.RefusedThreadAccessesFaultByTheirCause : Prop :=
  (
  ∀ (s : State) (p : PartId) (x : W64) (n : Nat) (r : Right), (n = 4 ∨ n = 8) →
    let a := x.toNat
    let inWindow : Prop := ∃ j, j < 8 ∧ s.act (K.windowBase p.val j) ≤ a ∧
      a + n ≤ s.act (K.windowBase p.val j) + s.act (K.windowLength p.val j) ∧
      (s.act (K.windowRights p.val j)).testBit r.bit = true
    let reserved : Prop := a / 2 ^ 36 % 2 ^ 16 ≠ 0
    let absent : Prop := s.devOk (a / 2 ^ 52) = false
    let nowhere : Prop := tierOf (a % 2 ^ 36) = .unmapped ∨ a % n ≠ 0
    (s.accessCause p.val a n r = some 1 ↔ reserved) ∧
    (s.accessCause p.val a n r = some 6 ↔ ¬ reserved ∧ absent) ∧
    (s.accessCause p.val a n r = some 2 ↔ ¬ reserved ∧ ¬ absent ∧ nowhere) ∧
    (s.accessCause p.val a n r = some 3 ↔ ¬ reserved ∧ ¬ absent ∧ ¬ nowhere ∧ ¬ inWindow) ∧
    (s.accessCause p.val a n r = none ↔ ¬ reserved ∧ ¬ absent ∧ ¬ nowhere ∧ inWindow)) ∧
  (
  ∀ (s : State) (t : ThreadId) (p : PartId) (d a b : SReg) (imm : BitVec 14) (n : Nat), onControl s t p → Safety.sound s →
    let raises (c : Instr) (x : Nat) : Prop := ∃ u, exec c s = .next u ∧
      u.threads[t] = { s.threads[t] with holding := true } ∧ otherThreads s u t ∧ u.store = s.store ∧
      u.parts[p].faulted = true ∧ u.parts[p].halting = true ∧
      u.sgl K.addressFaults = min (s.sgl K.addressFaults + 1) 0xFFFFFFFF ∧
      u.sgl (K.partFaults p.val) = min (s.sgl (K.partFaults p.val) + 1) 0xFFFFFFFF ∧
      logged s u 0x0201 2 p.val (1 + 2 ^ 8 * n + 2 ^ 16 * (t.val - 64) + 2 ^ 22) x ∧
      (s.parts[p].faulted = false →
        u.sgl (K.partFault p.val) = 1 + 2 ^ 8 * n + 2 ^ 16 * (t.val - 64) + 2 ^ 22 ∧
        u.sgl (K.partFaultAddress p.val) = x ∧ u.sgl (K.partFaultTick p.val) = s.tick) ∧
      (s.parts[p].faulted = true → u.sgl (K.partFault p.val) = s.sgl (K.partFault p.val) ∧
        u.sgl (K.partFaultAddress p.val) = s.sgl (K.partFaultAddress p.val) ∧
        u.sgl (K.partFaultTick p.val) = s.sgl (K.partFaultTick p.val))
    let x := (BitVec.ofInt 64 ((s.threads[t].sget a).toInt + imm.toInt)).toNat
    let y := (s.threads[t].sget a).toNat
    (s.accessCause p.val x 8 .read = some n → raises (.insnLdg t d a imm) x) ∧
    (s.accessCause p.val x 8 .write = some n → raises (.insnStg t d a imm) x) ∧
    (∀ wide : Bool, s.accessCause p.val y (if wide then 8 else 4) .atomic = some n →
      raises (.insnAtomAdd t d a b wide) y ∧ raises (.insnAtomMin t d a b wide) y ∧ raises (.insnAtomMax t d a b wide) y ∧
      raises (.insnAtomUmin t d a b wide) y ∧ raises (.insnAtomUmax t d a b wide) y ∧ raises (.insnAtomAnd t d a b wide) y ∧
      raises (.insnAtomOr t d a b wide) y ∧ raises (.insnAtomXor t d a b wide) y ∧ raises (.insnAtomSwap t d a b wide) y ∧
      raises (.insnAtomCas t d a b wide) y) ∧
    (s.accessCause p.val y 4 .atomic = some n → raises (.insnAtomFadd t d a b) y))

open Sys2Proof Sys2Proof.Machine Sys2Proof.Claims in
/-- R304: dput and dget copy 64 bytes between private memory and a descriptor that no queued verb names.
R305, R379: wset writes one of the thirteen words of one walker set: of the core it names on a control core in directed
mode, of the executing core on a core. -/
def Obligations.DescriptorCopiesAndWalkerWritesReachTheirWords : Prop :=
  (
  ∀ (s : State) (t : ThreadId) (p : PartId) (a b : SReg), onControl s t p → Safety.sound s →
    let i := (s.threads[t].sget a).toNat
    let q := (s.threads[t].sget b).toNat
    let o := 0xF0100000 + p.val * 0x40000 + i * 64
    let gone (c : Instr) (cause : Nat) : Prop := ∃ u, exec c s = .next u ∧ u.threads[t].run = 5 ∧
      u.threads[t].faultWord = BitVec.ofNat 16 (cause + 0x100) ∧ u.threads[t].priv = s.threads[t].priv ∧ otherThreads s u t ∧
      { u with aon := s.aon, dict := s.dict, link := s.link, threads := s.threads } = s
    (i < 4096 ∧ q % 64 = 0 ∧ q + 64 ≤ 0x40000 ∧ s.descBusy p.val i = false →
      (∃ u, exec (.insnDput t a b) s = .next u ∧ { u with store := s.store } = s ∧
        { u.store with mem := s.store.mem } = s.store ∧
        (∀ k, k < 64 → u.store.mem.read (o + k) = s.threads[t].priv.read (q + k)) ∧
        ∀ j, (j < o ∨ o + 64 ≤ j) → u.store.mem.read j = s.store.mem.read j) ∧
      (∃ u, exec (.insnDget t a b) s = .next u ∧ sameButThread s u t ∧
        { u.threads[t] with priv := s.threads[t].priv } = s.threads[t] ∧
        (∀ k, k < 64 → u.threads[t].priv.read (q + k) = s.store.mem.read (o + k)) ∧
        ∀ j, (j < q ∨ q + 64 ≤ j) → u.threads[t].priv.read j = s.threads[t].priv.read j)) ∧
    (4096 ≤ i → gone (.insnDput t a b) 18 ∧ gone (.insnDget t a b) 18) ∧
    (i < 4096 ∧ ¬ (q % 64 = 0 ∧ q + 64 ≤ 0x40000) → gone (.insnDput t a b) 17 ∧ gone (.insnDget t a b) 17)) ∧
  (
  ∀ (s : State) (t : ThreadId) (p : PartId) (core : CoreId) (w : Fin 8) (f : BitVec 6) (v : W64),
    s.ready t = some p → f.toNat < 13 →
    let wrote (c : CoreId) : Prop := ∃ u, exec (.insnWset t core w f v) s = .next u ∧ { u with cores := s.cores } = s ∧
      (∀ i, i ≠ c → u.cores[i] = s.cores[i]) ∧ { u.cores[c] with walkers := s.cores[c].walkers } = s.cores[c] ∧
      (∀ j, j ≠ w → u.cores[c].walkers[j] = s.cores[c].walkers[j]) ∧
      ∀ k : Fin 16, u.cores[c].walkers[w][k] = if k.val = f.toNat then v else s.cores[c].walkers[w][k]
    (∀ h : t.val < 64, wrote ⟨t.val, h⟩) ∧
    (64 ≤ t.val → s.auto p.val = false → (s.coreMask p.val).testBit core.val = true → wrote core))

open Sys2Proof Sys2Proof.Machine Sys2Proof.Claims in
/-- R287, R291, R296, R297, R301, R308: branches choose the place that step 7 moves to, in the branch window of the thread's
ring, and stop the thread with cause 16 when the target lies outside it; the loop counters and the hold-point change.
R291, R292, R301: a fence waits while the thread has pushed work that is neither retired nor abandoned; mfm and bmc wait
while their memo register is owed a value. Waiting changes nothing else. -/
def Obligations.BranchesRedirectAndFencesWait : Prop :=
  (
  ∀ (s : State) (t : ThreadId) (p : PartId) (q : PReg) (neg : Bool) (off : BitVec 20) (k : MReg) (cc : Fin 6)
      (offm : BitVec 19) (j : Fin 4) (v : BitVec 24), s.ready t = some p →
    let r : Fin 80 := if t.val < 64 then t else tid (64 + p.val)
    let pos := s.rings[r]
    let size : Int := (max 1 (s.ringGeom r).2 : Nat)
    let e (o : Int) : Int := ((pos.pc - pos.retire).toNat : Int) + o
    let window : Int := (pos.tail - pos.retire).toNat
    let inside (o : Int) : Prop := 0 ≤ e o ∧ e o ≤ window
    let lands (o : Int) (n : W32) : Prop := (inside o ∧ n = pos.retire + BitVec.ofInt 32 (e o)) ∨
      (¬ inside o ∧ e o % size ≤ window ∧ n = pos.retire + BitVec.ofInt 32 (e o % size))
    let astray (o : Int) : Prop := ¬ inside o ∧ window < e o % size
    let becomes (c : Instr) (h : Thread) : Prop := ∃ u, exec c s = .next u ∧ sameButThread s u t ∧ u.threads[t] = h
    let stops (c : Instr) : Prop := ∃ u, exec c s = .next u ∧ u.threads[t].run = 5 ∧ u.threads[t].faultWord = 0x0110 ∧
      u.threads[t].s = s.threads[t].s ∧ u.threads[t].l = s.threads[t].l ∧ otherThreads s u t ∧
      { u with aon := s.aon, dict := s.dict, link := s.link, threads := s.threads } = s
    let goes (c : Instr) (o : Int) : Prop := (∀ n, lands o n → becomes c
      { s.threads[t] with cl := { s.threads[t].cl with redirect := some n.toNat } }) ∧ (astray o → stops c)
    let m := s.threads[t].m[k]
    let low : W32 := m.setWidth 32
    let holds : Prop := (cc = 0 ∧ m = 0) ∨ (cc = 1 ∧ m ≠ 0) ∨ (cc = 2 ∧ m.toInt < 0) ∨ (cc = 3 ∧ 0 ≤ m.toInt) ∨
      (cc = 4 ∧ flt low 0 = true) ∨ (cc = 5 ∧ fle 0 low = true)
    let left := s.threads[t].l[j] - 1
    ((64 ≤ t.val ∨ q = 0) → (s.threads[t].pget q = neg → exec (.insnBr t q neg off) s = .next s) ∧
      (s.threads[t].pget q ≠ neg → goes (.insnBr t q neg off) off.toInt)) ∧
    (s.threads[t].pend[k] = 0 → (¬ holds → exec (.insnBmc t k cc offm) s = .next s) ∧
      (holds → goes (.insnBmc t k cc offm) offm.toInt)) ∧
    becomes (.insnWinMark t) { s.threads[t] with cl := { s.threads[t].cl with mark := some true } } ∧
    becomes (.insnWinUnmark t) { s.threads[t] with cl := { s.threads[t].cl with mark := some false } } ∧
    (t.val < 64 → becomes (.insnLset t j v) { s.threads[t] with l := vset s.threads[t].l j v } ∧
      (left = 0 → becomes (.insnLdbnz t j off) { s.threads[t] with l := vset s.threads[t].l j 0 }) ∧
      (left ≠ 0 → (∀ n, lands off.toInt n → becomes (.insnLdbnz t j off) { s.threads[t] with
          l := vset s.threads[t].l j left, cl := { s.threads[t].cl with redirect := some n.toNat } }) ∧
        (astray off.toInt → stops (.insnLdbnz t j off))))) ∧
  (
  ∀ (s : State) (t : ThreadId) (p : PartId) (d : SReg) (k : MReg) (cc : Fin 6) (off : BitVec 19), s.ready t = some p →
    let waits (c : Instr) (ok : Wait → Prop) : Prop := ∃ u, exec c s = .next u ∧ sameButThread s u t ∧
      ok u.threads[t].wait ∧ { u.threads[t] with wait := s.threads[t].wait } = s.threads[t]
    let memo : Wait → Prop := fun w => ∃ r, w = .memo k r
    (s.threadBusy t = false → exec (.insnFence t) s = .next s) ∧
    (s.threadBusy t = true → waits (.insnFence t) (fun w => w = .fence)) ∧
    (s.threads[t].pend[k] ≠ 0 → waits (.insnBmc t k cc off) memo ∧ (64 ≤ t.val → waits (.insnMfm t d k) memo)))

open Sys2Proof Sys2Proof.Machine Sys2Proof.Claims in
/-- R307 to R309, R311 to R314: an instruction that is not legal for its thread stops it: cause 7 in a core's clauses and for
lset and ldbnz, and wset in autonomous mode, on a control core; cause 9 for a core outside the partition; cause 6 for a
reserved walker field. -/
def Obligations.IllegalInstructionsStopTheirThread : Prop :=
  ∀ (s : State) (t : ThreadId) (p : PartId) (core : CoreId) (w : Fin 8) (f : BitVec 6) (v : W64) (j : Fin 4)
      (n : BitVec 24) (off : BitVec 20), s.ready t = some p → Safety.sound s →
    let stops (c : Instr) (cause : Nat) : Prop := ∃ u, exec c s = .next u ∧ stoppedBy s u t p cause
    (t.val < 64 → ∀ c, insnOf c = some t → legalOnCore c = false → stops c 7) ∧
    (64 ≤ t.val → stops (.insnLset t j n) 7 ∧ stops (.insnLdbnz t j off) 7 ∧
      (s.auto p.val = true → stops (.insnWset t core w f v) 7) ∧
      (s.auto p.val = false → (s.coreMask p.val).testBit core.val = false → stops (.insnWset t core w f v) 9) ∧
      (s.auto p.val = false → (s.coreMask p.val).testBit core.val = true → 13 ≤ f.toNat →
        stops (.insnWset t core w f v) 6)) ∧
    (t.val < 64 → 13 ≤ f.toNat → stops (.insnWset t core w f v) 6)

/-! Verbs (chapters 7, 10, 12 and 13). -/

open Sys2Proof Sys2Proof.Machine Sys2Proof.Claims in
/-- R370, Tables 10-4 and 10-5: what an arithmetic stage makes of one element, in the binary32 path and in the int32 path,
for the operations 1 to 10 with operands u = SRC_A, v = SRC_B and w = SRC_C; and the conditions of Compare/Select. -/
def Obligations.ArithmeticStagesComputeTheirOperation : Prop :=
  ∀ (cfg : BitVec 384) (k : W32) (rows : W32 × W32) (e : El),
    (∀ n, n ≠ 3 → 3 ≤ n → n ≤ 6 → cfgBypass cfg n = true) → cfgBypass cfg 3 = false →
    cfgBits cfg 102 100 = 1 → cfgBits cfg 105 103 = 2 → cfgBits cfg 108 106 = 3 →
    let op := cfgBits cfg 99 96
    let x := (midStages cfg k rows e).x
    let i (w : W32) : Int := w.toInt
    let fit (n : Int) : W32 := BitVec.ofInt 32 (if cfgSat cfg then max (-(2 ^ 31)) (min (2 ^ 31 - 1) n) else n)
    (cfgInt cfg = false →
      (op = 1 → x = fadd e.a e.b) ∧ (op = 2 → x = fsub e.a e.b) ∧ (op = 3 → x = fmul e.a e.b) ∧
      (op = 4 → x = ffma e.a e.b e.c) ∧ (op = 5 → x = fmin e.a e.b) ∧ (op = 6 → x = fmax e.a e.b) ∧
      (op = 7 → x = fabs e.a) ∧ (op = 8 → x = fneg e.a) ∧ (op = 9 → x = fmul (fsub e.a e.b) e.c)) ∧
    (cfgInt cfg = true →
      (op = 1 → x = fit (i e.a + i e.b)) ∧ (op = 2 → x = fit (i e.a - i e.b)) ∧ (op = 3 → x = fit (i e.a * i e.b)) ∧
      (op = 4 → x = fit (i e.a * i e.b + i e.c)) ∧ (op = 5 → i x = min (i e.a) (i e.b)) ∧
      (op = 6 → i x = max (i e.a) (i e.b)) ∧ (op = 7 → i e.a ≠ -(2 ^ 31) → i x = (i e.a).natAbs) ∧
      (op = 8 → i e.a ≠ -(2 ^ 31) → i x = -(i e.a)) ∧ (op = 9 → x = fit ((i e.a - i e.b) * i e.c))) ∧
    (midStages cfg k rows e).act = e.act ∧ (midStages cfg k rows e).raw = e.raw

open Sys2Proof Sys2Proof.Machine Sys2Proof.Claims in
/-- R370 to R378, R396, R202, R164: when every byte of a tile is at hand, the command of the verb that a core runs completes
one input tile: its output joins the write buffer, the verb has one tile more behind it, and after its last tile it has left
the chain. TILES_DONE counts the tiles of a verb that have begun to commit (R404): this one at once when it leaves nothing in
the write buffer and none before it waits there, or when it is a tap tile. `v1` and `v2` are the verb once the commits that its
reads asked for have begun. -/
def Obligations.RunningVerbsCompleteTheirTiles : Prop :=
  ∀ (s s1 s2 s3 s4 : State) (i : Instr) (c : CoreId) (o : Op) (v v1 v2 : Verb) (rows : List Nat) (n : Nat),
    verbOf i = some (o, c) → s.cores[c].active = some v → v.op = o → s.coreGo c (pid v.part) = true → s.cores[c].preemptReq = false →
    (v.isTap = true → (s.tapTile c v).isSome = true) →
    let j := v.job
    let p := j.place v.done
    let first := s.firstReads c v j p
    s.fetchAll c v first = .ready s1 → v1 = s1.verbNow c v → s1.rowsOf c v1 j p (s1.chainByte c) = .ok rows →
    s1.rowCause v1 rows (s1.rowLen v1) = none →
    let l := j.reads (s1.chainByte c) rows v1.done v1.red.stream
    s1.fetchAll c v1 l = .ready s2 → v2 = s2.verbNow c v1 → v2.op = o →
    (o ≠ .rotate → s3 = s2) → (o = .rotate → s2.meshTurn c v2 = .ready s3) →
    let k := s3.cores[c]
    let us := if cfgRound v2.cfg = 5 then drawUs (shapeSize (j.grid.shape (j.place v2.done).tile)) k.lfsr else ([], k.lfsr)
    let out := j.run (s3.chainByte c) rows ((s3.tapTile c v2).getD []) v2.done us.1 v2.red v2.sums
      (fun r xs => meshRow (meshBits j.par) (s3.meshRead c v2 r xs) xs) (fun i => Config.reduceU us.2 i % 65536)
    let reqs := lineReads (first ++ l)
    let tiles := out.commits.flatMap (splitTiles v2.ticket v2.part v2.done)
    (∀ t ∈ out.commits, ∀ b ∈ t, s3.isLocal b.addr.toNat = true → s3.live (gaOff b.addr.toNat) = true) →
    (∀ a ∈ out.atoms, s3.isLocal a.1 = true → s3.live (gaOff a.1) = true) →
    (k.wbuf = [] ∨ k.bufBits + commitBits out.commits ≤ 131072) →
    ((s3.countReads c reqs).addSat K.forwarded (k.forwards reqs)).issueAtoms c v2
      (if j.fmtA.isInt then 0x1 else 0x2) (out.atoms.drop v2.red.stream) v2.red.stream = (s4, some n) →
    out.atoms.length ≤ n →
    ∃ u, exec i s = .next u ∧
      u.cores[c].wbuf = k.wbuf ++ tiles ∧ u.cores[c].lfsr = us.2 ∧
      (v2.tiles ≤ v2.done + 1 → u.cores[c].active = none ∧ ∃ w, u.cores[c].retiring = k.retiring ++ [w] ∧
        w.ticket = v2.ticket ∧ w.done = v2.done + 1 ∧ w.stage = .retiring ∧ w.sums = out.sums ∧ w.metered ≤ 1100 * v2.res) ∧
      (v2.done + 1 < v2.tiles → u.cores[c].retiring = k.retiring ∧ (∃ w, u.cores[c].active = some w ∧
        w.ticket = v2.ticket ∧ w.done = v2.done + 1 ∧ w.red.acc = out.red.acc ∧ w.sums = out.sums ∧ w.metered ≤ 1100 * v2.res) ∧
        u.cores[c].tilesDone = if v2.isTap = true ∨ (tiles = [] ∧ v2.keeps = []) then v2.done + 1 else v2.complete) ∧
      u.threads = s3.threads ∧ u.ledger = s3.ledger ∧ u.parts = s3.parts

open Sys2Proof Sys2Proof.Machine Sys2Proof.Claims in
/-- R266, R337, R338: a queued verb whose turn it is and whose checks pass is recorded: one scoreboard entry for each of its
intervals, rounded to granules of 256 bytes, joins its partition's, and nothing else changes but its stage. A full scoreboard
holds it, which is counted once.
R375: an admitted verb at the head of a core whose chain is free starts: it leaves the queue, its configuration becomes
the active one, and the core's tile count starts at zero. -/
def Obligations.RecordingAndStartingTakeTheirEntries : Prop :=
  (
  ∀ (s : State) (c : CoreId) (v : Verb) (l : List Span), s.cores[c].head = some v → v.stage = .queued → v.part < 16 →
    let p := pid v.part
    s.admitGo c p = true → s.recordTurn c v = true → Safety.sound s →
    let r := s.resolve v
    r.descBad = none → r.walkerBad = none →
    let w := s.cores[c].withTiles r
    let want := if w.streams then w.job.grid.rows else 0
    want ≤ s.cores[c].rowsReady →
    let ops := s.cores[c].streamsFor want
    (s.parts[p].sb.length + w.entries ops ≤ 256 → s.operandBad c w = none → s.spans w ops = some l →
      ∃ u, exec (.verbRecord c) s = .next u ∧ { u with parts := s.parts, cores := s.cores } = s ∧
        (∀ d, d ≠ c → u.cores[d] = s.cores[d]) ∧ (∀ q, q ≠ p → u.parts[q] = s.parts[q]) ∧
        u.cores[c].head = some { w with stage := .recorded } ∧
        ∃ es : List SbEntry, u.parts[p].sb = s.parts[p].sb ++ es ∧ es.length = l.length ∧
          ∀ i (h : i < es.length) (h' : i < l.length), es[i].ticket = v.ticket ∧ es[i].write = l[i].write ∧
            es[i].torn = false ∧ es[i].lo % 256 = 0 ∧ es[i].hi % 256 = 255 ∧
            es[i].lo ≤ l[i].bounds.1 ∧ l[i].bounds.2 ≤ es[i].hi ∧ l[i].bounds.1 < es[i].lo + 256 ∧
            es[i].hi < l[i].bounds.2 + 256) ∧
    (256 < s.parts[p].sb.length + w.entries ops → v.fullCounted = true → exec (.verbRecord c) s = .next s) ∧
    (256 < s.parts[p].sb.length + w.entries ops → v.fullCounted = false →
      ∃ u, exec (.verbRecord c) s = .next u ∧ u.parts = s.parts ∧ onlyObjects s u [K.sbFullWaits p.val] ∧
        u.sgl (K.sbFullWaits p.val) = min (s.sgl (K.sbFullWaits p.val) + 1) 0xFFFFFFFF ∧
        { u with dict := s.dict, cores := s.cores } = s)) ∧
  (
  ∀ (s : State) (c : CoreId) (v : Verb), s.cores[c].head = some v → v.stage = .admitted →
    s.cores[c].active = none → s.cores[c].pre = none → s.startGo c (pid v.part) = true →
    ∃ u, exec (.verbStart c) s = .next u ∧ { u with cores := s.cores } = s ∧ (∀ d, d ≠ c → u.cores[d] = s.cores[d]) ∧
      u.cores[c].active = some { v with stage := .running, awaited := s.tick } ∧ u.cores[c].tilesDone = v.complete ∧
      (v.done = 0 → v.keeps = [] → u.cores[c].tilesDone = 0) ∧
      u.cores[c].cfgA = s.cores[c].cfgS ||| 0x1000 ∧ u.cores[c].queue = s.cores[c].queue.filter (fun e => !e.isVerb v) ∧
      u.cores[c].retiring = s.cores[c].retiring ∧ u.cores[c].wbuf = s.cores[c].wbuf ∧
      u.cores[c].walkers = s.cores[c].walkers ∧ u.cores[c].lfsr = s.cores[c].lfsr)

open Sys2Proof Sys2Proof.Machine Sys2Proof.Claims in
/-- R156 to R159, R190, R340, R341, R375: a recorded verb is admitted when no lower ticket stands in a hazard with it, its
windows allow its operands, and its reservation fits the balance and the cap of its partition; the reservation moves from
balance to reserved. A hazard holds it; a reservation that cannot be made puts it into energy wait.
R158: when the head of a partition's admission order can be reserved, the end of the energy wait admits it; while it
cannot, nothing changes. -/
def Obligations.AdmissionReservesEnergyInOrder : Prop :=
  (
  ∀ (s : State) (c : CoreId) (v : Verb) (l : List Span), s.cores[c].head = some v → v.stage = .recorded → v.part < 16 →
    Safety.sound s →
    let p := pid v.part
    let ops := s.cores[c].streamsFor (if v.streams then v.job.grid.rows else 0)
    let r := s.resOf c v ops
    let moved (u : State) : Prop := u.ledger.subs[p].balance = s.ledger.subs[p].balance - r ∧
      u.ledger.subs[p].reserved = s.ledger.subs[p].reserved + r ∧ u.ledger.subs[p].spent = s.ledger.subs[p].spent ∧
      u.ledger.totalReserved = s.ledger.totalReserved + r ∧ u.ledger.pool = s.ledger.pool ∧
      u.ledger.deposits = s.ledger.deposits ∧ (∀ q, q ≠ p → u.ledger.subs[q] = s.ledger.subs[q])
    s.admitGo c p = true → s.parts[p].energyQ = [] → s.findVerb v.part v.ticket = some (c, v) →
    (s.hazard c v = true → v.hazCounted = true → exec (.scoreboardAdmit c) s = .next s) ∧
    (s.hazard c v = true → v.hazCounted = false →
      ∃ u, exec (.scoreboardAdmit c) s = .next u ∧ u.ledger = s.ledger ∧ u.parts = s.parts ∧
        u.sgl (K.sbHazardWaits p.val) = min (s.sgl (K.sbHazardWaits p.val) + 1) 0xFFFFFFFF ∧
        onlyObjects s u [K.sbHazardWaits p.val] ∧ { u with dict := s.dict, cores := s.cores } = s) ∧
    (s.hazard c v = false → s.spans v ops = some l → s.spanCause v l = none → r ≤ s.act (K.reserveCap p.val) →
      s.canReserve p r = true →
      ∃ u, exec (.scoreboardAdmit c) s = .next u ∧ moved u ∧
        u.cores[c].head = some { v with stage := .admitted, res := r, scale := s.scaleOf c.val, cfg := s.cfgOf v } ∧
        (∀ d, d ≠ c → u.cores[d] = s.cores[d]) ∧ u.parts[p].energyQ = [] ∧ u.parts[p].sb = s.parts[p].sb ∧
        { u with ledger := s.ledger, parts := s.parts, cores := s.cores } = s) ∧
    (s.hazard c v = false → s.spans v ops = some l → s.spanCause v l = none → r ≤ s.act (K.reserveCap p.val) →
      s.canReserve p r = false → s.parts[p].energyWait = false →
      ∃ u, exec (.scoreboardAdmit c) s = .next u ∧ u.ledger = s.ledger ∧ u.parts[p].energyQ = [v.ticket] ∧
        u.parts[p].energyWait = true ∧ u.cores[c].head = some { v with stage := .energyWait } ∧
        u.sgl (K.energyWaits p.val) = min (s.sgl (K.energyWaits p.val) + 1) 0xFFFFFFFF)) ∧
  (
  ∀ (s : State) (p : PartId) (c : CoreId) (v : Verb), s.parts[p].energyQ = [v.ticket] → v.part = p.val →
    s.findVerb p.val v.ticket = some (c, v) → s.cores[c].head = some v → s.admitGo c p = true →
    (∀ d ∈ s.coresOf p.val, (s.cores[d].pre.any (fun w => w.topWait)) = false) →
    let r := s.headRes c v
    r ≤ s.act (K.reserveCap p.val) →
    (s.canReserve p r = true → ∃ u, exec (.energyWaitEnd p) s = .next u ∧ u.parts[p].energyQ = [] ∧
      u.parts[p].energyWait = false ∧ u.ledger = s.ledger.reserve p r ∧
      u.cores[c].head = some { v with stage := .admitted, res := r, scale := s.scaleOf c.val, cfg := s.cfgOf v } ∧
      { u with ledger := s.ledger, parts := s.parts, cores := s.cores } = s) ∧
    (s.canReserve p r = false → s.parts[p].energyWait = true → exec (.energyWaitEnd p) s = .next s))

open Sys2Proof Sys2Proof.Machine Sys2Proof.Claims in
/-- Steps 2 to 7 of Table 1-3 for a verb that writes no completion entry and whose clause has no signal that waits: its
scoreboard entries go, it settles (R161, R162), its memo registers take the summaries of its entry (R291, R469), and it is
counted.
R329 to R331, R334, Table 9-2: a verb that asks for an entry writes its 32 bytes at the producer's place of its partition's
completion ring, a guarded byte apart, and the producer count moves on; while the ring is full the verb waits at step 6, which
is counted, and the end of the stall writes the entry. -/
def Obligations.RetirementSettlesAndReportsEachVerb : Prop :=
  (
  ∀ (s : State) (c : CoreId) (v : Verb) (rest : List Verb), s.cores[c].retiring = v :: rest → v.part < 16 → v.thread < 80 →
    Safety.sound s →
    let p := pid v.part
    let t := tid v.thread
    s.coreGo c p = true → v.waits6 = false → s.stepOneDone c v = true → s.retireTurn v = true → s.parts[p].sigs = [] →
    s.wantsEntry v = false →
    ∃ u, exec (.verbRetire c) s = .next u ∧
      u.parts[p].sb = s.parts[p].sb.filter (fun e => e.ticket ≠ v.ticket) ∧
      u.ledger.subs[p].balance = s.ledger.subs[p].balance + v.res - (v.metered / 1000 : Nat) ∧
      u.ledger.subs[p].reserved = s.ledger.subs[p].reserved - v.res ∧
      u.ledger.subs[p].spent = s.ledger.subs[p].spent + (v.metered / 1000 : Nat) ∧
      u.ledger.residue = s.ledger.residue + v.metered % 1000 ∧
      u.cores[c].retiring = (v :: rest).filter (fun w => !v.same w) ∧
      u.cores[c].retired = (s.cores[c].retired + 1) % 2 ^ 64 ∧
      u.sgl K.telVerbs = (s.sgl K.telVerbs + 1) % 2 ^ 64 ∧
      onlyObjects s u [K.telVerbs, K.telPartVerbs v.part] ∧
      (∀ i (h : i < v.op.sumKinds.length), slotMemoEn v.slot = true →
        let m : MReg := Fin.ofNat 16 (slotMemoBase v.slot + i)
        u.threads[t].m[m] = v.sumVal v.op.sumKinds[i] ∧
        u.threads[t].pend[m] = s.threads[t].pend[m] - 1) ∧
      (slotMemoEn v.slot = false → u.threads = s.threads) ∧ otherThreads s u t ∧ u.store = s.store) ∧
  (
  ∀ (s : State) (c : CoreId) (v : Verb) (rest : List Verb), s.cores[c].retiring = v :: rest → v.part < 16 → Safety.sound s →
    let p := pid v.part
    let size := max 1 (s.act (K.complEntries p.val))
    let n := s.parts[p].produced.toNat
    let off := gaOff (s.act (K.complBase p.val)) + 32 * (n % size)
    let entry (w : Verb) := complEntry c w (decide (n / size % 2 = 0)) s.tick
    s.coreGo c p = true → s.wantsEntry v = true → s.store.poison = [] → s.store.latent = [] →
    (v.waits6 = false → s.stepOneDone c v = true → s.retireTurn v = true → s.parts[p].sigs = [] →
      (s.complFull p = false → ∃ u, exec (.verbRetire c) s = .next u ∧ u.parts[p].produced = s.parts[p].produced + 1 ∧
        u.cores[c].retired = (s.cores[c].retired + 1) % 2 ^ 64 ∧
        ∀ i (h : i < 32) (h' : i < (entry { v with energy := v.metered / 1000 }).length),
          guarded s.guards (off + i) = false →
          u.store.mem.read (off + i) = (entry { v with energy := v.metered / 1000 })[i]) ∧
      (s.complFull p = true → ∃ u, exec (.verbRetire c) s = .next u ∧ u.parts[p].produced = s.parts[p].produced ∧
        u.sgl (K.completionStalls v.part) = min (s.sgl (K.completionStalls v.part) + 1) 0xFFFFFFFF ∧
        (∃ w, u.cores[c].retiring.head? = some w ∧ w.ticket = v.ticket ∧ w.waits6 = true ∧ w.energy = v.metered / 1000) ∧
        u.store = s.store)) ∧
    (v.waits6 = true → s.complFull p = false → ∃ u, exec (.completionStallEnd c) s = .next u ∧
      u.parts[p].produced = s.parts[p].produced + 1 ∧ u.cores[c].retiring = (v :: rest).filter (fun w => !v.same w) ∧
      u.ledger = s.ledger ∧ (∀ i (h : i < 32) (h' : i < (entry v).length), guarded s.guards (off + i) = false →
        u.store.mem.read (off + i) = (entry v)[i])) ∧
    (v.waits6 = true → s.complFull p = true → exec (.completionStallEnd c) s = .next s))

open Sys2Proof Sys2Proof.Machine Sys2Proof.Claims in
/-- R344, R345, R404 to R406, R168: at a tile boundary a verb that was asked to gives way: its context, as it was after its last
complete tile, is kept with the state of the rounding generator, its output that has not begun to commit is discarded, and its
write entries are marked torn, and both are counted; a preempted verb resumes with the marks cleared, topped up when the scale
of its cluster has risen, or waits for the energy. -/
def Obligations.PreemptedVerbsKeepTheirContextAndResume : Prop :=
  ∀ (s : State) (c : CoreId) (v : Verb), v.part < 16 → Safety.sound s →
    let p := pid v.part
    let marked (u : State) (b : Bool) : Prop := u.parts[p].sb = s.parts[p].sb.map (fun e =>
      if e.ticket = v.ticket then { e with torn := b && e.write } else e)
    let now := s.scaleOf c.val
    let d := topUp v.res v.scale now
    (s.cores[c].active = some v → s.cores[c].preemptReq = true → s.coreUp c.val = true → s.inFault = false →
      s.tapBusy c = false → s.parts[p].state ≠ 6 → (v.op = .scatter → v.red.stream = 0) → s.flushKills c v = false →
      ∃ u, exec (.preemption c) s = .next u ∧ u.cores[c].active = none ∧
        (v.keeps = [] → u.cores[c].pre = some { v with stage := .preempted, rnd := some s.cores[c].lfsr } ∧
          u.cores[c].lfsr = s.cores[c].lfsr) ∧
        (∀ e rest, v.keeps = e :: rest →
          u.cores[c].pre = some { v with stage := .preempted, done := e.tile, red := e.red, sums := e.sums, keeps := [],
                                         rnd := some e.lfsr } ∧
          u.cores[c].lfsr = e.lfsr ∧
          u.cores[c].wbuf = s.cores[c].wbuf.filter (fun t => !t.ofVerb v || t.begun || decide (t.tile < e.tile))) ∧
        u.cores[c].preemptReq = false ∧ marked u true ∧
        u.sgl (K.tornMarked p.val) = min (s.sgl (K.tornMarked p.val) + 1) 0xFFFFFFFF ∧
        u.sgl (K.preemptions c.val) = min (s.sgl (K.preemptions c.val) + 1) 0xFFFFFFFF ∧
        (s.meshRecord v.part = false → onlyObjects s u [K.tornMarked p.val, K.preemptions c.val]) ∧
        (v.op ≠ .rotate → u.mesh = s.mesh) ∧
        { u with dict := s.dict, parts := s.parts, cores := s.cores, mesh := s.mesh } = s) ∧
    (s.cores[c].pre = some v → s.startGo c p = true → s.cores[c].active = none → (d = 0 ∨ s.canReserve p d = true) →
      ∃ u, exec (.verbResume c) s = .next u ∧ u.cores[c].pre = none ∧
        u.cores[c].active = some { v with stage := .running, resumed := true, res := v.res + d, scale := max v.scale now,
                                          topWait := false, rnd := none } ∧
        u.cores[c].lfsr = v.rnd.getD s.cores[c].lfsr ∧ marked u false ∧
        u.ledger.subs[p].reserved = s.ledger.subs[p].reserved + d ∧ u.ledger.subs[p].balance = s.ledger.subs[p].balance - d ∧
        { u with ledger := s.ledger, parts := s.parts, cores := s.cores } = s) ∧
    (s.cores[c].pre = some v → s.startGo c p = true → s.cores[c].active = none → d ≠ 0 → s.canReserve p d = false →
      v.topWait = false → ∃ u, exec (.verbResume c) s = .next u ∧ u.cores[c].pre = some { v with topWait := true } ∧
        u.ledger = s.ledger ∧ u.sgl (K.energyWaits p.val) = min (s.sgl (K.energyWaits p.val) + 1) 0xFFFFFFFF)

/-! Clauses (chapter 8) and conjunctions (chapter 9). -/

open Sys2Proof Sys2Proof.Machine Sys2Proof.Claims in
/-- R293, R294: a thread fetches the next whole clause of its ring once the tail has passed it: at most four wait, in order;
the fetch pointer moves up to its end, so that its words are guarded, and memory is only read.
R286, R287, R295, R297, R311: a clause that has done its six steps retires: the program counter goes to the branch target
or past the clause, the hold point changes as win asked, and the retire pointer follows the hold point, or else the program
counter. A clause without slots opens and retires at once; a malformed clause stops its thread. -/
def Obligations.ClausesAreFetchedWholeAndRetireOrStop : Prop :=
  (
  ∀ (s : State) (t : ThreadId) (p : PartId) (r : Fin 80), s.threadPart t = some p → s.threadRing t = some r →
    s.threadGo t p = true → s.partHeld p = false → s.ringOn r = true → s.threads[t].fetchq.length < 4 →
    let k := s.nextFetch t r
    let avail := (s.rings[r].tail - k).toNat
    let n := hdrWords (at! 0 (s.ringParcels r k 1) 0)
    (avail = 0 → exec (.clauseFetch t) s = .next s) ∧
    (avail < n → exec (.clauseFetch t) s = .next s) ∧
    (avail ≠ 0 → n ≤ avail → (∀ i, i < n → readable s (gaOff (s.ringAddr r (k + BitVec.ofNat 32 i))) 8) →
      ∃ u, exec (.clauseFetch t) s = .next u ∧
      u.threads[t] = { s.threads[t] with fetchq := s.threads[t].fetchq ++ [(k, s.ringParcels r k n)] } ∧
      otherThreads s u t ∧ (∀ i, i ≠ r → u.rings[i] = s.rings[i]) ∧
      { u.rings[r] with fetch := s.rings[r].fetch } = s.rings[r] ∧
      (u.rings[r].fetch - s.rings[r].retire).toNat =
        max (s.rings[r].fetch - s.rings[r].retire).toNat (k + BitVec.ofNat 32 n - s.rings[r].retire).toNat ∧
      u.store.mem = s.store.mem ∧ onlyObjects s u lineKeys ∧
      { u with dict := s.dict, store := s.store, rings := s.rings, threads := s.threads } = s)) ∧
  (
  ∀ (s : State) (t : ThreadId) (p : PartId) (r : Fin 80) (ps : List W32) (l : List (W32 × List W32)),
    s.ready t = some p → s.threadRing t = some r →
    let h := s.threads[t]
    let q := s.rings[r]
    let retired (u : State) (next pc : W32) : Prop :=
      let hold := if h.cl.mark = some true then some next else if h.cl.mark = some false then none else q.hold
      u.rings[r].pc = pc ∧ u.rings[r].hold = hold ∧ u.rings[r].retire = hold.getD pc ∧ u.rings[r].tail = q.tail ∧
        u.threads[t].cl = ClauseSt.reset ∧ u.threads[t].clausesRetired = (h.clausesRetired + 1) % 2 ^ 64 ∧
        u.threads[t].s = h.s ∧ u.threads[t].m = h.m ∧ otherThreads s u t ∧ (∀ i, i ≠ r → u.rings[i] = s.rings[i]) ∧
        { u with rings := s.rings, threads := s.threads } = s
    (h.cl.active = true → h.cl.step = 7 →
      (∃ u, exec (.clauseExecute t) s = .next u ∧
        retired u (q.pc + BitVec.ofNat 32 h.cl.words)
          (match h.cl.redirect with | some n => BitVec.ofInt 32 n | none => q.pc + BitVec.ofNat 32 h.cl.words))) ∧
    (h.cl.active = false → h.fetchq = (q.pc, ps) :: l → h.cl.redirect = none → h.cl.mark = none →
      let next := q.pc + BitVec.ofNat 32 (ps.length / 2)
      ((∀ u : State, u.dict = s.dict → u.clauseFault t p ps (ps.length / 2) = none) → conjSlot ps = none →
        ctlSlot ps 0 = none → ctlSlot ps 1 = none → streamSlot ps = none → verbSlot ps 0 = none → verbSlot ps 1 = none →
        ∃ u, exec (.clauseExecute t) s = .next u ∧ retired u next next ∧ u.threads[t].fetchq = l) ∧
      ∀ cause slot, (∀ u : State, u.dict = s.dict → u.clauseFault t p ps (ps.length / 2) = some (cause, slot)) →
        ∃ u, exec (.clauseExecute t) s = .next u ∧ u.threads[t].run = 5 ∧ u.rings = s.rings ∧
          u.threads[t].faultWord = BitVec.ofNat 16 (cause + 2 ^ 8 * slot) ∧ u.threads[t].s = h.s ∧ u.store = s.store))

open Sys2Proof Sys2Proof.Machine Sys2Proof.Claims in
/-- R347, R348, R352: a wait on a counter of this device goes on at once when the counter has reached the value, and else
holds the thread; the counter is never changed by it. Once the counter has got there, the thread resumes.
R291, R292, R301: a thread that waits for a memo goes on once nothing is owed to it, and performs then the mfm that it
waited in; one that waits in a fence goes on once all it pushed has retired or been abandoned. Until then nothing changes. -/
def Obligations.WaitsHoldUntilTheirConditionComes : Prop :=
  (
  ∀ (s : State) (t : ThreadId) (p : PartId) (ref : W64) (v : W32) (b : Bool) (tag : BitVec 16) (n : Nat),
    s.isLocal ref.toNat = true →
    let i := (gaOff ref.toNat - 0xF0000000) / 4
    (s.ready t = some p → s.signalCause p ref.toNat = none → v.toNat ≤ s.conjVal i →
      exec (.waitGe t ref v) s = .next s) ∧
    (s.ready t = some p → s.signalCause p ref.toNat = none → s.conjVal i < v.toNat →
      ∃ u, exec (.waitGe t ref v) s = .next u ∧ sameButThread s u t ∧
        u.threads[t] = { s.threads[t] with wait := .conj ref v false 0 s.tick }) ∧
    (s.threads[t].wait = .conj ref v b tag n → s.threadPart t = some p → s.threadGo t p = true → v.toNat ≤ s.conjVal i →
      ∃ u, exec (.waitSatisfied t) s = .next u ∧ sameButThread s u t ∧
        u.threads[t] = { s.threads[t] with wait := .none }.advance) ∧
    (s.threads[t].wait = .conj ref v b tag n → s.conjVal i < v.toNat → exec (.waitSatisfied t) s = .next s)) ∧
  (
  ∀ (s : State) (t : ThreadId) (p : PartId) (k : MReg) (row : Option W32) (d : SReg), s.threadPart t = some p →
    s.threadGo t p = true →
    (s.threads[t].wait = .memo k row → s.threads[t].pend[k] ≠ 0 → exec (.memoWaitEnd t) s = .next s) ∧
    (s.threads[t].wait = .memo k none → s.threads[t].pend[k] = 0 → ∃ u, exec (.memoWaitEnd t) s = .next u ∧
      sameButThread s u t ∧ u.threads[t] = { s.threads[t] with wait := .none }) ∧
    (s.threads[t].wait = .memo k row → s.threads[t].pend[k] = 0 → 64 ≤ t.val → row.bind decodeCtl = some (.mfm d k) →
      ∃ u, exec (.memoWaitEnd t) s = .next u ∧ sameButThread s u t ∧ u.threads[t].wait = .none ∧
        u.threads[t].sget d = (if d = 0 then 0 else s.threads[t].m[k]) ∧
        ∀ r, r ≠ d → u.threads[t].sget r = s.threads[t].sget r) ∧
    (s.threads[t].wait = .fence → s.threadBusy t = true → exec (.fenceRelease t) s = .next s) ∧
    (s.threads[t].wait = .fence → s.threadBusy t = false → ∃ u, exec (.fenceRelease t) s = .next u ∧
      sameButThread s u t ∧ u.threads[t] = { s.threads[t] with wait := .none }.advance))

open Sys2Proof Sys2Proof.Machine Sys2Proof.Claims in
/-- R290, R347, R348, R351, R353, R355: a signal to a counter of this device adds its value, saturating at 2^32 − 1, and changes
no other counter and no byte; SIGNAL_AT_RETIRE does so at once when no verb of its clause is on its way, and else waits for them;
a reference that is no counter, or to which the partition has no right, raises a partition fault. -/
def Obligations.SignalsAddToTheirCounterAndSaturate : Prop :=
  ∀ (s : State) (t : ThreadId) (p : PartId) (ref : W64) (v : W32), s.ready t = some p → Safety.sound s →
    let i := (gaOff ref.toNat - 0xF0000000) / 4
    let live := (s.verbsOf p.val).filter (fun w => decide (w.thread = t.val) && !w.waits6 &&
      s.threads[t].cl.pushed.contains w.ticket)
    let added (c : Instr) : Prop := ∃ u, exec c s = .next u ∧
      u.conjVal i = min (s.conjVal i + v.toNat) 0xFFFFFFFF ∧ (∀ j, j ≠ i → u.conjVal j = s.conjVal j) ∧
      u.sgl K.conjSignalsApplied = (s.sgl K.conjSignalsApplied + 1) % 2 ^ 64 ∧
      (0xFFFFFFFF < s.conjVal i + v.toNat → u.sgl K.conjSaturated = min (s.sgl K.conjSaturated + 1) 0xFFFFFFFF ∧
        logged s u 0x0243 1 noPart (s.ga (0xF0000000 + 4 * i)) 0) ∧
      (s.conjVal i + v.toNat ≤ 0xFFFFFFFF → u.sgl K.conjSaturated = s.sgl K.conjSaturated) ∧
      u.store.mem = s.store.mem ∧ u.threads = s.threads ∧ u.cores = s.cores ∧ u.ledger = s.ledger
    let refused (c : Instr) (n : Nat) : Prop := ∃ u, exec c s = .next u ∧ u.store = s.store ∧
      u.threads[t] = { s.threads[t] with holding := true } ∧ u.parts[p].faulted = true ∧
      u.sgl (K.partFaults p.val) = min (s.sgl (K.partFaults p.val) + 1) 0xFFFFFFFF ∧
      logged s u 0x0201 2 p.val (1 + 2 ^ 8 * n + 2 ^ 16 * (t.val % 64) + 2 ^ 22 * (if 64 ≤ t.val then 1 else 0)) ref.toNat
    (s.signalCause p ref.toNat = none → s.isLocal ref.toNat = true →
      added (.signalNow t ref v) ∧ (live = [] → added (.signalAtRetire t ref v))) ∧
    (live ≠ [] → ∃ u, exec (.signalAtRetire t ref v) s = .next u ∧ { u with parts := s.parts } = s ∧
      u.parts[p] = { s.parts[p] with
        sigs := s.parts[p].sigs ++ [PendSig.mk t.val ref v (live.map (fun w => w.ticket)) false false] }) ∧
    (∀ n, s.signalCause p ref.toNat = some n → refused (.signalNow t ref v) n ∧
      (live = [] → refused (.signalAtRetire t ref v) n))

open Sys2Proof Sys2Proof.Machine Sys2Proof.Claims in
/-- R279, R288, R289, R291, R306, R328, R336, R645: a push that its guard stops does nothing; one that its queue has room for
takes the next ticket of the partition and enters the queue with the walker sets of its core, whose cluster has then run a verb
in the period (R180); one that finds 16 entries is rejected when it only tries, and waits otherwise, both counted; one beyond
STOP_AFTER holds its thread.
R257, R283, R289, R327, R328: an address-stream op captures its registers and takes one entry of the queue of its core, or waits
while 16 are in use; a push that waits is made once its queue has room, and the thread goes on; one whose core a swap has taken
out of the partition stops the thread with cause 9. -/
def Obligations.PushesEnterTheQueueOrWaitForRoom : Prop :=
  (
  ∀ (s : State) (t : ThreadId) (p : PartId) (second : Bool) (slot : BitVec 128) (adv : W32) (imm : Option W64),
    s.ready t = some p → s.slotCause t p slot adv imm = none → Safety.sound s →
    let o := PushOp.verb second slot (advFor slot (some adv)) imm
    let c := pushCore t o
    let g : PReg := Fin.ofNat 8 (slotPreg slot)
    let h := s.threads[t]
    let i := Instr.verbPush t second slot adv imm
    let n := s.cores[c].queue.length
    let tries : Prop := slotTry slot = true ∧ s.replay p.val = false
    (slotGuard slot = true ∧ h.pget g = false → exec i s = .next s) ∧
    (¬ (slotGuard slot = true ∧ h.pget g = false) →
      (n < 16 → s.stopHolds t p = false → ∃ u v, exec i s = .next u ∧
        u.cores[c].queue = s.cores[c].queue ++ [.verb v] ∧ { u.cores[c] with queue := s.cores[c].queue } = s.cores[c] ∧
        (∀ d, d ≠ c → u.cores[d] = s.cores[d]) ∧
        v.ticket = s.parts[p].ticket + 1 ∧ v.slot = slot ∧ v.part = p.val ∧ v.thread = t.val ∧ v.stage = .queued ∧
        (∀ f : Fin 4, v.caps[f] = if opndKind (slotOpnd slot f.val) = 2
          then some s.cores[c].walkers[(Fin.ofNat 8 (bits (slotOpnd slot f.val) 2 0) : Fin 8)] else none) ∧
        u.parts[p].ticket = s.parts[p].ticket + 1 ∧ u.threads[t].verbsPushed = (h.verbsPushed + 1) % 2 ^ 64 ∧
        (∀ k, u.threads[t].pend[k] = h.pend[k] + v.memos.count k) ∧ (slotTry slot = true → u.threads[t].pget g = true) ∧
        u.threads[t].s = h.s ∧ otherThreads s u t ∧ u.aon.clocks.ran[c.val / 8] = true ∧
        u.aon.clocks.stopped[c.val / 8] = false ∧ { u.aon with clocks := s.aon.clocks } = s.aon ∧
        { u with aon := s.aon, parts := s.parts, threads := s.threads, cores := s.cores } = s) ∧
      (16 ≤ n → tries → ∃ u, exec i s = .next u ∧ sameButThread s u t ∧ u.threads[t].pget g = decide (g = 0) ∧
        u.threads[t].pushRejected = min (h.pushRejected + 1) 0xFFFFFFFF ∧ u.threads[t].s = h.s) ∧
      (16 ≤ n → ¬ tries → s.stopHolds t p = false → ∃ u, exec i s = .next u ∧ otherThreads s u t ∧
        u.threads[t] = { h with wait := .push o } ∧ onlyObjects s u [K.queueWaits c.val] ∧
        u.sgl (K.queueWaits c.val) = min (s.sgl (K.queueWaits c.val) + 1) 0xFFFFFFFF ∧
        { u with dict := s.dict, threads := s.threads } = s) ∧
      ((n < 16 ∨ ¬ tries) → s.stopHolds t p = true → ∃ u, exec i s = .next u ∧ sameButThread s u t ∧
        u.threads[t] = { h with holding := true }))) ∧
  (
  ∀ (s : State) (t : ThreadId) (p : PartId) (x : W64) (o : PushOp), Safety.sound s →
    let c := pushCore t (.stream x)
    let taken (u : State) (d : CoreId) (m : QEnt) : Prop := u.cores[d].queue = s.cores[d].queue ++ [m] ∧
      { u.cores[d] with queue := s.cores[d].queue } = s.cores[d] ∧ ∀ e, e ≠ d → u.cores[e] = s.cores[e]
    let op : Stream := { part := p.val, thread := t.val, mode := asMode x, rb := s.threads[t].sget (asRb x),
                         rs := s.threads[t].sget (asRs x), isize := asIsize x, shift := asShift x, count := asCount x, used := 0 }
    (s.ready t = some p → s.streamCause t p x = none → s.cores[c].queue.length < 16 →
      ∃ u, exec (.addressStreamPush t x) s = .next u ∧ taken u c (.stream op) ∧ { u with cores := s.cores } = s) ∧
    (s.ready t = some p → s.streamCause t p x = none → 16 ≤ s.cores[c].queue.length →
      ∃ u, exec (.addressStreamPush t x) s = .next u ∧ u.threads[t] = { s.threads[t] with wait := .push (.stream x) } ∧
        otherThreads s u t ∧ u.sgl (K.queueWaits c.val) = min (s.sgl (K.queueWaits c.val) + 1) 0xFFFFFFFF ∧
        { u with dict := s.dict, threads := s.threads } = s) ∧
    (s.threads[t].wait = .push o → s.threadPart t = some p → s.threadGo t p = true →
      (s.coreMask p.val).testBit (pushCore t o).val = false → ∃ u, exec (.pushResume t) s = .next u ∧
        u.threads[t].run = 5 ∧ u.cores = s.cores ∧ u.parts = s.parts ∧ otherThreads s u t ∧
        (∀ y, o = .stream y → u.threads[t].faultWord = 0x0809) ∧
        ∀ second slot adv imm, o = .verb second slot adv imm →
          u.threads[t].faultWord = if second then 0x0509 else 0x0409) ∧
    (s.threads[t].wait = .push o → s.threadPart t = some p → s.threadGo t p = true →
      (s.coreMask p.val).testBit (pushCore t o).val = true →
      (16 ≤ s.cores[pushCore t o].queue.length → exec (.pushResume t) s = .next s) ∧
      (s.cores[pushCore t o].queue.length < 16 → o = .stream x →
        ∃ u, exec (.pushResume t) s = .next u ∧ taken u c (.stream op) ∧
          u.threads[t] = { s.threads[t] with wait := .none }.advance ∧ otherThreads s u t ∧
          { u with cores := s.cores, threads := s.threads } = s) ∧
      (∀ second slot adv imm, o = .verb second slot adv imm → s.cores[pushCore t o].queue.length < 16 →
        slotGuard slot = false → s.stopHolds t p = false → ∃ u v, exec (.pushResume t) s = .next u ∧
          taken u (pushCore t o) (.verb v) ∧ v.ticket = s.parts[p].ticket + 1 ∧ v.slot = slot ∧ v.adv = adv ∧
          u.parts[p].ticket = s.parts[p].ticket + 1 ∧ u.threads[t].wait = .none ∧ otherThreads s u t)))

/-! Requests and transports (chapter 3). -/

open Sys2Proof Sys2Proof.Machine Sys2Proof.Claims in
/-- R45, R46, R51, R71, R72, R73, R685: ECHO answers with its data, DESCRIBE with the type, access, set flag, size and default of a
scalar object, READ and READ_SHADOW with its value; an operation outside Table 3-5, an unknown index or subindex, and an
object that may not be read are answered with their status; and none of these changes anything but the transport. -/
def Obligations.ReadsAndErrorsAnswerAndChangeNothing : Prop :=
  ∀ (s : State) (h : Head) (o : ObjRef) (data : List Byte), reaches s h o → data.length ≤ 240 →
    let i := o.idx.toNat
    let j := o.sub.toNat
    answersOnly s (exec (.echo h o data) s) h 9 0 o data ∧
    (∀ op : Byte, op.toNat = 0 ∨ 9 < op.toNat → answersOnly s (exec (.unknownOp h op o data) s) h op.toNat 8 o []) ∧
    (idxKnown i = false → answersOnly s (exec (.read h o) s) h 1 1 o [] ∧ answersOnly s (exec (.write h o data) s) h 2 1 o [] ∧
      answersOnly s (exec (.readShadow h o) s) h 3 1 o [] ∧ answersOnly s (exec (.describe h o) s) h 4 1 o []) ∧
    (idxKnown i = true → objRow i j = none →
      answersOnly s (exec (.read h o) s) h 1 2 o [] ∧ answersOnly s (exec (.write h o data) s) h 2 2 o [] ∧
      answersOnly s (exec (.readShadow h o) s) h 3 2 o [] ∧ answersOnly s (exec (.describe h o) s) h 4 2 o []) ∧
    ∀ r, idxKnown i = true → objRow i j = some r → (∀ m, r.ty ≠ .domain m) →
      answersOnly s (exec (.describe h o) s) h 4 0 o
        (leBytes 1 r.ty.code ++ leBytes 1 r.acc.code ++ leBytes 1 (b2n r.set) ++ [0] ++ leBytes 4 r.ty.size ++
          leBytes 8 (s.dfltOf r i j)) ∧
      (r.acc = .wo → answersOnly s (exec (.read h o) s) h 1 3 o [] ∧ answersOnly s (exec (.readShadow h o) s) h 3 3 o []) ∧
      (r.acc ≠ .wo → s.readRefused (key i j) = true → answersOnly s (exec (.read h o) s) h 1 0x0C o []) ∧
      (r.acc ≠ .wo → s.readRefused (key i j) = false → key i j ≠ K.digest →
        answersOnly s (exec (.read h o) s) h 1 0 o (leBytes r.ty.size (s.scalarVal false r i j)) ∧
        answersOnly s (exec (.readShadow h o) s) h 3 0 o (leBytes r.ty.size (s.scalarVal true r i j)))

open Sys2Proof Sys2Proof.Machine Sys2Proof.Claims in
/-- R47, R48, R52, R53, R73, R87: a WRITE is checked in the order of Table 3-6 and answered with the first status that holds; one
that passes them all sets the object: a set object in the shadow set, whose active value stays. -/
def Obligations.WritesAreCheckedInOrderAndSetTheShadow : Prop :=
  ∀ (s : State) (h : Head) (o : ObjRef) (data : List Byte) (r : ObjRow), reaches s h o → data.length ≤ 240 →
    idxKnown o.idx.toNat = true → objRow o.idx.toNat o.sub.toNat = some r → Safety.sound s →
    let k := key o.idx.toNat o.sub.toNat
    let st : Nat :=
      if r.acc = .ro then 3 else if badLength r k data.length then 4 else if s.badValue r k data = 6 then 6
      else if s.badValue r k data = 5 then 5 else if s.badBuild k (ofLe data) then 0x0F
      else if s.moodRefuses k ∨ s.moodRefusesValue k data then 0x0C else if s.swapRefuses r k then 0x0D else 0
    (st ≠ 0 → answersOnly s (exec (.write h o data) s) h 2 st o []) ∧
    (st = 0 → r.set = true → ∃ u, exec (.write h o data) s = .next u ∧ answered s u h 2 0 o [] ∧
      handed s u h (response h 2 0 o []) ∧ linkKept s u ∧ { u with link := s.link, dict := s.dict } = s ∧
      ((∀ m, r.ty ≠ .domain m) → u.shd k = ofLe data ∧ (∀ x, x ≠ k → u.shd x = s.shd x) ∧
        { u.dict with shd := s.dict.shd } = s.dict) ∧
      (∀ m, r.ty = .domain m → u.dshd k = data ∧ (∀ x, x ≠ k → u.dshd x = s.dshd x) ∧
        { u.dict with dshd := s.dict.dshd } = s.dict))

open Sys2Proof Sys2Proof.Machine Sys2Proof.Claims in
/-- R82, R83, R84, R86, R87: SEG_READ_INIT and SEG_WRITE_INIT open the transfer of their transport; SEG_DATA with the next number
brings or takes 238 bytes, and the remainder last; the one just acknowledged is answered again, and another number with
SEGMENT, and both restart its timeout; SEG_ABORT closes the transfer, and so does its timeout, which is counted.
R80, R82: an open transfer that has seen no SEG_DATA for 4,096 ticks closes and is counted, and a younger one stays; a response is
kept for 1,024 ticks. -/
def Obligations.SegmentedTransfersMoveInOrderAndEnd : Prop :=
  (
  ∀ (s : State) (h : Head) (o : ObjRef) (r : ObjRow) (total : W32) (num : BitVec 16) (data : List Byte) (x : Seg),
    reaches s h o → idxKnown o.idx.toNat = true → objRow o.idx.toNat o.sub.toNat = some r → data.length ≤ 238 →
    let i := o.idx.toNat
    let j := o.sub.toNat
    let e := tix h.req.via
    let n := s.objSize false r i j
    let torn := r.captured && s.readTorn i j
    let free : Prop := ∀ y, s.link.segs[e] = some y → y.closed = false → y.owner = h.req
    let mine : Prop := s.link.segs[e] = some x ∧ x.owner = h.req ∧ x.obj = o
    let opened (u : State) (y : Seg) : Prop := u.link.segs[e] = some y ∧ ∀ f, f ≠ e → u.link.segs[f] = s.link.segs[f]
    (free → r.acc ≠ .wo → (key i j = K.snapPrivData → 64 ≤ s.sgl K.snapThread) → s.readRefused (key i j) = false →
      ∃ u, exec (.segReadInit h o) s = .next u ∧
        answered s u h 5 (if torn then 0x20 else 0) o (leBytes 4 n ++ leBytes 1 (b2n r.captured) ++ leBytes 3 0) ∧
        (n = 0 → u.link.segs[e] = none) ∧
        (n ≠ 0 → opened u (Seg.mk h.req false o n (if r.captured then s.objBytes false r i j else []) 0 torn s.tick false 0 []))) ∧
    (free → r.acc ≠ .ro → badTotal r (key i j) total.toNat = false → s.moodRefuses (key i j) = false →
      s.swapRefuses r (key i j) = false →
      ∃ u, exec (.segWriteInit h o total) s = .next u ∧ answered s u h 6 0 o [] ∧
        opened u (Seg.mk h.req true o total.toNat [] 0 false s.tick false 0 []) ∧ { u with link := s.link } = s) ∧
    (mine → x.closed = false → x.write = true → num.toNat = x.next → data.length = min 238 (x.total - 238 * x.next) →
      x.buf.length + data.length < x.total →
      ∃ u, exec (.segData h o num data) s = .next u ∧ answered s u h 7 0 o (leBytes 2 x.next) ∧
        opened u { x with buf := x.buf ++ data, next := x.next + 1, tick := s.tick, ackStatus := 0, ackData := leBytes 2 x.next } ∧
        { u with link := s.link } = s) ∧
    (mine → x.closed = false → x.write = true → num.toNat = x.next → data.length = min 238 (x.total - 238 * x.next) →
      x.total ≤ x.buf.length + data.length → r.set = true → s.writeStatus r (key i j) (x.buf ++ data) = 0 →
      ∃ u y, exec (.segData h o num data) s = .next u ∧ answered s u h 7 0 o (leBytes 2 x.next) ∧ opened u y ∧
        y.closed = true ∧ { u with link := s.link, dict := s.dict } = s ∧
        ∀ m, r.ty = .domain m → u.dshd (key i j) = x.buf ++ data) ∧
    (mine → x.closed = false → x.write = false → num.toNat = x.next → data = [] →
      let part := ((if r.captured then x.buf else s.objBytes false r i j).drop (238 * x.next)).take 238
      ∃ u y, exec (.segData h o num data) s = .next u ∧
        answered s u h 7 (if x.torn || (!r.captured && s.readTorn i j) then 0x20 else 0) o (leBytes 2 x.next ++ part) ∧
        opened u y ∧ y.next = x.next + 1 ∧ y.closed = decide (x.total ≤ 238 * (x.next + 1)) ∧ y.buf = x.buf) ∧
    (mine → 0 < x.next → num.toNat + 1 = x.next → ∃ u, exec (.segData h o num data) s = .next u ∧
      answered s u h 7 x.ackStatus o x.ackData ∧ opened u (if x.closed then x else { x with tick := s.tick }) ∧
      { u with link := s.link } = s) ∧
    (mine → x.closed = false → num.toNat ≠ x.next → ¬ (0 < x.next ∧ num.toNat + 1 = x.next) →
      ∃ u, exec (.segData h o num data) s = .next u ∧ answered s u h 7 0x0A o [] ∧ opened u { x with tick := s.tick } ∧
        { u with link := s.link } = s) ∧
    (s.link.segs[e] = none → answersOnly s (exec (.segData h o num data) s) h 7 0x0B o [] ∧
      answersOnly s (exec (.segAbort h o) s) h 8 0x0B o []) ∧
    (mine → x.closed = false → ∃ u, exec (.segAbort h o) s = .next u ∧ answered s u h 8 0 o [] ∧
      u.link.segs[e] = none ∧ { u with link := s.link } = s)) ∧
  (
  ∀ (s : State) (t : Transport) (x : Seg), Safety.sound s →
    (s.link.segs[tix t] = some x → x.closed = false → x.tick + 4096 ≤ s.tick →
      ∃ u, exec (.segTimeout t) s = .next u ∧ u.link.segs[tix t] = none ∧
        (∀ f, f ≠ tix t → u.link.segs[f] = s.link.segs[f]) ∧ { u.link with segs := s.link.segs } = s.link ∧
        u.sgl K.segAbandoned = min (s.sgl K.segAbandoned + 1) 0xFFFFFFFF ∧ onlyObjects s u [K.segAbandoned] ∧
        { u with link := s.link, dict := s.dict } = s) ∧
    (s.link.segs[tix t] = some x → s.tick < x.tick + 4096 → exec (.segTimeout t) s = .next s) ∧
    ∃ u, exec .duplicateRecordExpiry s = .next u ∧ { u with link := s.link } = s ∧
      { u.link with dups := s.link.dups } = s.link ∧ ∀ d, d ∈ u.link.dups ↔ d ∈ s.link.dups ∧ s.tick < d.tick + 1024)

open Sys2Proof Sys2Proof.Machine Sys2Proof.Claims in
/-- R54, R55, R58, R64, R65, R67, R75: a PDU enters the receive buffer of its transport behind those that wait; the mailbox is
then busy. At a full buffer, or a busy mailbox, it is turned away as Table 3-5's transports do; a 10BASE-T1S frame that fails its
FCS is counted, and one for another station or EtherType, or longer than 1,518 bytes, ignored. REQ_GO submits the bytes of
MBOX_REQ as they stand after the host's writes of `b`. -/
def Obligations.PdusEnterTheirReceiveBufferOrAreTurnedAway : Prop :=
  ∀ (s : State) (t : Transport) (f : Frame) (b : List Byte), s.canReach t = true → Safety.sound s →
    let req : Requester := { via := t, mac := if t = .t1s then f.src else 0 }
    let room := (s.link.rx.filter (fun q => decide (q.req.via = t))).length <
      (match t with | .mbox => 1 | .i3c => 4 | .t1s => 8)
    let forUs : Prop := t = .t1s → f.fcsOk = true ∧ f.etherType.toNat = s.sgl K.t1sEthertype ∧ b.length ≤ 1500 ∧
      (f.dst = Config.mac ∨ f.dst = broadcast ∧ (at! 0 b 1 = 4 ∨ at! 0 b 1 = 9))
    let counted (c : Instr) (k : Nat) : Prop := ∃ u, exec c s = .next u ∧
      u.sgl k = min (s.sgl k + 1) 0xFFFFFFFF ∧ onlyObjects s u [k] ∧ { u with dict := s.dict } = s
    let entered (c : Instr) (q : Requester) (x : List Byte) (m : Mbox) : Prop := ∃ u, exec c s = .next u ∧
      u.link.rx = s.link.rx ++ [RxPdu.mk q x none] ∧
      (q.via = .mbox → u.link.mbox = { m with busy := true }) ∧ (q.via ≠ .mbox → u.link.mbox = m) ∧
      { u.link with rx := s.link.rx, mbox := s.link.mbox } = s.link ∧ { u with link := s.link } = s
    let m := s.link.mbox
    let buf := patch m.req 0 (b.take 256)
    (forUs → (t = .mbox → s.link.mbox.busy = false) → room → entered (.pduReceive t f b) req b m) ∧
    (forUs → ¬ room ∨ (t = .mbox ∧ s.link.mbox.busy = true) →
      (t = .mbox → counted (.pduReceive t f b) K.mboxIgnored) ∧ (t = .t1s → counted (.pduReceive t f b) K.rxDropped) ∧
      (t = .i3c → ∃ u, exec (.pduReceive t f b) s = .next u ∧ u.link.out = s.link.out ++ [.i3cNack] ∧
        { u.link with out := s.link.out } = s.link ∧ { u with link := s.link } = s)) ∧
    (t = .t1s → f.fcsOk = false → counted (.pduReceive t f b) K.checkFailed) ∧
    (t = .t1s → f.fcsOk = true → ¬ forUs → exec (.pduReceive t f b) s = .next s) ∧
    (t = .mbox → (m.busy = false → room → entered (.reqGo b) { via := .mbox, mac := 0 } buf { m with req := buf }) ∧
      (m.busy = true → ∃ u, exec (.reqGo b) s = .next u ∧ u.link = { s.link with mbox := { m with req := buf } } ∧
        u.sgl K.mboxIgnored = min (s.sgl K.mboxIgnored + 1) 0xFFFFFFFF ∧ onlyObjects s u [K.mboxIgnored] ∧
        { u with link := s.link, dict := s.dict } = s))

open Sys2Proof Sys2Proof.Machine Sys2Proof.Claims in
/-- R53, R66, R79, R88, R91, R694: clearing RSP_READY writes the next response that waits, with the vector that was in force when
its request was answered, and a write of MBOX_VECTOR that waited for it takes effect; clearing NTF_READY, or a handover, the oldest
notification of the transport that NOTIFY_TRANSPORT selects; a transmit opportunity sends the oldest frame; a restored
mailbox shows its flags again and sends their messages. -/
def Obligations.ResponsesAndNotificationsAreHandedOver : Prop :=
  ∀ (s : State) (b : List Byte) (l : List (List Byte)) (n : Notify) (q : List Notify) (h : Head) (v : Byte), Safety.sound s →
    let o := objOf K.notifyTransport
    let m := s.link.mbox
    let vec := (Fin.ofNat 64 (s.sgl K.mboxVector) : Fin 64)
    let said (u : State) (c : Nat) : Prop :=
      if s.link.msixTable[vec].getLsbD 96 = true then u.link.out = s.link.out
      else u.link.out = s.link.out ++ List.replicate c (.msix vec.val)
    (s.hostUp = true → m.waiting = b :: l → ∃ u, exec .rspReadyClear s = .next u ∧ said u 1 ∧
      u.link.mbox = { m with rsp := patch m.rsp 0 b, rspReady := true, busy := false, waiting := l, vector := none } ∧
      (m.vector = none → { u with link := s.link } = s) ∧
      ∀ w, m.vector = some w → u.sgl K.mboxVector = w ∧ onlyObjects s u [K.mboxVector] ∧
        { u with link := s.link, dict := s.dict } = s) ∧
    (s.hostUp = true → m.waiting = [] → ∃ u, exec .rspReadyClear s = .next u ∧ u.link.mbox = { m with rspReady := false } ∧
      { u.link with mbox := m } = s.link ∧ { u with link := s.link } = s) ∧
    (s.hostUp = true → m.restore = false → s.sgl K.notifyTransport = 1 → s.link.notifyQ = n :: q →
      ∃ u, exec .ntfReadyClear s = .next u ∧ u.link.notifyQ = q ∧ said u 1 ∧
        u.link.mbox = { m with ntf := patch m.ntf 0 n.pdu, ntfReady := true } ∧ { u with link := s.link } = s) ∧
    (s.hostUp = true → s.link.notifyQ = [] → ∃ u, exec .ntfReadyClear s = .next u ∧
      u.link.mbox = { m with ntfReady := false } ∧ { u.link with mbox := m } = s.link ∧ { u with link := s.link } = s) ∧
    (s.link.notifyQ = n :: q → s.sgl K.notifyTransport = 3 → s.linkOpen .t1s = true →
      ∃ u, exec .notifyHandover s = .next u ∧ u.link.notifyQ = q ∧
        u.link.t1sTx = s.link.t1sTx ++ [s.frameOf (BitVec.ofNat 48 (s.sgl K.notifyMac)) n.pdu] ∧
        { u.link with notifyQ := s.link.notifyQ, t1sTx := s.link.t1sTx } = s.link ∧ { u with link := s.link } = s) ∧
    (s.link.notifyQ = n :: q → s.sgl K.notifyTransport = 1 → s.hostUp = true → m.ntfReady = false → m.restore = false →
      ∃ u, exec .notifyHandover s = .next u ∧ u.link.notifyQ = q ∧ said u 1 ∧
        u.link.mbox = { m with ntf := patch m.ntf 0 n.pdu, ntfReady := true } ∧ { u with link := s.link } = s) ∧
    (s.link.notifyQ = n :: q → s.sgl K.notifyTransport = 1 → m.ntfReady = true → exec .notifyHandover s = .next s) ∧
    (s.linkOpen .t1s = true → s.link.t1sTx = b :: l → ∃ u, exec .t1sTransmitOpportunity s = .next u ∧
      u.link.t1sTx = l ∧ u.link.out = s.link.out ++ [.t1sFrame b] ∧
      { u.link with t1sTx := s.link.t1sTx, out := s.link.out } = s.link ∧ { u with link := s.link } = s) ∧
    (reaches s h o →
      (v.toNat ≤ 3 → v.toNat ≠ (if s.sled then 2 else 3) → ∃ u, exec (.notifyTransportWrite h v) s = .next u ∧
        answered s u h 2 0 o [] ∧ u.sgl K.notifyTransport = v.toNat ∧ onlyObjects s u [K.notifyTransport] ∧
        u.link.notifyQ = (if v = 0 then [] else s.link.notifyQ) ∧ { u with link := s.link, dict := s.dict } = s) ∧
      (v.toNat = (if s.sled then 2 else 3) → answersOnly s (exec (.notifyTransportWrite h v) s) h 2 0x0F o []) ∧
      (3 < v.toNat → answersOnly s (exec (.notifyTransportWrite h v) s) h 2 6 o [])) ∧
    (s.hostUp = true → m.restore = true → m.rspReady = true → ∃ u, exec .mailboxRestore s = .next u ∧
      said u (if m.ntfReady then 2 else 1) ∧ { u with link := s.link } = s ∧
      u.link.mbox = { m with
        restore := false, busy := !m.waiting.isEmpty || s.link.rx.any (fun e => decide (e.req.via = .mbox)) })

open Sys2Proof Sys2Proof.Machine Sys2Proof.Claims in
/-- R54, R59, R60, R61, R63: a private read takes the oldest pending PDU when it takes all of its bytes, and nothing when it
takes fewer; a notification that was cut short comes again before everything else; ENEC, DISEC, RSTDAA, ENTDAA, SETDASA, SETMWL, SETMRL and RSTACT set the target as I3C has it; a target reset
pattern resets the I3C transport as RSTACT last selected, once. -/
def Obligations.TheI3cTargetFollowsItsCommands : Prop :=
  ∀ (s : State) (b : List Byte) (l : List (List Byte)) (taken : Nat) (n : BitVec 16) (d e : BitVec 7) (a : Byte),
    s.linkOpen .i3c = true →
    let t := s.link.i3c
    let became (c : Instr) (k : I3c) (o : Output) : Prop := ∃ u rest, exec c s = .next u ∧ u.link.i3c = k ∧
      u.link.out = s.link.out ++ o :: rest ∧ { u.link with i3c := t, out := s.link.out } = s.link ∧
      { u with link := s.link } = s
    (t.dyn ≠ 0 → t.cut = none → t.rsp = b :: l →
      (b.length ≤ taken → became (.i3cPrivateRead taken) { t with rsp := l } (.i3cByte (b.take taken))) ∧
      (taken < b.length → became (.i3cPrivateRead taken) t (.i3cByte (b.take taken)))) ∧
    (t.dyn ≠ 0 → t.cut = some b →
      (b.length ≤ taken → became (.i3cPrivateRead taken) { t with cut := none } (.i3cByte (b.take taken))) ∧
      (taken < b.length → became (.i3cPrivateRead taken) t (.i3cByte (b.take taken)))) ∧
    (t.dyn ≠ 0 → t.cut = none → t.rsp = [] → s.sgl K.notifyTransport ≠ 2 → became (.i3cPrivateRead taken) t .i3cNack) ∧
    became .enec { t with ibi := true } .i3cAck ∧ became .disec { t with ibi := false } .i3cAck ∧
    became .rstdaa { t with dyn := 0 } .i3cAck ∧
    (t.dyn = 0 → became (.entdaa d) { t with dyn := d } (.i3cByte (pidBytes ++ [0x06, 0x00])) ∧
      (e.toNat = s.sgl K.i3cStaticAddr → became (.setdasa e d) { t with dyn := d } .i3cAck)) ∧
    (256 ≤ n.toNat → became (.setmwl n) { t with mwl := n } .i3cAck ∧ became (.setmrl n) { t with mrl := n } .i3cAck) ∧
    (n.toNat < 256 → became (.setmwl n) t .i3cNack ∧ became (.setmrl n) t .i3cNack) ∧
    (a.toNat ≤ 1 → became (.rstact a) { t with rstact := some (decide (a = 1)) } .i3cAck) ∧
    (1 < a.toNat → became (.rstact a) t .i3cNack) ∧
    (t.dyn ≠ 0 → became .getpid t (.i3cByte pidBytes) ∧ became .getbcr t (.i3cByte [0x06]) ∧ became .getdcr t (.i3cByte [0x00]) ∧
      became .getmwl t (.i3cByte (leBytes 2 t.mwl.toNat).reverse) ∧
      became .getmrl t (.i3cByte (leBytes 2 t.mrl.toNat).reverse) ∧
      ∀ c, c = Instr.getstatus ∨ c = Instr.getmxds → ∃ u x y, exec c s = .next u ∧
        u.link.out = s.link.out ++ [.i3cByte [x, y]] ∧ { u.link with out := s.link.out } = s.link ∧
        { u with link := s.link, freeCtr := s.freeCtr } = s) ∧
    (t.rstact = some false → ∃ u, exec .targetResetPattern s = .next u ∧ u.link.i3c = { t with rstact := none } ∧
      { u.link with i3c := t } = s.link ∧ { u with link := s.link } = s) ∧
    (t.rstact ≠ some false → ∃ u, exec .targetResetPattern s = .next u ∧
      u.link.i3c = { t with rsp := [], dyn := 0, rstact := none } ∧
      u.link.rx = s.link.rx.filter (fun q => decide (q.req.via ≠ .i3c)) ∧
      { u.link with i3c := t, rx := s.link.rx } = s.link ∧ { u with link := s.link } = s)

/-! Flushes, conjunction counters and partitions (chapters 7, 9, 18 and 19). -/

open Sys2Proof Sys2Proof.Machine Sys2Proof.Claims in
/-- R362, R363, R364, R368, R695: a FLUSH of a thread withdraws its clause, its fetched clauses and its wait; one of a core of a
directed partition moves no thread. The value is kept when it is higher than the one pending. From 2 on every queued verb
that it reaches is gone, and at 3 the preempted one too, and the running one has been asked to preempt. A partition in
state 6 refuses it; in Fault only the value is kept.
R362, R365, R695: a flush completes when every verb that the thread pushed is gone, or every one that the core held, at a verb
boundary: the ring of the thread stands at its tail, the thread may run again, FLUSH_STATE reads 0 and record 0x0230 is written;
before that, and while the partition is in state 6, nothing happens. -/
def Obligations.FlushesWithdrawAbandonAndComplete : Prop :=
  (
  ∀ (s : State) (h : Head) (t : ThreadId) (p : PartId) (v : Nat) (i : Instr),
    s.threadPart t = some p → reaches s h (objOf (flushKey t)) →
    (v = 1 ∧ i = .flushRun h t ∨ v = 2 ∧ i = .flushAbandonQueued h t ∨ v = 3 ∧ i = .flushPreempt h t) →
    let directed : Bool := decide (t.val < 64) && !s.auto p.val
    let reach (c : CoreId) (w : Verb) : Prop := flushReaches t directed c w.thread = true
    let mine (c : CoreId) : Prop := if t.val < 64 then c.val = t.val else bit (s.coreMask p.val) c.val = true
    (s.parts[p].state = 6 → answersOnly s (exec i s) h 2 0x0C (objOf (flushKey t)) []) ∧
    (s.parts[p].state ≠ 6 → s.inFault = true → ∃ u, exec i s = .next u ∧ answered s u h 2 0 (objOf (flushKey t)) [] ∧
      (directed = false → u.cores = s.cores ∧ otherThreads s u t ∧
        u.threads[t] = { s.threads[t] with flush := max s.threads[t].flush v }) ∧
      (directed = true → u.threads = s.threads ∧ ∀ c : CoreId, c.val = t.val →
        u.cores[c] = { s.cores[c] with flush := max s.cores[c].flush v, flushFor := s.cores[c].tickets })) ∧
    (s.parts[p].state ≠ 6 → s.inFault = false → ∃ u, exec i s = .next u ∧ answered s u h 2 0 (objOf (flushKey t)) [] ∧
      (directed = false → u.threads[t].flush = max s.threads[t].flush v ∧ u.threads[t].cl = ClauseSt.reset ∧
        u.threads[t].fetchq = [] ∧ u.threads[t].wait = .none ∧ u.threads[t].s = s.threads[t].s) ∧
      (directed = true → u.rings = s.rings ∧ u.threads[t].flush = s.threads[t].flush ∧
        ∀ c : CoreId, c.val = t.val → u.cores[c].flush = max s.cores[c].flush v ∧ u.cores[c].flushFor = s.cores[c].tickets) ∧
      (v = 1 → ∀ c : CoreId, u.cores[c].queue = s.cores[c].queue ∧ u.cores[c].pre = s.cores[c].pre) ∧
      (∀ c, mine c → (2 ≤ v → ∀ w, QEnt.verb w ∈ u.cores[c].queue → ¬ reach c w) ∧
        (v = 3 → ∀ w, u.cores[c].pre = some w → ¬ reach c w) ∧
        (v = 3 → ∀ w, u.cores[c].active = some w → reach c w → u.cores[c].preemptReq = true)))) ∧
  (
  ∀ (s : State) (t : ThreadId) (c : CoreId) (r : Fin 80),
    let h := s.threads[t]
    let k := s.cores[c]
    let inReset (o : Option PartId) : Prop := ∃ p, o = some p ∧ s.parts[p].state = 6
    let left : Prop := ∃ d : CoreId, ∃ w ∈ s.cores[d].verbs, w.thread = t.val
    let pending : Prop := k.active ≠ none ∨ k.pre ≠ none ∨ ∃ v ∈ k.verbs, k.flushFor.contains v.ticket = true
    let owner (o : Option PartId) : Nat := match o with | some p => p.val | none => 0xFF
    (h.flush ≠ 0 → ¬ left → ¬ inReset (s.threadPart t) → ∃ u, exec (.flushComplete t) s = .next u ∧ otherThreads s u t ∧
      u.threads[t] = { h with flush := 0, run := 0, faultWord := 0, faultAddr := 0 } ∧
      (s.threadRing t = none → u.rings = s.rings) ∧
      (s.threadRing t = some r → (∀ i, i ≠ r → u.rings[i] = s.rings[i]) ∧ u.rings[r] =
        { tail := s.rings[r].tail, retire := s.rings[r].tail, fetch := s.rings[r].tail, pc := s.rings[r].tail, hold := none }) ∧
      logged s u 0x0230 0 (owner (s.threadPart t)) t.val 0 ∧ onlyObjects s u logKeys ∧
      { u with aon := s.aon, dict := s.dict, link := s.link, rings := s.rings, threads := s.threads } = s) ∧
    (h.flush = 0 ∨ left ∨ inReset (s.threadPart t) → exec (.flushComplete t) s = .next s) ∧
    (k.flush ≠ 0 → ¬ pending → ¬ inReset (s.corePart c.val) → ∃ u, exec (.coreFlushComplete c) s = .next u ∧
      u.cores[c] = { k with flush := 0, flushFor := [] } ∧ (∀ i, i ≠ c → u.cores[i] = s.cores[i]) ∧
      logged s u 0x0230 0 (owner (s.corePart c.val)) c.val 0 ∧ onlyObjects s u logKeys ∧
      { u with aon := s.aon, dict := s.dict, link := s.link, cores := s.cores } = s) ∧
    (k.flush = 0 ∨ pending ∨ inReset (s.corePart c.val) → exec (.coreFlushComplete c) s = .next s))

open Sys2Proof Sys2Proof.Machine Sys2Proof.Claims in
/-- R350, R351, R358, R359: a write of CONJ_VALUE sets the selected counter and a read returns it; a 4-byte BAR2 read of a
counter returns it, and a 4-byte BAR2 write adds to it as a signal does, and notes it for the partition that owns the
counter's block. -/
def Obligations.CountersAreSetReadAndSignalled : Prop :=
  ∀ (s : State) (h : Head) (v : W32) (i : BitVec 17), Safety.sound s →
    let n := s.sgl K.conjSelect
    (reaches s h (objOf K.conjValue) →
      (∃ u, exec (.conjValueWrite h v) s = .next u ∧ answered s u h 2 0 (objOf K.conjValue) [] ∧
        u.conjVal n = v.toNat ∧ (∀ j, j ≠ n → u.conjVal j = s.conjVal j) ∧ u.store.mem = s.store.mem ∧
        u.threads = s.threads ∧ u.cores = s.cores ∧ u.ledger = s.ledger) ∧
      answersOnly s (exec (.conjValueRead h) s) h 1 0 (objOf K.conjValue) (leBytes 4 (s.conjVal n))) ∧
    (s.hostUp = true → s.mood ≠ .quiesce → s.link.bar2 = [] →
      (∃ u, exec (.bar2CounterRead i) s = .next u ∧
        u.link.out = s.link.out ++ [.bar2Data (leBytes 4 (s.conjVal i.toNat)) false] ∧
        { u.link with out := s.link.out } = s.link ∧ { u with link := s.link } = s) ∧
      (s.inFault = false → ∃ u, exec (.bar2CounterSignal i v) s = .next u ∧
        u.conjVal i.toNat = min (s.conjVal i.toNat + v.toNat) 0xFFFFFFFF ∧
        (∀ j, j ≠ i.toNat → u.conjVal j = s.conjVal j) ∧ (∀ p, s.conjOwnerOf (i.toNat / 256) = some p → u.parts[p].rang = true) ∧
        u.sgl K.conjSignalsApplied = (s.sgl K.conjSignalsApplied + 1) % 2 ^ 64 ∧ u.store.mem = s.store.mem ∧
        u.threads = s.threads ∧ u.cores = s.cores ∧ u.ledger = s.ledger))

open Sys2Proof Sys2Proof.Machine Sys2Proof.Claims in
/-- R252, R253, R255, R298, R310, R323, R421: PART_RESET puts an enabled partition into state 6 and is refused by a disabled one;
its completion leaves Table 7-3: nothing on its cores but tiles that had begun to commit, its threads and rings at zero, its
tickets from zero, PART_STATE 1 and one more reset counted, with nothing changed of another partition, of its sub-ledger or of
the counters. In Fault nothing completes (R137).
R627, R628, R629, R630: a partition fault is counted, kept when it is the first, and begins the halt of its partition only; a
control core's thread holds, and the faulting verb of a core is gone. The partition is halted, in state 4, once no verb of it
runs and no thread of it is inside a clause. -/
def Obligations.PartitionsAreResetAndHaltOnFaults : Prop :=
  (
  ∀ (s : State) (h : Head) (p : PartId), Safety.sound s →
    let o := objOf (K.partReset p.val)
    let q := s.parts[p]
    let ofIt (c : CoreId) : Prop := bit (s.coreMask p.val) c.val = true
    (reaches s h o → s.enabled p.val = true → ∃ u, exec (.partReset h p) s = .next u ∧ answered s u h 2 0 o [] ∧
      u.parts[p] = (if q.state = 6 then q else { q with state := 6, resetTick := s.tick }) ∧
      (∀ i, i ≠ p → u.parts[i] = s.parts[i]) ∧ { u with link := s.link, parts := s.parts } = s) ∧
    (reaches s h o → s.enabled p.val = false → answersOnly s (exec (.partReset h p) s) h 2 0x0C o []) ∧
    (q.state ≠ 6 ∨ s.tapOwes p = true ∨ s.inFault = true → exec (.partResetComplete p) s = .next s) ∧
    (q.state = 6 → s.tapOwes p = false → s.inFault = false → ∃ u, exec (.partResetComplete p) s = .next u ∧
      u.parts[p] = { Part.reset with state := 1, deadlineSeen := q.deadlineSeen } ∧
      (∀ i, i ≠ p → u.parts[i] = s.parts[i]) ∧
      (∀ c, ofIt c →
        { u.cores[c] with wbuf := [], retiring := [] } = CoreSt.reset (BitVec.ofNat 32 (s.act (K.lfsrSeed c.val))) ∧
        (∀ x, x ∈ u.cores[c].wbuf → x.begun = true) ∧
        ∀ v, v ∈ u.cores[c].retiring → v ∈ s.cores[c].retiring ∧ v.part ≠ p.val) ∧
      (∀ c, ¬ ofIt c → u.cores[c] = s.cores[c]) ∧
      (∀ t : ThreadId, (t.val < 64 ∧ bit (s.coreMask p.val) t.val = true ∨ t ∈ s.ctlThread p.val) →
        u.threads[t] = { Thread.reset with pushRejected := s.threads[t].pushRejected }) ∧
      (∀ r : Fin 80, u.rings[r] = if (r.val < 64 ∧ bit (s.coreMask p.val) r.val = true) ∨ r.val = 64 + p.val
        then RingPos.reset else s.rings[r]) ∧
      (∀ i, i ≠ p → u.ledger.subs[i] = s.ledger.subs[i]) ∧ u.store.conj = s.store.conj ∧
      u.sgl (K.partResetCount p.val) = (s.sgl (K.partResetCount p.val) + 1) % 2 ^ 32 ∧ u.sgl (K.stopAfter p.val) = 0 ∧
      u.sgl (K.stopState p.val) = 0 ∧ u.dict.act = s.dict.act ∧ u.dict.shd = s.dict.shd)) ∧
  (
  ∀ (s : State) (p : PartId) (f : FaultInfo), Safety.sound s → s.parts[p].state ≠ 6 → s.inFault = false →
    let q := s.parts[p]
    let word := f.kind.val + 2 ^ 8 * f.cause.toNat + 2 ^ 16 * f.unit.val + 2 ^ 22 * (if f.control then 1 else 0) +
      2 ^ 32 * (f.ticket.toNat % 2 ^ 32)
    let still := (∀ c : CoreId, bit (s.coreMask p.val) c.val = true → ∀ v, s.cores[c].active = some v → v.part ≠ p.val) ∧
      ∀ t, t ∈ s.threadsOf p.val → s.threads[t].unsettled = false
    (f.kind ≠ 0 → s.enabled p.val = true → ∃ u, exec (.partitionFault p f) s = .next u ∧
      u.parts[p].faulted = true ∧ u.parts[p].halting = decide (q.state ≠ 4) ∧ u.parts[p].state = q.state ∧
      (∀ i, i ≠ p → u.parts[i] = s.parts[i]) ∧
      u.sgl (K.partFaults p.val) = min (s.sgl (K.partFaults p.val) + 1) 0xFFFFFFFF ∧
      (q.faulted = false → u.sgl (K.partFault p.val) = word ∧ u.sgl (K.partFaultAddress p.val) = f.addr.toNat ∧
        u.sgl (K.partFaultTick p.val) = s.tick) ∧
      (q.faulted = true → u.sgl (K.partFault p.val) = s.sgl (K.partFault p.val)) ∧
      (∀ c : CoreId, bit (s.coreMask p.val) c.val = true → u.cores[c].active.isSome = true → u.cores[c].preemptReq = true) ∧
      (f.control = true → f.unit.val < 16 → u.threads[(Fin.ofNat 80 (64 + f.unit.val) : ThreadId)].holding = true ∧
        logged s u (0x0200 + f.kind.val) 2 p.val word f.addr.toNat) ∧
      (f.control = false → ∀ v, v ∈ u.cores[f.unit].verbs → ¬ (v.part = p.val ∧ v.ticket = f.ticket.toNat))) ∧
    (f.kind = 0 ∨ s.enabled p.val = false → exec (.partitionFault p f) s = .next s) ∧
    (q.halting = true → still → ∃ u, exec (.partitionHalted p) s = .next u ∧ { u with parts := s.parts } = s ∧
      u.parts[p] = { q with state := 4, halting := false } ∧ ∀ i, i ≠ p → u.parts[i] = s.parts[i]) ∧
    (q.halting = false ∨ ¬ still → exec (.partitionHalted p) s = .next s))

open Sys2Proof Sys2Proof.Machine Sys2Proof.Claims in
/-- R631, R645, R646, R647: PART_RELEASE puts a partition in state 3, 4 or 5 back into state 1 and lets its held threads go on,
and is refused otherwise; STOP_AFTER sets STOP_STATE, which a partition reset zeroes with it, and a partition enters state 5
once its threads hold or wait and no verb of it is left.
R621, R622, R625: after 256 quiet ticks the stalemate of a running partition sets state 3, STALEMATE_TICK and
WAIT_GRAPH, counts it and writes record 0x0220; before that nothing happens, and no thread moves. -/
def Obligations.PartitionsStopStaleAndAreReleased : Prop :=
  (
  ∀ (s : State) (h : Head) (p : PartId) (n : W64), Safety.sound s →
    let q := s.parts[p]
    let released (u : State) : Prop := ∀ t, (t ∈ s.threadsOf p.val → u.threads[t] = { s.threads[t] with holding := false }) ∧
      (t ∉ s.threadsOf p.val → u.threads[t] = s.threads[t])
    let stops := (∃ t, t ∈ s.threadsOf p.val ∧ s.threads[t].holding = true) ∧ (∀ t, t ∈ s.threadsOf p.val →
      s.threads[t].holding = true ∨ (∃ ref v b tag n, s.threads[t].wait = .conj ref v b tag n) ∨
        (s.threads[t].wait = .none ∧ s.threads[t].run ≠ 5 ∧ s.ringEmpty t = true)) ∧ s.verbsOf p.val = []
    (reaches s h (objOf (K.partRelease p.val)) → s.enabled p.val = true → (q.state = 3 ∨ q.state = 4 ∨ q.state = 5) →
      ∃ u, exec (.partRelease h p) s = .next u ∧ answered s u h 2 0 (objOf (K.partRelease p.val)) [] ∧ released u ∧
        u.parts[p] = { q with state := 1, faulted := false, halting := false, stopped := false, quiet := 0 } ∧
        (∀ i, i ≠ p → u.parts[i] = s.parts[i]) ∧ logged s u 0x0222 0 p.val q.state 0 ∧
        { u with aon := s.aon, dict := s.dict, link := s.link, parts := s.parts, threads := s.threads } = s) ∧
    (reaches s h (objOf (K.partRelease p.val)) → (s.enabled p.val = false ∨ q.state < 3 ∨ 5 < q.state) →
      answersOnly s (exec (.partRelease h p) s) h 2 0x0C (objOf (K.partRelease p.val)) []) ∧
    (reaches s h (objOf (K.stopAfter p.val)) → ∃ u, exec (.stopAfter h p n) s = .next u ∧
      answered s u h 2 0 (objOf (K.stopAfter p.val)) [] ∧ u.sgl (K.stopAfter p.val) = n.toNat ∧
      u.sgl (K.stopState p.val) = (if n = 0 then 0 else 1) ∧ onlyObjects s u [K.stopAfter p.val, K.stopState p.val] ∧
      (q.state = 1 ∧ q.halting = false → released u) ∧ (q.state ≠ 1 ∨ q.halting = true → u.threads = s.threads) ∧
      { u with dict := s.dict, link := s.link, threads := s.threads } = s) ∧
    (s.enabled p.val = true → q.state = 1 → q.halting = false → stops → ∃ u, exec (.stopReached p) s = .next u ∧
      u.parts[p] = { q with state := 5, stopped := true } ∧ (∀ i, i ≠ p → u.parts[i] = s.parts[i]) ∧
      u.sgl (K.stopState p.val) = 2 ∧ logged s u 0x0221 0 p.val (s.sgl (K.stopAfter p.val)) 0 ∧
      onlyObjects s u (K.stopState p.val :: logKeys) ∧
      { u with aon := s.aon, dict := s.dict, link := s.link, parts := s.parts } = s) ∧
    (¬ stops → exec (.stopReached p) s = .next s) ∧
    (q.state = 6 → s.tapOwes p = false → s.inFault = false → ∃ u, exec (.partResetComplete p) s = .next u ∧
      u.sgl (K.stopAfter p.val) = 0 ∧
      u.sgl (K.stopState p.val) = 0)) ∧
  (
  ∀ (s : State) (p : PartId), Safety.sound s →
    let q := s.parts[p]
    (s.enabled p.val = true → q.state = 1 → 256 ≤ q.quiet → ∃ u, exec (.stalemate p) s = .next u ∧
      u.parts[p] = { q with state := 3, quiet := 0 } ∧ (∀ i, i ≠ p → u.parts[i] = s.parts[i]) ∧
      u.sgl (K.stalemateTick p.val) = s.tick ∧
      u.sgl (K.stalemateCount p.val) = min (s.sgl (K.stalemateCount p.val) + 1) 0xFFFFFFFF ∧
      u.dsgl (K.waitGraph p.val) = s.graphOf p ∧ logged s u 0x0220 2 p.val s.tick 0 ∧
      { u with aon := s.aon, dict := s.dict, link := s.link, parts := s.parts } = s) ∧
    (s.enabled p.val = false ∨ q.state ≠ 1 ∨ q.quiet < 256 → exec (.stalemate p) s = .next s))

/-! The central store and the host (chapters 6 and 9). -/

open Sys2Proof Sys2Proof.Machine Sys2Proof.Claims in
/-- R107, R114, R132, R247, R254, R320, R321, R324, R325, R326: a doorbell waits through a transition, through Quiesce and for the
mood of its control core, the last value of a register only. A feed or ring doorbell sets its tail when the value lies between TAIL and the
ring's size past RETIRE, a completion doorbell the consumed count when it frees no more than is in use; another value is
rejected, counted and recorded. One of a disabled partition, of a partition in reset, of a ring not in use or of another
size is discarded with record 0x0241. -/
def Obligations.DoorbellsAreAcceptedRejectedOrDiscarded : Prop :=
  ∀ (s : State) (v : W32) (p : PartId) (c : CoreId) (r : Fin 96) (size : Nat) (x : W64), s.hostUp = true → Safety.sound s →
    let accepted (i : Instr) (r : Fin 96) (q : PartId) (u : State) : Prop := exec i s = .next u ∧
      u.link.doorbells[r] = v ∧ (∀ k, k ≠ r → u.link.doorbells[k] = s.link.doorbells[k]) ∧
      { u.link with doorbells := s.link.doorbells } = s.link ∧ u.parts[q].rang = true ∧ (∀ k, k ≠ q → u.parts[k] = s.parts[k]) ∧
      { u with link := s.link, rings := s.rings, parts := s.parts } = s
    let rejected (i : Instr) (r : Fin 96) (q : PartId) (k : Nat) : Prop := ∃ u, exec i s = .next u ∧
      u.sgl k = min (s.sgl k + 1) 0xFFFFFFFF ∧ logged s u 0x0240 1 q.val r.val v.toNat ∧ onlyObjects s u (k :: logKeys) ∧
      u.link.doorbells = s.link.doorbells ∧ { u with aon := s.aon, dict := s.dict, link := s.link } = s
    let discarded (i : Instr) (r : Fin 96) (q w : Nat) : Prop := ∃ u, exec i s = .next u ∧ logged s u 0x0241 1 q r.val w ∧
      onlyObjects s u logKeys ∧ u.link.doorbells = s.link.doorbells ∧
      { u with aon := s.aon, dict := s.dict, link := s.link } = s
    let tail (i : Instr) (r : Fin 96) (e : Fin 80) (q : PartId) (k words : Nat) : Prop :=
      let g := s.rings[e]
      let ok := (v - g.retire).toNat ≤ words ∧ (g.tail - g.retire).toNat ≤ (v - g.retire).toNat
      (ok → ∃ u, accepted i r q u ∧ u.rings[e] = { g with tail := v } ∧ (∀ k, k ≠ e → u.rings[k] = s.rings[k]) ∧
        u.parts[q] = { s.parts[q] with rang := true }) ∧
      (¬ ok → rejected i r q k)
    let feed : Fin 96 := Fin.ofNat 96 p.val
    let compl : Fin 96 := Fin.ofNat 96 (16 + p.val)
    let ring : Fin 96 := Fin.ofNat 96 (32 + c.val)
    let held (i : Instr) (r : Fin 96) : Prop := ∃ u rest, exec i s = .next u ∧ u.aon.held = rest ++ [.doorbell r v] ∧
      (∀ e, e ∈ rest ↔ e ∈ s.aon.held ∧ ∀ w, e ≠ .doorbell r w) ∧ { u.aon with held := s.aon.held } = s.aon ∧
      { u with aon := s.aon } = s
    let openTo (q : PartId) : Prop := s.enabled q.val = true ∧ s.parts[q].state ≠ 6
    (s.bellHeld feed v = true → held (.feedDoorbell p v) feed) ∧ (s.bellHeld ring v = true → held (.ringDoorbell c v) ring) ∧
    (s.bellHeld compl v = true → held (.complDoorbell p v) compl) ∧
    (s.bellHeld feed v = false → (openTo p ∧ s.act (K.feedEnable p.val) = 1 →
      tail (.feedDoorbell p v) feed (Fin.ofNat 80 (64 + p.val)) p (K.feedRejected p.val) (s.act (K.feedWords p.val))) ∧
      (¬ (openTo p ∧ s.act (K.feedEnable p.val) = 1) → discarded (.feedDoorbell p v) feed p.val v.toNat)) ∧
    (s.bellHeld ring v = false → (∀ q, s.corePart c.val = some q → s.parts[q].state ≠ 6 → s.auto q.val = true →
        s.act (K.ringEnable c.val) = 1 →
        tail (.ringDoorbell c v) ring (Fin.ofNat 80 c.val) q (K.ringRejected c.val) (s.act (K.ringWords c.val))) ∧
      (s.corePart c.val = none → discarded (.ringDoorbell c v) ring 0xFF v.toNat)) ∧
    (s.bellHeld compl v = false → openTo p → s.act (K.complEnable p.val) = 1 →
      let q := s.parts[p]
      let ok := (q.produced - v).toNat ≤ (q.produced - q.consumed).toNat
      (ok → ∃ u, accepted (.complDoorbell p v) compl p u ∧ u.rings = s.rings ∧
        u.parts[p] = { q with consumed := v, rang := true }) ∧
      (¬ ok → rejected (.complDoorbell p v) compl p (K.complRejected p.val))) ∧
    (size ≠ 4 → ∀ q, s.doorbellPart r = some q → discarded (.doorbellBadSize r size x) r q.val x.toNat)

open Sys2Proof Sys2Proof.Machine Sys2Proof.Claims in
/-- R193, R209, R215, R216, R219, R220, R224, R230, R237, R238: a BAR2 request to the near or deep tier returns its bytes, writes them, or
performs its atomic and returns the old value; one to an unmapped offset, or an atomic that is not aligned, is an address fault
and answered as unsupported, as a 128-bit CAS is, which at a counter is an address fault too (R358); one that the mood does not
permit waits. In Fault nothing is written.
R232 to R236, R238, R649, R650, R686: PEEK_DATA returns the bytes of its range in one step, poisoned words, and those in which
the read finds an error that it cannot correct, as zero, with OK_TORN
when any of them is torn; DIGEST returns the CRC-64 of its range and counts its poisoned words; POKE_DATA writes its bytes at
PEEK_ADDRESS; arrays that are not live refuse them. EVENT_LOG, SNAP_REGS and SNAP_PRIV_DATA are captured whole. -/
def Obligations.Bar2RequestsAndCapturesReachTheStore : Prop :=
  (
  ∀ (s : State) (off : BitVec 36) (len : Nat) (data : List Byte) (w64 : Bool) (v x : W64), s.hostUp = true →
    Safety.sound s →
    let o := off.toNat
    let n := if w64 = true then 8 else 4
    let old := s.readWord o n
    let now (r : HeldBar2) : Prop := s.link.bar2 = [] ∧ s.mood ≠ .quiesce ∧ (r.high = true → s.storeUp = true)
    let sent (u : State) (b : List Output) : Prop := u.link.out = s.link.out ++ b
    let faulted (i : Instr) : Prop := ∃ u rest, exec i s = .next u ∧ u.link.out = s.link.out ++ rest ++ [.bar2Unsupported] ∧
      u.store = s.store ∧ u.sgl K.addressFaults = min (s.sgl K.addressFaults + 1) 0xFFFFFFFF ∧
      logged s u 0x0112 1 0xFF (s.ga o) 0
    let held (i : Instr) (r : HeldBar2) : Prop := ∃ u, exec i s = .next u ∧ u.link.bar2 = s.link.bar2 ++ [(r, false)] ∧
      { u.link with bar2 := s.link.bar2 } = s.link ∧ { u with link := s.link } = s
    let atomic (i : Instr) (r : HeldBar2) (new : Nat) : Prop :=
      (now r → s.inFault = false → o % n = 0 → isData o = true → readable s o n →
        ∃ u rest, exec i s = .next u ∧ stored s u o n new ∧
          u.link.out = s.link.out ++ rest ++ [.bar2Data (leBytes n old) false]) ∧
      (now r → s.inFault = false → (o % n ≠ 0 ∨ isData o = false) → faulted i) ∧
      (now r → s.inFault = true → ∃ u, exec i s = .next u ∧ sent u [.bar2Unsupported] ∧ { u with link := s.link } = s) ∧
      (¬ now r → held i r)
    (now (.read o len) → inOneTier o len = true → wordsRead s.store.latent o len = [] →
      ∃ u, exec (.bar2Read off len) s = .next u ∧
      sent u [.bar2Data (s.readMem o len) (s.anyPoison o len)] ∧ u.store.mem = s.store.mem ∧
      onlyObjects s u lineKeys ∧ { u with dict := s.dict, store := s.store, link := s.link } = s) ∧
    (now (.read o len) → tierOf o = .unmapped → 0 < len → faulted (.bar2Read off len)) ∧
    (¬ now (.read o len) → held (.bar2Read off len) (.read o len)) ∧
    (now (.write o data) → s.inFault = false → inOneTier o data.length = true → readable s o data.length →
      ∃ u, exec (.bar2Write off data) s = .next u ∧ stored s u o data.length (ofLe data) ∧ u.store.conj = s.store.conj) ∧
    (now (.write o data) → s.inFault = false → tierOf o = .unmapped → data ≠ [] → faulted (.bar2Write off data)) ∧
    (now (.write o data) → s.inFault = true → exec (.bar2Write off data) s = .next s) ∧
    (¬ now (.write o data) → held (.bar2Write off data) (.write o data)) ∧
    atomic (.fetchadd off w64 v) (.atomic 1 (8 * n) o v.toNat 0) ((old + v.toNat) % 2 ^ (8 * n)) ∧
    atomic (.atomicopSwap off w64 v) (.atomic 0xA (8 * n) o v.toNat 0) (v.toNat % 2 ^ (8 * n)) ∧
    atomic (.atomicopCas off w64 x v) (.atomic 0xB (8 * n) o v.toNat x.toNat)
      (if old = x.toNat % 2 ^ (8 * n) then v.toNat % 2 ^ (8 * n) else old) ∧
    (tierOf o ≠ .counters → ∃ u, exec (.cas128 off) s = .next u ∧ sent u [.bar2Unsupported] ∧ { u with link := s.link } = s) ∧
    (tierOf o = .counters → faulted (.cas128 off))) ∧
  (
  ∀ (s : State) (h : Head) (data : List Byte), Safety.sound s →
    let a := s.sgl K.peekAddress
    let n := s.sgl K.peekLength
    let da := s.sgl K.digestAddress
    let dn := s.sgl K.digestLength
    let word (w : Nat) : List Byte := if s.badWord (a + 8 * w) then List.replicate 8 0 else s.readMem (a + 8 * w) 8
    let bytes := ((List.range (n / 8)).map word).flatten
    let e := tix h.req.via
    let free : Prop := ∀ y, s.link.segs[e] = some y → y.closed = false → y.owner = h.req
    let captured (u : State) (o : ObjRef) (b : List Byte) (torn : Bool) : Prop :=
      answered s u h 5 (if torn then 0x20 else 0) o (leBytes 4 b.length ++ [1, 0, 0, 0]) ∧
        (b.length ≠ 0 → u.link.segs[e] = some (Seg.mk h.req false o b.length b 0 torn s.tick false 0 [])) ∧ u.store.mem = s.store.mem
    (reaches s h (objOf K.peekData) → s.rangeLive a n = true → n % 8 = 0 →
      (n ≤ 240 → ∃ u, exec (.peekData h false) s = .next u ∧
        answered s u h 1 (if s.tornIn a n then 0x20 else 0) (objOf K.peekData) bytes ∧
        u.dsgl K.peekPoison = s.peekPoison ∧ u.store.mem = s.store.mem) ∧
      (240 < n → answersOnly s (exec (.peekData h false) s) h 1 4 (objOf K.peekData) []) ∧
      (free → ∃ u, exec (.peekData h true) s = .next u ∧ captured u (objOf K.peekData) bytes (s.tornIn a n) ∧
        u.dsgl K.peekPoison = s.peekPoison)) ∧
    (reaches s h (objOf K.peekData) → s.rangeLive a n = false → n ≤ 240 →
      answersOnly s (exec (.peekData h false) s) h 1 0x0C (objOf K.peekData) []) ∧
    (reaches s h (objOf K.pokeData) → data.length ≤ 240 → data.length % 8 = 0 → inOneTier a data.length = true →
      s.rangeLive a data.length = true → s.live a = true →
      (s.inFault = false → readable s a data.length → ∃ u, exec (.pokeData h data) s = .next u ∧
        answered s u h 2 0 (objOf K.pokeData) [] ∧ stored s u a data.length (ofLe data)) ∧
      (s.inFault = true → answersOnly s (exec (.pokeData h data) s) h 2 0x0C (objOf K.pokeData) [])) ∧
    (reaches s h (objOf K.digest) → s.rangeLive da dn = true → ∃ u, exec (.digest h) s = .next u ∧
      answered s u h 1 (if s.tornIn da dn then 0x20 else 0) (objOf K.digest) (leBytes 8 (crc64 (s.digestBytes da dn)).toNat) ∧
      u.sgl K.digestPoisoned = min (s.sgl K.digestPoisoned + s.poisonCount da dn) 0xFFFFFFFF ∧ u.store.mem = s.store.mem) ∧
    (reaches s h (objOf K.eventLog) → free → ∃ u, exec (.eventLog h) s = .next u ∧
      captured u (objOf K.eventLog) s.aon.log.bytes false) ∧
    (s.snapReady = true → free →
      (reaches s h (objOf K.snapRegs) → ∃ u, exec (.snapRegs h) s = .next u ∧
        captured u (objOf K.snapRegs) (s.snapBytes (Fin.ofNat 80 (s.sgl K.snapThread))) false) ∧
      (reaches s h (objOf K.snapPrivData) → 64 ≤ s.sgl K.snapThread → ∃ u, exec (.snapPrivData h) s = .next u ∧
        captured u (objOf K.snapPrivData) (s.threads[(Fin.ofNat 80 (s.sgl K.snapThread) : ThreadId)].priv.readN
          (s.sgl K.snapPrivAddress) (s.sgl K.snapPrivLength)) false)))

open Sys2Proof Sys2Proof.Machine Sys2Proof.Claims in
/-- R197, R222, R223, R226, R227: the scrubber goes on to the next line of its tier, wrapping at its end, when that line is
live; a single error is counted as corrected and no byte changes; an uncorrectable one poisons a word of the line, is counted
and leaves its address. Where the near tier is live only in part, the scrubber works on the live part from its start and resumes
later where it stopped (notes/assumptions/60.md). A refresh ends a channel's overdue state, a unit that becomes overdue is
counted once, and a deep channel enters self-refresh in Listen only, after 64 ticks without an access.
R202, R203, R205, R224, R230, R404, R569: the oldest output tile of a core whose commit has not been asked for is written in one
step and leaves the write buffer when it is local, with the clocks that its credits were waited for; a remote one asks its
device, and stays; not while two are open. The other output of the same input tile has begun to commit with it. -/
def Obligations.BackgroundWorkIsCountedAndTilesCommitWhole : Prop :=
  (
  ∀ (s : State) (deep : Bool) (ch : Fin 16) (e : BgUnit), Safety.sound s →
    let line := if deep then 0x400000000 + s.store.scrubDeep else s.store.scrubNear
    let lines := [K.telNearLines, K.telDeepLines]
    let sane : Prop := wordsRead s.store.single line 128 = [] ∧ readable s line 128
    let fixed := if deep then K.correctedDeep else K.correctedNear
    let moved (u : State) : Prop :=
      u.store.scrubDeep = (if deep then (s.store.scrubDeep + 128) % 0x400000000 else s.store.scrubDeep) ∧
      u.store.scrubNear = (if deep then s.store.scrubNear else (s.store.scrubNear + 128) % 0x6000000) ∧
      u.store.mem = s.store.mem ∧ u.store.conj = s.store.conj
    (s.live line = true → (deep = false → s.store.scrubHeld = none) → line % 128 = 0 →
      tierOf line = (if deep then .deep else .near) → sane →
      (∃ u, exec (.scrubDue deep .clean) s = .next u ∧ moved u ∧ u.store.poison = s.store.poison ∧ onlyObjects s u lines ∧
        { u with dict := s.dict, store := s.store, freeCtr := s.freeCtr } = s) ∧
      (∃ u, exec (.scrubDue deep .single) s = .next u ∧ moved u ∧ u.store.poison = s.store.poison ∧
        u.sgl fixed = min (s.sgl fixed + 1) 0xFFFFFFFF ∧ onlyObjects s u (fixed :: lines) ∧
        { u with dict := s.dict, store := s.store, freeCtr := s.freeCtr } = s) ∧
      (∃ u k, exec (.scrubDue deep .double) s = .next u ∧ moved u ∧ k < 16 ∧
        (∀ a, a ∈ u.store.poison ↔ a = line + 8 * k ∨ a ∈ s.store.poison) ∧
        u.sgl K.lastErrorAddress = s.ga (line + 8 * k) ∧
        (let n := if deep then K.uncorrectedDeep else K.uncorrectedNear
         u.sgl n = min (s.sgl n + 1) 0xFFFFFFFF) ∧
        { u with dict := s.dict, store := s.store, aon := s.aon, freeCtr := s.freeCtr } = s)) ∧
    (deep = false → s.store.scrubHeld = none → s.live line = false → s.live 0 = true →
      ∀ f, ∃ u, exec (.scrubDue deep f) s = .next u ∧ u.store.scrubNear = 128 ∧ u.store.scrubHeld = some line ∧
        u.store.mem = s.store.mem) ∧
    (∀ x, deep = false → s.store.scrubHeld = some x → s.live x = true →
      ∀ f, ∃ u, exec (.scrubDue deep f) s = .next u ∧ u.store.scrubNear = (x + 128) % 0x6000000 ∧
        u.store.scrubHeld = none ∧ u.store.mem = s.store.mem) ∧
    (s.lvl < 4 → ∀ f, exec (.scrubDue deep f) s = .next s) ∧
    (∃ u, exec (.refreshDue ch) s = .next u ∧ u.store = { s.store with
        overdue := s.store.overdue.filter (fun x => x ≠ .deepRefresh ch) } ∧ { u with store := s.store } = s) ∧
    (s.unitLive e = true → s.store.overdue.contains e = false → ∃ u, exec (.backgroundOverdue e) s = .next u ∧
      u.store = { s.store with overdue := s.store.overdue ++ [e] } ∧
      u.sgl K.backgroundOverdue = min (s.sgl K.backgroundOverdue + 1) 0xFFFFFFFF ∧ onlyObjects s u [K.backgroundOverdue] ∧
      { u with dict := s.dict, store := s.store } = s) ∧
    (s.unitLive e = false ∨ s.store.overdue.contains e = true → exec (.backgroundOverdue e) s = .next s) ∧
    (let idle : Prop := s.mood = .listen ∧ s.store.chanUse[ch] + 64 ≤ s.tick ∧ s.aon.mood.entryTick + 64 ≤ s.tick
     (idle → ∃ u, exec (.deepSelfRefresh ch) s = .next u ∧ u.store.selfRefresh[ch] = true ∧
      (∀ i, i ≠ ch → u.store.selfRefresh[i] = s.store.selfRefresh[i]) ∧
      { u.store with selfRefresh := s.store.selfRefresh } = s.store ∧ { u with store := s.store } = s) ∧
     (¬ idle → exec (.deepSelfRefresh ch) s = .next s))) ∧
  (
  ∀ (s : State) (c : CoreId) (t : OutTile) (l : List OutTile) (waiting : Nat), Safety.sound s →
    s.runs = true → s.coreUp c.val = true → s.cores[c].wbuf = t :: l → t.remote = 0 →
    (∀ b, b ∈ t.bytes → s.isLocal b.addr.toNat = true → s.live (gaOff b.addr.toNat) = true) →
    let k := s.cores[c]
    let begun (x : OutTile) : OutTile :=
      if x.ticket = t.ticket ∧ x.part = t.part ∧ x.tile = t.tile then { x with begun := true } else x
    let started (v : Verb) : Verb := if t.ofVerb v = true then v.begin ((t :: l).map begun) t.tile else v
    (s.tileLocal t = true → (∀ b, b ∈ t.bytes → b.mask = 0xFF ∧ b.addr.toNat = s.ga (gaOff b.addr.toNat) ∧
        readable s (gaOff b.addr.toNat) 1) →
      ∃ u, exec (.tileCommit ⟨c, waiting⟩) s = .next u ∧ u.cores[c].wbuf = l.map begun ∧
        u.cores[c].active = k.active.map started ∧ u.cores[c].retiring = k.retiring.map started ∧
        { u.cores[c] with wbuf := k.wbuf, active := k.active, retiring := k.retiring, queue := k.queue } = k ∧
        (k.active.any t.ofVerb = false → u.cores[c].queue = k.queue) ∧
        (∀ i, i ≠ c → u.cores[i] = s.cores[i]) ∧
        u.sgl K.commitWaits = min (s.sgl K.commitWaits + waiting) 0xFFFFFFFF ∧
        (∀ a, (∀ b, b ∈ t.bytes → gaOff b.addr.toNat ≠ a) → u.store.mem.read a = s.store.mem.read a) ∧
        (∀ i, i < t.bytes.length → (∀ j, i < j → j < t.bytes.length →
            gaOff (at! (OutByte.mk 0 0 0 0) t.bytes j).addr.toNat ≠ gaOff (at! (OutByte.mk 0 0 0 0) t.bytes i).addr.toNat) →
          let b := at! (OutByte.mk 0 0 0 0) t.bytes i
          guarded s.guards (gaOff b.addr.toNat) = false → u.store.mem.read (gaOff b.addr.toNat) = b.val) ∧
        u.threads = s.threads ∧ u.parts = s.parts ∧ u.ledger = s.ledger) ∧
    (s.tileLocal t = false → 2 ≤ s.cores[c].openTiles → exec (.tileCommit ⟨c, waiting⟩) s = .next s) ∧
    (s.tileLocal t = false → s.cores[c].openTiles < 2 → s.fab.outstanding.length < 2048 →
      s.outstandingOf (fun r => decide (r.core = c.val)) < 24 → t.bytes ≠ [] →
      ∃ u, exec (.tileCommit ⟨c, waiting⟩) s = .next u ∧ u.cores[c].wbuf.length = s.cores[c].wbuf.length ∧
        u.cores[c].wbuf.head? = some { t with remote := 1 + s.fab.nextTag.toNat, begun := true } ∧ u.store.mem = s.store.mem ∧
        u.threads = s.threads ∧ u.ledger = s.ledger))

/-! Energy, the planner and the swap (chapters 3 and 5). -/

open Sys2Proof Sys2Proof.Machine Sys2Proof.Claims in
/-- R137, R149, R150, R151, R152: a deposit adds to the pool; a grant moves energy between the pool and one sub-ledger whole, or, when
the balance it draws on does not hold it, is counted and recorded and moves nothing; values out of range and any in Fault are
refused.
R169, R170: a write of BATTERY_SOC to PACK_MAX_CURRENT keeps the value and its tick; the feed is stale while one of the four
is 0 or none has been written for 2,097,152 ticks, and becoming stale is recorded, once. -/
def Obligations.DepositsGrantsAndTheBatteryFeedAreKept : Prop :=
  (
  ∀ (s : State) (h : Head) (p : PartId) (v : W64), Safety.sound s →
    let g := v.toInt
    let dep := objOf K.deposit
    let gr := objOf (K.grant p.val)
    let bound := 2 ^ 40
    let drawn : Int := if 0 < g then s.ledger.pool else s.ledger.subs[p].balance
    (reaches s h dep → s.inFault = false →
      (1 ≤ v.toNat ∧ v.toNat ≤ bound → ∃ u, exec (.deposit h v) s = .next u ∧ answered s u h 2 0 dep [] ∧
        u.ledger = { s.ledger with deposits := s.ledger.deposits + v.toNat, pool := s.ledger.pool + v.toNat } ∧
        { u with link := s.link, ledger := s.ledger } = s) ∧
      (v.toNat = 0 ∨ bound < v.toNat → answersOnly s (exec (.deposit h v) s) h 2 5 dep [])) ∧
    (reaches s h dep → s.inFault = true → 1 ≤ v.toNat → v.toNat ≤ bound →
      answersOnly s (exec (.deposit h v) s) h 2 0x0C dep []) ∧
    (reaches s h gr → s.inFault = false →
      (g ≠ 0 → g.natAbs ≤ bound → (g.natAbs : Int) ≤ drawn → ∃ u, exec (.grant h p v) s = .next u ∧ answered s u h 2 0 gr [] ∧
        u.ledger.pool = s.ledger.pool - g ∧ u.ledger.subs[p] = { s.ledger.subs[p] with balance := s.ledger.subs[p].balance + g } ∧
        (∀ i, i ≠ p → u.ledger.subs[i] = s.ledger.subs[i]) ∧
        { u.ledger with pool := s.ledger.pool, subs := s.ledger.subs } = s.ledger ∧
        { u with link := s.link, ledger := s.ledger } = s) ∧
      (g ≠ 0 → g.natAbs ≤ bound → drawn < g.natAbs → ∃ u, exec (.grant h p v) s = .next u ∧ answered s u h 2 0 gr [] ∧
        u.sgl K.grantRefused = min (s.sgl K.grantRefused + 1) 0xFFFFFFFF ∧ logged s u 0x0020 1 p.val p.val v.toNat ∧
        onlyObjects s u (K.grantRefused :: logKeys) ∧ { u with aon := s.aon, dict := s.dict, link := s.link } = s) ∧
      (g = 0 ∨ bound < g.natAbs → answersOnly s (exec (.grant h p v) s) h 2 5 gr []))) ∧
  (
  ∀ (s : State) (h : Head) (i : Fin 4) (v : W32), Safety.sound s →
    let keys := [K.batterySoc, K.packVoltage, K.packResistance, K.packMaxCurrent]
    let k := at! 0 keys i.val
    let zero := ∃ j, j ∈ keys ∧ s.sgl j = 0
    (reaches s h (objOf k) → (i = 0 → v.toNat ≤ 10000) → ∃ u, exec (.batteryFeedWrite h i v) s = .next u ∧
      answered s u h 2 0 (objOf k) [] ∧ u.sgl k = v.toNat ∧ u.sgl K.batteryTick = s.tick ∧
      onlyObjects s u (k :: K.batteryTick :: logKeys) ∧ u.aon.stale = decide (∃ j, j ∈ keys ∧ u.sgl j = 0) ∧
      { u with aon := s.aon, dict := s.dict, link := s.link } = s) ∧
    (reaches s h (objOf K.batterySoc) → 10000 < v.toNat → v.toNat < 65536 →
      answersOnly s (exec (.batteryFeedWrite h 0 v) s) h 2 5 (objOf K.batterySoc) []) ∧
    (s.mood ≠ .off → s.aon.stale = false → (zero ∨ s.sgl K.batteryTick + 2097152 < s.tick) →
      ∃ u, exec .batteryStale s = .next u ∧ u.aon.stale = true ∧ logged s u 0x0021 1 0xFF (s.sgl K.batteryTick) 0 ∧
        onlyObjects s u logKeys ∧ { u with aon := s.aon, dict := s.dict, link := s.link } = s) ∧
    (s.aon.stale = true → exec .batteryStale s = .next s) ∧
    (¬ (zero ∨ s.sgl K.batteryTick + 2097152 < s.tick) → exec .batteryStale s = .next s))

open Sys2Proof Sys2Proof.Machine Sys2Proof.Claims in
/-- R137, R152, R162, R163, R172, R175, R177, R178, R179, R181: PLANNER completes in every state. At a planner tick outside Fault
it charges the metered energy outside verbs with the residue, carries what is below one nanojoule, counts the period's cycles
against the deadlines, and in Brisk, Full and Brace and during a transition takes the hottest of the sensors and chooses
points within the caps: below point 3 in Brisk, point 5 in Full only and with the pool not negative, point 0 everywhere while
it is, and none raised in Brace, in Quiesce and in a transition. In Fault the energy metered waits for the next base charge,
and outside its ticks nothing happens. -/
def Obligations.PlannerTicksChargeAndChoosePoints : Prop :=
  ∀ (s : State) (m : Meters), Safety.sound s →
    let due := s.mood ≠ .off ∧ s.aon.lock ≠ 1 ∧ s.tick % 1024 = 0 ∧ (s.tick = 0 ∨ s.sgl K.plannerLastTick ≠ s.tick)
    let now := due ∧ s.inFault = false
    let holds := s.mood = .brace ∨ s.mood = .quiesce ∨ s.inTransition = true
    let plans := s.mood = .brisk ∨ s.mood = .full ∨ holds
    let pj := m.basePj + s.ledger.residue
    let cap (k : ClusterId) := s.act (K.clusterClockCap k.val)
    (∃ u, exec (.planner m) s = .next u) ∧
    (now → ∃ u, exec (.planner m) s = .next u ∧ u.sgl K.plannerLastTick = s.tick ∧
      u.sgl K.meteredPower = min (m.baseMw + (m.clusterMw.take 8).sum) 0xFFFFFFFF ∧
      u.ledger.totalSpent = s.ledger.totalSpent + (pj / 1000 : Nat) ∧
      u.ledger.poolSpent = s.ledger.poolSpent + (pj / 1000 : Nat) ∧ u.ledger.residue = pj % 1000 ∧
      u.ledger.deposits = s.ledger.deposits ∧
      (∀ p : PartId, u.sgl (K.deadlineCycles p.val) = s.sgl (K.deadlineCycles p.val) - at! 0 m.partCycles p.val ∧
        u.sgl (K.telPartCycles p.val) = (s.sgl (K.telPartCycles p.val) + at! 0 m.partCycles p.val) % 2 ^ 64) ∧
      (¬ plans → u.aon.clocks.points = s.aon.clocks.points ∧ u.aon.thermal.junction = s.aon.thermal.junction) ∧
      (plans → ∀ i : Fin 11, flt u.aon.thermal.junction u.aon.thermal.sensors[i] = false) ∧
      (plans → ∀ k : ClusterId,
        (pointClock u.aon.clocks.points[k] ≤ cap k ∨ u.aon.clocks.points[k] = 0) ∧
        (s.aon.mood.eff = .brisk → u.aon.clocks.points[k] ≤ 2) ∧
        (u.aon.clocks.points[k] = 5 → s.mood = .full ∧ 0 ≤ u.ledger.pool) ∧
        (u.ledger.pool < 0 → u.aon.clocks.points[k] = 0) ∧
        (s.clusterUp k.val = false → u.aon.clocks.points[k] = 0) ∧
        (holds → u.aon.clocks.points[k] ≤ s.aon.clocks.points[k])) ∧
      u.store.mem = s.store.mem ∧ u.rings = s.rings) ∧
    (due → s.inFault = true → ∃ u, exec (.planner m) s = .next u ∧
      u.ledger = { s.ledger with residue := s.ledger.residue + m.basePj } ∧ { u with ledger := s.ledger } = s) ∧
    (¬ due → exec (.planner m) s = .next s)

open Sys2Proof Sys2Proof.Machine Sys2Proof.Claims in
/-- R92, R93, R95, R98, R688: SWAP_REQUEST makes a swap pending when the shadow set passes validation, and else names the lowest
object that fails; it is refused while one is pending, and in Fault. At the deadline the swap is forced once: recorded, and
the running verbs of the partitions it affects are asked to preempt. SHADOW_REVERT copies the active set into the shadow.
R94, R98, R248, R421, R641, Table 7-2: a pending swap takes effect at a tick after its request once every affected unit is
ready: the shadow set becomes the active one whole and stays the shadow, it is counted, a partition that starts is in state 1,
one that stops is in state 0, one whose control core or mode changes goes into its reset (state 6), and the others keep their
tickets. -/
def Obligations.SwapsAreRequestedAndTakeEffectWhole : Prop :=
  (
  ∀ (s : State) (h : Head), Safety.sound s →
    let q := objOf K.swapRequest
    let r := objOf K.shadowRevert
    let idle := s.aon.swapStatus = 0
    (reaches s h q → s.inFault = false → idle → s.swapFaultKey = none → ∃ u, exec (.swapRequest h) s = .next u ∧
      answered s u h 2 0 q [] ∧ u.aon = { s.aon with swapStatus := 1, swapAsked := s.tick } ∧
      { u with aon := s.aon, link := s.link } = s) ∧
    (∀ k, reaches s h q → s.inFault = false → idle → s.swapFaultKey = some k → ∃ u, exec (.swapRequest h) s = .next u ∧
      answered s u h 2 0x0E q [] ∧ u.sgl K.swapFaultObject = k ∧ onlyObjects s u [K.swapFaultObject] ∧
      { u with dict := s.dict, link := s.link } = s) ∧
    (reaches s h q → s.inFault = false → ¬ idle → answersOnly s (exec (.swapRequest h) s) h 2 0x0D q []) ∧
    (reaches s h q → s.inFault = true → answersOnly s (exec (.swapRequest h) s) h 2 0x0C q []) ∧
    (∀ k, s.swapFaultKey = some k ↔ k ∈ s.badObjects ∧ ∀ j, j ∈ s.badObjects → k ≤ j) ∧
    (reaches s h r → idle → ∃ u, exec (.shadowRevert h) s = .next u ∧ answered s u h 2 0 r [] ∧
      u.dict = { s.dict with shd := s.dict.act, dshd := s.dict.dact } ∧ { u with dict := s.dict, link := s.link } = s) ∧
    (reaches s h r → ¬ idle → answersOnly s (exec (.shadowRevert h) s) h 2 0x0D r []) ∧
    (s.aon.swapStatus = 1 → s.inFault = false → s.aon.swapAsked + s.sgl K.swapDeadline ≤ s.tick →
      ∃ u, exec .swapForce s = .next u ∧ u.aon.swapStatus = 2 ∧ logged s u 0x0030 1 0xFF (s.sgl K.swapCount) 0 ∧
        onlyObjects s u logKeys ∧
        (∀ c : CoreId, (∃ p : PartId, s.affects p.val = true ∧ bit (s.coreMask p.val) c.val = true) →
          s.cores[c].active.isSome = true → u.cores[c] = { s.cores[c] with preemptReq := true }) ∧
        (∀ c : CoreId, (∀ p : PartId, s.affects p.val = true → bit (s.coreMask p.val) c.val = false) →
          u.cores[c] = s.cores[c]) ∧
        { u with aon := s.aon, dict := s.dict, link := s.link, cores := s.cores } = s) ∧
    (s.aon.swapStatus ≠ 1 ∨ s.inFault = true ∨ s.tick < s.aon.swapAsked + s.sgl K.swapDeadline →
      exec .swapForce s = .next s)) ∧
  (
  ∀ (s : State), Safety.sound s →
    let now := s.aon.swapStatus ≠ 0 ∧ s.inFault = false ∧ s.mood ≠ .off ∧ s.aon.swapAsked < s.tick ∧ s.swapReady = true
    let on (p : PartId) : Bool := s.enabled p.val
    let on' (p : PartId) : Bool := decide (s.shd (K.partEnable p.val) = 1)
    let redone (p : PartId) : Prop := on' p = false ∨
      ∃ k, k ∈ [K.controlCore p.val, K.programMode p.val, K.replayEnable p.val] ∧ s.act k ≠ s.shd k
    (now → ∃ u, exec .swapTakesEffect s = .next u ∧ u.dict.act = s.dict.shd ∧ u.dict.shd = s.dict.shd ∧
      u.dict.dact = s.dict.dshd ∧ u.dict.dshd = s.dict.dshd ∧ u.aon.swapStatus = 0 ∧ u.aon.swapTick = s.tick ∧
      u.sgl K.swapCount = (s.sgl K.swapCount + 1) % 2 ^ 32 ∧
      u.sgl K.swapForcedCount = (if s.aon.swapStatus = 2 then (s.sgl K.swapForcedCount + 1) % 2 ^ 32
        else s.sgl K.swapForcedCount) ∧
      ∀ p : PartId, (on p = false ∧ on' p = true →
          u.parts[p] = { Part.reset with state := 1, deadlineSeen := s.parts[p].deadlineSeen }) ∧
        (on p = true ∧ on' p = false → u.parts[p] = { Part.reset with deadlineSeen := s.parts[p].deadlineSeen } ∧
          u.sgl (K.partResetCount p.val) = (s.sgl (K.partResetCount p.val) + 1) % 2 ^ 32) ∧
        (on p = true → on' p = true → redone p → s.mood ≠ .cold → u.parts[p] =
            { Part.reset with state := 6, resetTick := s.tick, deadlineSeen := s.parts[p].deadlineSeen } ∧
          u.sgl (K.partResetCount p.val) = s.sgl (K.partResetCount p.val)) ∧
        (on p = true → on' p = true → ¬ redone p → (s.mood ≠ .cold → u.parts[p].ticket = s.parts[p].ticket) ∧
          u.sgl (K.partResetCount p.val) = s.sgl (K.partResetCount p.val))) ∧
    (¬ now → exec .swapTakesEffect s = .next s))

/-! Moods, resets and supplies (chapters 2, 4 and 20). -/

open Sys2Proof Sys2Proof.Machine Sys2Proof.Claims in
/-- R105, R106, R108, R110, R113, R116, R117, R118, R134, R135, R479: a mood request within the floor and the ceiling starts its transition,
and one that the machine does not accept is refused; WAKE_N, a held request of R110, the linger timer of an idle device and
a burst that waits for Brisk start theirs, each only in its moods and conditions. -/
def Obligations.MoodsChangeOnRequestWakeLingerAndDemand : Prop :=
  ∀ (s : State) (h : Head) (v : Byte) (d : Mood), Safety.sound s →
    let o := objOf K.moodRequest
    let n := v.toNat
    let fits := s.act K.moodFloor ≤ n ∧ n ≤ s.act K.moodCeiling ∧ s.moodBusy = false ∧
      ¬ (s.mood.code < n ∧ s.aon.thermal.tripActive = true)
    let wake := s.act K.wakeTarget
    let awake := s.inTransition = true ∨ s.justStarted = true ∨ s.aon.mood.rstAsserted = true ∨
      s.aon.thermal.tripActive = true ∨ wake ≤ s.mood.code
    let woken (u : State) : Prop := exec .wakeN s = .next u ∧
      u.aon.mood = { s.aon.mood with wakeAsserted := true, wakeHeld := s.aon.mood.wakeHeld || decide (s.mood = .quiesce) } ∧
      { u.aon with mood := s.aon.mood } = s.aon ∧ { u with aon := s.aon } = s
    (reaches s h o → 2 ≤ n → n ≤ 6 → (fits → ∃ u, exec (.moodRequest h v) s = .next u ∧ answered s u h 2 0 o [] ∧
        (n = s.mood.code → { u with link := s.link } = s) ∧ (n ≠ s.mood.code → began s u (Mood.ofCode n))) ∧
      (¬ fits → answersOnly s (exec (.moodRequest h v) s) h 2 0x0C o [])) ∧
    (reaches s h o → n < 2 ∨ (6 < n ∧ n ≤ 9) → answersOnly s (exec (.moodRequest h v) s) h 2 5 o []) ∧
    ((s.mood = .hush ∨ s.mood = .dormant ∨ s.mood = .listen) → ¬ awake → ∃ u, exec .wakeN s = .next u ∧
      began s u (Mood.ofCode wake) ∧ u.aon.mood.wakeAsserted = true) ∧
    (s.mood ≠ .off → (¬ (s.mood = .hush ∨ s.mood = .dormant ∨ s.mood = .listen) ∨ awake) → ∃ u, woken u) ∧
    (s.aon.mood.heldReq = none ∨ s.moodBusy = true → exec .floorCeilingRequest s = .next s) ∧
    (s.aon.mood.heldReq = some d → s.moodBusy = false →
      (s.act K.moodFloor ≤ s.mood.code → s.mood.code ≤ s.act K.moodCeiling → ∃ u, exec .floorCeilingRequest s = .next u ∧
        u.aon.mood = { s.aon.mood with heldReq := none } ∧ { u with aon := s.aon } = s) ∧
      (¬ (s.act K.moodFloor ≤ s.mood.code ∧ s.mood.code ≤ s.act K.moodCeiling) → s.moodOk d.code = true → d ≠ s.mood →
        ∃ u, exec .floorCeilingRequest s = .next u ∧ began s u d ∧ u.aon.mood.heldReq = none)) ∧
    (let quiet := s.act K.linger ≤ s.aon.mood.lingerCnt ∧ s.idleNow = true ∧ s.justStarted = false ∧ s.act K.moodFloor ≤ d.code ∧
       ¬ (s.aon.mood.wakeAsserted = true ∧ d.code < wake)
     (lingerStep s.mood = some d → quiet → ∃ u, exec .idleLinger s = .next u ∧ began s u d) ∧
     (lingerStep s.mood = none ∨ (lingerStep s.mood = some d ∧ ¬ quiet) → exec .idleLinger s = .next s)) ∧
    (s.mood = .listen → s.inTransition = false → s.justStarted = false → s.aon.thermal.tripActive = false →
      5 ≤ s.act K.moodCeiling → ∃ u, exec .tapWake s = .next u ∧ (began s u .brisk ∨ began s u .full) ∧ u.aon.mood.tapWake = true) ∧
    (¬ ((s.mood = .listen ∨ s.mood = .brisk) ∧ s.inTransition = false ∧ s.justStarted = false) → ∃ u, exec .tapWake s = .next u ∧
      u.aon.mood = { s.aon.mood with tapWake := true } ∧ { u with aon := s.aon } = s)

open Sys2Proof Sys2Proof.Machine Sys2Proof.Claims in
/-- R107, R109, R112, R128, R132, R133, Tables 4-4 and 4-6: a phase that is ready gives way to the next one, the one of the tap
trains its channels, the last enters the target mood, and a tripped wake ends in Quiesce or where it started; Quiesce takes
its five steps in order, each waiting for what it has to (clauses that run, verbs, and bursts and messages, the latter for 16
ticks at most, notes/assumptions/66.md), and enters its target. -/
def Obligations.WakesAndQuiesceGoStepByStep : Prop :=
  ∀ (s : State) (t : Trans) (n : Nat) (l : List Nat), Safety.sound s →
    let q := s.aon.mood
    let gated (c : CoreId) : Prop := q.target.powersCore c.val = false
    let step := Instr.quiesceStepComplete
    let drained := (∀ h : ChanId, s.tap[h].bus = none) ∧ (s.drained (gatedBy q.target) = true ∨ q.drainTick + 16 ≤ s.tick)
    (s.aon.mood.trans = none → exec .wakePhaseComplete s = .next s) ∧
    (q.trans = some t → (t.waiting = true ∨ s.phaseReady t = false) → exec .wakePhaseComplete s = .next s) ∧
    (q.trans = some t → t.waiting = false → s.phaseReady t = true → t.tripped = false → s.mood ≠ .brace →
      (t.left.drop 1 = n :: l → ∃ u, exec .wakePhaseComplete s = .next u ∧ u.mood = s.mood ∧ u.aon.mood.phase = n ∧
        u.aon.mood.trans = some { t with left := n :: l } ∧
        (n = 5 → 5 ≤ t.dest.code → s.inFault = false → ∀ h : ChanId, s.tap[h].linkM = true → s.tap[h].linkV = false →
          s.tapEnabled h = true → u.tap[h].training = true)) ∧
      (t.left.drop 1 = [] → ∃ u, exec .wakePhaseComplete s = .next u ∧ u.mood = t.dest ∧ u.aon.mood.trans = none ∧
        u.aon.mood.phase = 0 ∧ u.aon.mood.entryTick = s.tick ∧
        u.sgl K.moodChangeCount = (s.sgl K.moodChangeCount + 1) % 2 ^ 32)) ∧
    (q.trans = some t → t.waiting = false → s.phaseReady t = true → t.tripped = true → s.mood ≠ .brace →
      ∃ u, exec .wakePhaseComplete s = .next u ∧ u.aon.mood.trans = none ∧
        (t.start = .cold ∨ t.start = .hush → u.mood = s.mood ∧ u.aon.mood.target = t.start) ∧
        (¬ (t.start = .cold ∨ t.start = .hush) → u.mood = .quiesce ∧ u.aon.mood.target = .dormant)) ∧
    (s.mood ≠ .quiesce → exec step s = .next s) ∧
    (s.mood = .quiesce → ∃ u, exec step s = .next u ∧
      (q.phase = 17 → (∃ r : ThreadId, s.inClause r = true) → u = s) ∧
      (q.phase = 17 → (∀ r : ThreadId, s.inClause r = false) → u.aon.mood = { q with phase := 18 } ∧
        (∀ c, gated c → s.cores[c].active.isSome = true → u.cores[c].preemptReq = true) ∧
        (∀ c, ¬ gated c → u.cores[c] = s.cores[c]) ∧ { u with aon := s.aon, cores := s.cores } = s) ∧
      (q.phase = 18 → u.aon.mood =
        if ∀ c, gated c → s.cores[c].active = none then { q with phase := 19, drainTick := s.tick } else q) ∧
      (q.phase = 19 → drained → u.aon.mood = { q with phase := 20 } ∧ ∀ h : ChanId, u.tap[h].linkV = false) ∧
      (q.phase = 19 → ¬ drained → u = s) ∧
      (q.phase = 20 → u.aon.mood = { q with phase := 21 } ∧
        { u with aon := s.aon, dict := s.dict, store := s.store } = s) ∧
      (q.phase < 17 ∨ 20 < q.phase → u.mood = q.target ∧ u.aon.mood.phase = 0 ∧ u.aon.mood.halved = false ∧
        u.aon.mood.entryTick = s.tick))

open Sys2Proof Sys2Proof.Machine Sys2Proof.Claims in
/-- R126, R129, R130, R131, R666: a supply warning on an active monitor takes Listen, Brisk, Full and a wake into Brace, with halved clocks and
the mood to return to, halves the clocks in Quiesce, and starts the exit count of Brace again; Brace ends where it began, at
the clock points held before it, once the count is full, or at its limit in Quiesce towards Dormant. -/
def Obligations.SupplyWarningsBraceAndRelease : Prop :=
  ∀ (s : State) (m : MonId) (t : Trans) (n : Nat) (l : List Nat), Safety.sound s →
    let q := s.aon.mood
    let runs := s.mood = .listen ∨ s.mood = .brisk ∨ s.mood = .full
    let first := s.aon.mons[m].state < 2
    let brace := s.mood = .brace
    (s.aon.mons[m].active = false → exec (.supplyWarning m) s = .next s) ∧
    (s.aon.mons[m].active = true → ∃ u, exec (.supplyWarning m) s = .next u ∧ u.aon.mons[m] = { s.aon.mons[m] with state := 2 } ∧
      (∀ i, i ≠ m → u.aon.mons[i] = s.aon.mons[i]) ∧
      (s.mood ≠ .off → u.sgl (K.warningCount m.val) = if first then min (s.sgl (K.warningCount m.val) + 1) 0xFFFFFFFF
        else s.sgl (K.warningCount m.val)) ∧
      (runs → u.mood = .brace ∧ u.aon.mood.before = s.mood ∧ u.aon.mood.halved = true ∧ u.aon.mood.exitCnt = 0 ∧
        u.aon.mood.trans = q.trans ∧ u.aon.mood.ret = (match q.trans with | some t => t.dest | none => s.mood) ∧
        u.aon.clocks = { s.aon.clocks with dip := s.aon.clocks.points, dipSurge := s.aon.clocks.surge } ∧
        u.sgl K.braceCount = (s.sgl K.braceCount + 1) % 2 ^ 32) ∧
      (brace → u.aon.mood = { q with exitCnt := 0 }) ∧ (s.mood = .quiesce → u.aon.mood = { q with halved := true }) ∧
      (s.mood = .dormant → s.waking = true → u.mood = .brace) ∧ (s.mood = .dormant → s.waking = false → u.aon.mood = q)) ∧
    (brace → 65 ≤ q.exitCnt → ∃ u, exec .braceExit s = .next u ∧ u.aon.mood.halved = false ∧ u.aon.mood.exitCnt = 0 ∧
      u.aon.mood.ret = .off ∧
      (q.trans = none → u.mood = q.ret ∧ u.aon.clocks.points = s.aon.clocks.dip ∧ u.aon.clocks.surge = s.aon.clocks.dipSurge) ∧
      (q.trans = some t → t.waiting = false → u.mood = t.start ∧ u.aon.mood.target = t.dest ∧ u.aon.mood.trans = some t) ∧
      (q.trans = some t → t.waiting = true → t.left = n :: l → u.mood = t.start ∧ u.aon.mood.phase = n ∧
        u.aon.mood.trans = some { t with waiting := false }) ∧
      (q.trans = some t → t.waiting = true → t.left = [] → u.mood = t.dest ∧ u.aon.mood.trans = none)) ∧
    (¬ brace ∨ q.exitCnt < 65 → exec .braceExit s = .next s) ∧
    (brace → q.entryTick + 4096 ≤ s.tick → ∃ u, exec .braceLimit s = .next u ∧ u.mood = .quiesce ∧
      u.aon.mood.target = .dormant ∧ u.aon.mood.phase = 17 ∧ u.aon.mood.trans = none) ∧
    (¬ brace ∨ s.tick < q.entryTick + 4096 → exec .braceLimit s = .next s)

open Sys2Proof Sys2Proof.Machine Sys2Proof.Claims in
/-- R139, R140, R141, R142, R143, R323, R350, R421, R659, R671: a reset level, a missing or falling power-good, RST_N and RESET_COMMAND 1 leave
the core domain empty in Hush, with its cause and both configuration sets kept; RESET_COMMAND 2 leaves the defaults and an
empty ledger in Cold; a monitor or a rail that is off, and RST_N while it keeps the device in Hush, do nothing of the kind. -/
def Obligations.ResetsEmptyTheCoreDomain : Prop :=
  ∀ (s : State) (h : Head) (m : MonId) (r : RailEn), Safety.sound s →
    let o := objOf K.resetCommand
    let rail := (railOf r).val
    let on : Bool := s.aon.railEn.getLsbD rail
    let good : Bool := s.aon.railGood.getLsbD rail
    let warm := s.mood ≠ .off ∧ s.mood ≠ .cold ∧ ∀ t, s.aon.mood.trans = some t → t.start ≠ .cold
    let held := s.mood = .hush ∧ s.aon.mood.rstAsserted = true ∧ s.inTransition = false
    let empty (u : State) : Prop := u.store.mem = [] ∧ u.store.conj = [] ∧ u.store.poison = [] ∧
      (∀ c : CoreId, u.cores[c].queue = [] ∧ u.cores[c].active = none ∧ u.cores[c].pre = none ∧ u.cores[c].retiring = [] ∧
        u.cores[c].lfsr = BitVec.ofNat 32 (s.act (K.lfsrSeed c.val))) ∧
      (∀ t : ThreadId, u.threads[t] = { Thread.reset with pushRejected := s.threads[t].pushRejected }) ∧
      (∀ p : PartId, s.enabled p.val = true →
        u.parts[p] = { Part.reset with state := 1, deadlineSeen := s.parts[p].deadlineSeen } ∧
        u.sgl (K.partResetCount p.val) = s.sgl (K.partResetCount p.val)) ∧
      u.link.bar2 = [] ∧ u.link.mbox.rspReady = false ∧ u.link.mbox.busy = false ∧ u.aon.mood.trans = none ∧
      u.aon.mood.halved = false
    let core (i : Instr) (cause : Nat) : Prop := ∃ u, exec i s = .next u ∧ empty u ∧ u.mood = .hush ∧
      u.sgl K.lastResetCause = cause ∧ u.dict.act = s.dict.act ∧ u.dict.shd = s.dict.shd ∧ u.ledger.deposits = s.ledger.deposits
    (warm → s.aon.mons[m].active = true → core (.supplyResetLevel m) 1) ∧
    (s.aon.mons[m].active = false → exec (.supplyResetLevel m) s = .next s) ∧
    (warm → on = true → good = true → core (.powerGoodFall r) 1) ∧
    (on = false ∨ good = false → exec (.powerGoodFall r) s = .next s) ∧
    (warm → on = true → good = false → s.aon.railTick[railOf r] + 2 * s.pgBound (railOf r) ≤ s.tick →
      core (.powerGoodTimeout r) 1) ∧
    (on = false ∨ good = true ∨ s.tick < s.aon.railTick[railOf r] + 2 * s.pgBound (railOf r) →
      exec (.powerGoodTimeout r) s = .next s) ∧
    (s.mood ≠ .off → s.mood ≠ .cold → ¬ held → core .rstN 2) ∧
    (s.mood = .off ∨ s.mood = .cold ∨ held → ∃ u, exec .rstN s = .next u ∧ u.mood = s.mood ∧
      u.store = s.store ∧ u.cores = s.cores ∧ u.threads = s.threads) ∧
    (∃ u, exec .rstNRelease s = .next u ∧ u.aon.mood = { s.aon.mood with rstAsserted := false } ∧
      { u.aon with mood := s.aon.mood } = s.aon ∧ { u with aon := s.aon } = s) ∧
    (reaches s h o → s.mood ≠ .off → (s.mood ≠ .cold → ∃ u, exec (.coreDomainReset h) s = .next u ∧
        answered s u h 2 0 o [] ∧ empty u ∧ u.mood = .hush ∧ u.sgl K.lastResetCause = 3 ∧ u.dict.act = s.dict.act ∧
        u.dict.shd = s.dict.shd ∧ u.ledger.deposits = s.ledger.deposits) ∧
      ∃ u, exec (.configurationReset h) s = .next u ∧ answered s u h 2 0 o [] ∧ u.mood = .cold ∧ u.sgl K.lastResetCause = 4 ∧
        u.ledger = Ledger.reset ∧ u.store.mem = [] ∧ u.aon.swapStatus = 0 ∧ u.aon.mood.configured = false ∧
        u.link.notifyQ = [] ∧ (∀ t : ThreadId, u.threads[t] = Thread.reset) ∧
        (∀ c : CoreId, u.cores[c] = CoreSt.reset (BitVec.ofNat 32 (c.val + 1))) ∧
        ∀ k, k ≠ key 0x2420 12 → u.act k = objDflt k ∧ u.shd k = objDflt k)

open Sys2Proof Sys2Proof.Machine Sys2Proof.Claims in
/-- R27, R31, R32, R49, R107, R115, R135, R136, R137, R144, R614, R661, R674: power-on and its loss, the tick lock, holdover and relock, a thermal trip and
its clearing, an idle cluster's clock, and the entry into Fault, each with its state, its record and its count, and each only
from where the spec has it. -/
def Obligations.PowerClocksTripsAndFaultFollowTheirSignals : Prop :=
  ∀ (s : State) (node : BitVec 3) (sled : Bool) (n : SensorId) (k : ClusterId) (id : Fin 8) (x y : Byte), Safety.sound s →
    let q := s.aon.mood
    let trip := s.aon.thermal.tripActive
    let run := s.mood = .listen ∨ s.mood = .brisk ∨ s.mood = .full ∨ s.mood = .brace
    let one (i : Instr) (a : Aon → Prop) (src : Nat) : Prop := ∃ u, exec i s = .next u ∧ a u.aon ∧
      logged s u src (if src = 1 then 1 else 0) 0xFF 0 0 ∧ u.mood = s.mood ∧
      { u with aon := s.aon, dict := s.dict, link := s.link } = s
    (s.mood = .off → ∃ u, exec (.alwaysOnPowerOn node sled) s = .next u ∧ u.mood = .cold ∧ u.tick = 0 ∧ u.aon.lock = 1 ∧
      u.aon.sled = sled ∧ u.sgl K.t1sNodeId = node.toNat + 1 ∧ u.ledger = Ledger.reset ∧ u.store.mem = [] ∧
      u.aon.log.recs = [] ∧ u.pending = s.pending) ∧
    (s.mood ≠ .off → exec (.alwaysOnPowerOn node sled) s = .next s) ∧
    (∃ u, exec .alwaysOnLoss s = .next u ∧ u.mood = .off ∧ u.aon.railEn = 0 ∧ u.aon.log.recs = [] ∧
      u.ledger = Ledger.reset ∧ u.store.mem = [] ∧ u.dict.act = (State.powerOn s.aon.node s.aon.sled).dict.act ∧
      u.pending = s.pending) ∧
    (s.mood ≠ .off → s.aon.lock = 1 → one .tickLock (fun a => a.lock = 0) 0x0010) ∧
    (s.mood = .off ∨ s.aon.lock ≠ 1 → exec .tickLock s = .next s) ∧
    (s.mood ≠ .off → s.aon.lock = 0 → one .holdoverEntry (fun a => a.lock = 2) 0x0001 ∧ ∃ u, exec .holdoverEntry s = .next u ∧
      u.sgl K.crystalLossCount = min (s.sgl K.crystalLossCount + 1) 0xFFFFFFFF) ∧
    (s.mood = .off ∨ s.aon.lock ≠ 0 → exec .holdoverEntry s = .next s) ∧
    (s.aon.lock = 2 → (∃ u, exec .crystalEdgesReturn s = .next u ∧ u.aon = { s.aon with relocking := true } ∧
        { u with aon := s.aon } = s) ∧
      (s.aon.relocking = true → one .tickRelock (fun a => a.lock = 0 ∧ a.relocking = false) 0x0002) ∧
      (s.aon.relocking = false → exec .tickRelock s = .next s)) ∧
    (s.aon.lock ≠ 2 → exec .crystalEdgesReturn s = .next s ∧ exec .tickRelock s = .next s) ∧
    (s.mood ≠ .off → ∃ u, exec (.thermalTrip n) s = .next u ∧ u.aon.thermal.tripActive = true ∧
      u.sgl K.tripCount = (if trip then s.sgl K.tripCount else min (s.sgl K.tripCount + 1) 0xFFFFFFFF) ∧
      (q.trans = none → run → s.justStarted = false → u.mood = .quiesce ∧ u.aon.mood.target = .dormant) ∧
      (q.trans = none → ¬ run → u.aon.mood = q) ∧
      (∀ t, q.trans = some t → t.start ≠ .full → t.waiting = false → u.aon.mood = { q with trans := some { t with tripped := true } })) ∧
    (s.mood ≠ .off → 1025 ≤ s.aon.thermal.cool → ∃ u, exec .thermalTripClear s = .next u ∧
      u.aon.thermal = { s.aon.thermal with tripActive := false } ∧
      { u.aon with thermal := s.aon.thermal } = s.aon ∧ { u with aon := s.aon } = s) ∧
    (s.mood = .off ∨ s.aon.thermal.cool < 1025 → exec .thermalTripClear s = .next s) ∧
    (s.runs = true → s.clusterUp k.val = true → s.clusterWork k = false → 64 ≤ s.aon.clocks.idle[k] →
      ∃ u, exec (.clusterClockStop k) s = .next u ∧ u.aon.clocks.stopped[k] = true ∧
        (∀ i, i ≠ k → u.aon.clocks.stopped[i] = s.aon.clocks.stopped[i]) ∧ u.clusterMhz k = 0 ∧ { u with aon := s.aon } = s) ∧
    (s.clusterWork k = true ∨ s.aon.clocks.idle[k] < 64 → exec (.clusterClockStop k) s = .next s) ∧
    (s.mood ≠ .off → s.mood ≠ .fault → ∃ u, exec (.enterFault id x y) s = .next u ∧ u.mood = .fault ∧ u.aon.mood.trans = none ∧
      u.aon.mood.before = q.eff ∧ u.sgl K.brokenIdentity = 2 ^ id.val ∧
      u.sgl K.auditDetail = id.val + 1 + 2 ^ 8 * x.toNat + 2 ^ 16 * y.toNat + 2 ^ 24 ∧ u.ledger = s.ledger ∧
      u.store.mem = s.store.mem ∧ u.runs = false) ∧
    (s.mood = .off ∨ s.mood = .fault → exec (.enterFault id x y) s = .next s)

/-! Ticks and the Accumulator Tap (chapters 2 and 14). -/

open Sys2Proof Sys2Proof.Machine Sys2Proof.Claims in
/-- R28, R33, R38, R76, R77, R134, R143, Table 2-2: a tick boundary counts one tick once the tick oscillator has locked, the late samples and the
level of WAKE_N; a PDU that waits alone in a receive buffer is executed in it and answered; the audit is dated; in Off nothing
happens. -/
def Obligations.TickBoundariesCountAndServe : Prop :=
  ∀ (s : State) (i : TickInputs) (h : Head) (o : ObjRef) (data : List Byte) (since : Option Nat), Safety.sound s →
    let pdu := pduBytes 9 h.txn.toNat 0 o data
    let pin := i.wakeN = true ∨ Event.wakeN ∈ s.aon.held ∨ Event.wakeN ∈ i.arr
    (s.mood = .off → exec (.tickBoundary i) s = .next s) ∧
    (s.mood ≠ .off → ∃ u, exec (.tickBoundary i) s = .next u ∧
      u.tick = (if s.aon.lock = 1 then s.tick else s.tick + 1) ∧ u.aon.lock = s.aon.lock ∧
      u.sgl K.lateSampleCount = min (s.sgl K.lateSampleCount + i.late) 0xFFFFFFFF ∧
      (u.aon.mood.wakeAsserted = true ↔ pin) ∧
      (s.link.rx = [] → s.inFault = false → u.sgl K.auditLastTick = u.tick) ∧
      (s.link.rx = [RxPdu.mk h.req pdu since] → data.length ≤ 240 → (∀ d, d ∈ s.link.dups → d.req = h.req → d.txn ≠ h.txn) →
        u.link.rx = [] ∧ ∃ a b, u.link.out = s.link.out ++ a ++ .pdu h.req (response h 9 0 o data) :: b))

open Sys2Proof Sys2Proof.Machine Sys2Proof.Claims in
/-- R482, R486, R487, R488, R491, R498, R499, R500, R501: an offer is checked in order and kept or rejected, again when it is granted; a
grant passes the token to the vector side; a clean burst returns it and fills a buffer, a bad one is asked for again until its limit; an abort and a burst
that runs out of time return it with nothing kept.
R482, R489, R494, R495, R496, R497, R502: a rising TAP_LINK_M trains an enabled channel that is powered, and training ends with the link up or with
cause 13; a falling one, or a stopped clock, takes the link down with every token back; a beat of no burst is recorded; and a
tap tile awaited for too long is a data fault of its verb. -/
def Obligations.TapLinksTrainAndBurstsPassTheToken : Prop :=
  (
  ∀ (s : State) (h : ChanId) (bank : BitVec 6) (fmt : Byte) (dest : CoreId) (d : TapBurst) (e : Offer) (b : Burst),
    Safety.sound s →
    let t := s.tap[h]
    let up := t.linkM = true ∧ t.linkV = true
    let last (cause bank dest : Nat) : Nat := cause + 2 ^ 8 * bank + 2 ^ 14 * dest
    let err (u : State) (v : Nat) : Prop := u.sgl (K.tapLastError h.val) = v
    let sent (u : State) (l : List Output) : Prop := ∃ r, u.link.out = s.link.out ++ r ++ l
    let one (u : State) (k : Nat) : Prop := u.sgl k = min (s.sgl k + 1) 0xFFFFFFFF
    let back : BitVec 64 := t.heldBanks &&& ~~~ BitVec.ofNat 64 (2 ^ b.bank)
    let why (bank fmt dest : Nat) : Nat := if fmt ≠ s.act (K.tapFormat h.val) then 1
      else if s.act (K.tapBanks h.val) ≤ bank then 2 else if bit t.heldBanks.toNat bank = true then 3
      else if bit (s.act (K.tapCoreMask h.val)) dest = false then 4 else 0
    let cause := why bank.toNat fmt.toNat dest.val
    let late := why e.bank e.fmt e.dest
    let offer := Instr.tapOffer h bank fmt dest
    let others (u : State) : Prop := ∀ i, i ≠ h → u.tap[i] = s.tap[i]
    let bad : Nat := if d.beatsOk = false ∨ d.data.length ≠ 4096 then 6 else if d.checkOk = false then 7 else 0
    (¬ up ∨ t.offer.isSome = true → exec offer s = .next s) ∧
    (up → t.offer = none → cause = 0 → ∃ u, exec offer s = .next u ∧ others u ∧
      u.tap[h] = { t with offer := some (Offer.mk bank.toNat fmt.toNat dest.val) } ∧ { u with tap := s.tap } = s) ∧
    (up → t.offer = none → cause ≠ 0 → ∃ u, exec offer s = .next u ∧ sent u [.tapErr h] ∧ err u (last cause bank.toNat dest.val) ∧
      one u (K.tapOffersRejected h.val) ∧ logged s u 0x0300 1 0xFF (last cause bank.toNat dest.val) h.val ∧
      { u with aon := s.aon, dict := s.dict, link := s.link } = s) ∧
    (t.offer = none ∨ (t.offer = some e ∧ s.tapGrantOk h e = false) → exec (.tapGrant h) s = .next s) ∧
    (t.offer = some e → s.tapGrantOk h e = true → late ≠ 0 → ∃ u, exec (.tapGrant h) s = .next u ∧ others u ∧
      sent u [.tapErr h] ∧ err u (last late e.bank e.dest) ∧ one u (K.tapOffersRejected h.val) ∧
      u.tap[h] = { t with offer := none } ∧ { u with tap := s.tap, aon := s.aon, dict := s.dict, link := s.link } = s) ∧
    (t.offer = some e → s.tapGrantOk h e = true → late = 0 → ∃ u, exec (.tapGrant h) s = .next u ∧ others u ∧ sent u [.tapGnt h] ∧
      u.tap[h] = { t with
        offer := none, heldBanks := t.heldBanks ||| BitVec.ofNat 64 (2 ^ e.bank),
        bus := some (Burst.mk e.bank e.dest s.tick 0 true) } ∧ { u with tap := s.tap, link := s.link } = s) ∧
    (t.bus = none → exec (.tapBurstEnd h d) s = .next s ∧ exec (.tapAbort h) s = .next s ∧ exec (.tapBurstTimeout h) s = .next s) ∧
    (t.bus = some b → ∃ u, exec (.tapBurstEnd h d) s = .next u ∧ others u ∧
      u.sgl (K.tapCorrected h.val) = min (s.sgl (K.tapCorrected h.val) + d.corrected) 0xFFFFFFFF ∧
      (bad = 0 → sent u [.tapRet h b.bank] ∧ { u with tap := s.tap, link := s.link, dict := s.dict } = s ∧
        u.tap[h] = { t with bus := none, heldBanks := back, bufs := if b.wanted then t.bufs ++ [(b.dest, d.data)] else t.bufs } ∧
        (b.wanted = true → u.sgl (K.tapBursts h.val) = (s.sgl (K.tapBursts h.val) + 1) % 2 ^ 64)) ∧
      (bad ≠ 0 → b.tries < s.act K.tapRetryLimit → sent u [.tapErr h] ∧ err u (last bad b.bank b.dest) ∧
        one u (K.tapRetries h.val) ∧ u.tap[h] = { t with bus := some { b with tries := b.tries + 1 } } ∧
        { u with tap := s.tap, link := s.link, dict := s.dict } = s)) ∧
    (t.bus = some b → bad ≠ 0 → s.act K.tapRetryLimit ≤ b.tries → b.wanted = false → ∃ u, exec (.tapBurstEnd h d) s = .next u ∧
      u.tap[h] = { t with bus := none, heldBanks := back } ∧ err u (last 8 b.bank b.dest) ∧
      logged s u 0x0300 1 0xFF (last 8 b.bank b.dest) h.val ∧ others u) ∧
    (t.bus = some b → ∃ u, exec (.tapAbort h) s = .next u ∧ others u ∧ u.tap[h] = { t with bus := none, heldBanks := back } ∧
      one u (K.tapAborts h.val) ∧ err u (last 9 b.bank b.dest) ∧ { u with tap := s.tap, dict := s.dict } = s) ∧
    (t.bus = some b → s.tick < b.tick + 16 → exec (.tapBurstTimeout h) s = .next s) ∧
    (t.bus = some b → b.tick + 16 ≤ s.tick → ∃ u, exec (.tapBurstTimeout h) s = .next u ∧ others u ∧
      sent u [.tapErr h, .tapRet h b.bank] ∧ u.tap[h] = { t with bus := none, heldBanks := back } ∧
      one u (K.tapAborts h.val) ∧ err u (last 10 b.bank b.dest) ∧ { u with tap := s.tap, link := s.link, dict := s.dict } = s)) ∧
  (
  ∀ (s : State) (h : ChanId) (ok : Bool) (c : CoreId) (v : Verb), Safety.sound s →
    let t := s.tap[h]
    let others (u : State) : Prop := ∀ i, i ≠ h → u.tap[i] = s.tap[i]
    let trains := t.linkV = false ∧ s.act (K.tapEnable h.val) = 1 ∧ s.tapPowered = true
    let fallen (i : Instr) (clock : Nat) : Prop :=
      (t.linkM = true → ∃ u, exec i s = .next u ∧ others u ∧
        u.tap[h] = { t with linkM := false, linkV := false, training := false, offer := none, bus := none, heldBanks := 0,
                            clock := clock } ∧
        (∀ b, t.bus = some b → u.sgl (K.tapLastError h.val) = 11 + 2 ^ 8 * b.bank + 2 ^ 14 * b.dest) ∧
        { u with tap := s.tap, dict := s.dict } = s) ∧
      (t.linkM = false → exec i s = .next s)
    let j : ChanId := Fin.ofNat 4 (slotOpnd v.slot 1 % 4)
    let late := v.isTap = true ∧ s.runs = true ∧ v.done < v.tiles ∧ s.tap[j].begun c.val = 0 ∧
      v.awaited + s.act K.tapWaitLimit ≤ s.tick
    (∃ u, exec (.tapLinkMRise h) s = .next u ∧ others u ∧ { u with tap := s.tap } = s ∧
      (trains → u.tap[h] = { t with linkM := true, training := true }) ∧ (¬ trains → u.tap[h] = { t with linkM := true })) ∧
    (t.training = false → exec (.tapTrainingEnd h ok) s = .next s) ∧
    (t.training = true → (∃ u, exec (.tapTrainingEnd h true) s = .next u ∧ others u ∧
        u.tap[h] = { t with training := false, linkV := true, clock := u.tap[h].clock } ∧ 200 ≤ u.tap[h].clock ∧
        u.tap[h].clock ≤ 1600 ∧ { u with tap := s.tap, freeCtr := s.freeCtr } = s) ∧
      ∃ u, exec (.tapTrainingEnd h false) s = .next u ∧ others u ∧ u.tap[h] = { t with training := false, linkV := false } ∧
        u.sgl (K.tapLastError h.val) = 13 ∧ logged s u 0x0300 1 0xFF 13 h.val ∧
        { u with tap := s.tap, aon := s.aon, dict := s.dict, link := s.link } = s) ∧
    fallen (.tapLinkFall h) t.clock ∧ fallen (.tapClockStop h) 0 ∧
    (t.linkM = true ∧ t.linkV = true ∧ t.bus = none → ∃ u, exec (.tapStrayBeat h) s = .next u ∧
      u.sgl (K.tapLastError h.val) = 5 ∧ onlyObjects s u [K.tapLastError h.val] ∧ { u with dict := s.dict } = s) ∧
    (¬ (t.linkM = true ∧ t.linkV = true ∧ t.bus = none) → exec (.tapStrayBeat h) s = .next s) ∧
    (s.cores[c].active = some v → late → ∃ u, exec (.tapWaitLimit c) s = .next u ∧ u.cores[c].active = none ∧
      u.sgl (K.tapLastError j.val) = 12 + 2 ^ 14 * c.val ∧ u.parts[pid v.part].faulted = true ∧
      u.sgl (K.partFaults (pid v.part).val) = min (s.sgl (K.partFaults (pid v.part).val) + 1) 0xFFFFFFFF) ∧
    (s.cores[c].active = none ∨ (s.cores[c].active = some v ∧ ¬ late) → exec (.tapWaitLimit c) s = .next s))

/-! Photonics (chapter 15). -/

open Sys2Proof Sys2Proof.Machine Sys2Proof.Claims in
/-- R512, R515: the response that carries the TXN of the open request closes it, LASER_LINK_STATE becomes 1, and the next request that
waits is sent; one to a read of SOURCE_STATE gives the sources that are ready. An open request is sent again after 256
ticks, three times with its TXN; then it has failed, which is counted and recorded, and it is repeated with a new TXN
after 65,536 ticks. -/
def Obligations.ModuleRequestsAreAnsweredResentAndRepeated : Prop :=
  ∀ (s : State) (r : ModResp) (q : ModReq) (w : Bool) (sub value : Nat) (l : List (Bool × Nat × Nat)), Safety.sound s →
    let p := s.pho
    let sent (c : Instr) (k : Photonics) (o : List Output) : Prop := ∃ u, exec c s = .next u ∧ u.pho = k ∧
      u.link.out = s.link.out ++ o ∧ { u.link with out := s.link.out } = s.link ∧ { u with link := s.link, pho := p } = s
    (p.req = none → exec (.moduleResponse r) s = .next s ∧ exec .moduleRequestTimeout s = .next s ∧
      exec .moduleRetry s = .next s) ∧
    (p.req = some q → r.txn ≠ q.txn → exec (.moduleResponse r) s = .next s) ∧
    (p.req = some q → r.txn = q.txn → r.status ≠ 0 → p.queue = [] →
      sent (.moduleResponse r) { p with req := none, linkState := 1 } []) ∧
    (p.req = some q → r.txn = q.txn → r.status ≠ 0 → p.queue = (w, sub, value) :: l →
      sent (.moduleResponse r) { p with
        txn := p.txn + 1, queue := l, linkState := 1,
        req := some { txn := p.txn + 1, write := w, sub := sub, value := value, tick := s.tick, resends := 0, failed := false } }
        [.moduleReq (p.txn + 1) w sub value]) ∧
    (p.req = some q → r.txn = q.txn → r.status = 0 → q.write = false → ∃ u, exec (.moduleResponse r) s = .next u ∧
      u.pho.linkState = 1 ∧ u.pho.sources =
        (decide (ofLe (r.data.take 1) % 8 = 3), decide (ofLe (r.data.take 1) / 8 % 8 = 3))) ∧
    (p.req = some q → q.failed = false → q.tick + 256 ≤ s.tick → q.resends < 3 →
      sent .moduleRequestTimeout { p with req := some { q with resends := q.resends + 1, tick := s.tick } }
        [.moduleReq q.txn q.write q.sub q.value]) ∧
    (p.req = some q → q.failed = false → q.tick + 256 ≤ s.tick → 3 ≤ q.resends →
      ∃ u, exec .moduleRequestTimeout s = .next u ∧
        u.pho = { p with req := some { q with failed := true, tick := s.tick }, linkState := 2 } ∧
        u.sgl K.moduleRequestsFailed = min (s.sgl K.moduleRequestsFailed + 1) 0xFFFFFFFF ∧
        logged s u 0x0405 2 noPart (u.sgl K.moduleRequestsFailed) 0 ∧ onlyObjects s u (K.moduleRequestsFailed :: logKeys)) ∧
    (p.req = some q → q.failed = true ∨ s.tick < q.tick + 256 → exec .moduleRequestTimeout s = .next s) ∧
    (p.req = some q → q.failed = true → q.tick + 65536 ≤ s.tick →
      sent .moduleRetry { p with txn := p.txn + 1, req := some { q with txn := p.txn + 1, tick := s.tick } }
        [.moduleReq (p.txn + 1) q.write q.sub q.value]) ∧
    (p.req = some q → q.failed = false ∨ s.tick < q.tick + 65536 → exec .moduleRetry s = .next s)

open Sys2Proof Sys2Proof.Machine Sys2Proof.Claims in
/-- R517, R518, R520 to R524, R526, R527, R528, R529: a search locks every ring that finds its own line and fails the others, and a port
with two failed rings in a direction fails; the calibration of a direction sets the points and the drivers of its locked
rings, a driver whose range changes held at mid-code for 32 ns before, and that of both directions starts link training, slot
n on ring (SPARE_LINE + 1 + n) mod 17; a search that finds a ring's own line again moves its heater by 2,048 codes at most;
a ring found on another line is mislocked, counted, recorded and its event latched, which
when applied announces a move of its slot to the spare ring on every spared port, or asks the far device for one. -/
def Obligations.SearchesLockRingsAndMislocksAreFound : Prop :=
  ∀ (s : State) (q : PortId) (rx : Bool) (k j : LineId) (found : List RingFind) (f : RingFind), Safety.sound s →
    let p := s.ports[q]
    let line (n : LineId) : Option LineId := (found[n.val]?).bind (fun x => x.line)
    let bad := (List.finRange 17).filter (fun n => decide (line n ≠ some n))
    let done (d : Bool × Bool) : Bool := if rx then d.2 else d.1
    let others (u : State) : Prop := ∀ e, e ≠ q → u.ports[e] = s.ports[e]
    let became (c : Instr) (n : Port) : Prop := ∃ u, exec c s = .next u ∧ u.ports[q] = n ∧ others u ∧ { u with ports := s.ports } = s
    let searching := s.lightReady = true ∧ s.runs = true ∧ (p.state = 1 ∨ p.state = 2) ∧ done p.searched = false
    let held := s.runs = true ∧ 4 ≤ p.state ∧ p.state ≤ 6 ∧ (p.rings[ringIx rx k] = 2 ∨ p.rings[ringIx rx k] = 3)
    let mislocked (c : Instr) (found : Nat) (l : LineId) : Prop := ∃ u, exec c s = .next u ∧ u.ports[q].rings[ringIx rx k] = 4 ∧
      others u ∧ u.sgl K.mislocks = min (s.sgl K.mislocks + 1) 0xFFFFFFFF ∧ onlyObjects s u (K.mislocks :: logKeys) ∧
      logged s u 0x0401 1 noPart q.val (k.val + (if rx then 32 else 0) + 256 * found) ∧
      u.aon.held = s.aon.held ++ [.mislock q rx k l]
    let old := p.codes[ringIx rx k].toNat
    let near : BitVec 16 := BitVec.ofNat 16 (max (old - 2048) (min f.code.toNat (old + 2048)))
    (¬ searching → exec (.pilotsPresent q rx found) s = .next s) ∧
    (searching → p.ringsIn rx 5 = [] → (p.ringsIn (!rx) 5).length < 2 → ∃ u, exec (.pilotsPresent q rx found) s = .next u ∧
      (∀ n, u.ports[q].rings[ringIx rx n] = if line n = some n then 2 else 5) ∧
      (∀ n, u.ports[q].rings[ringIx (!rx) n] = p.rings[ringIx (!rx) n]) ∧
      (∀ n x, found[n.val]? = some x → x.line = some n → u.ports[q].codes[ringIx rx n] = x.code) ∧
      u.ports[q].state = (if 2 ≤ bad.length then 7 else if (if rx then p.searched.1 else p.searched.2) then 3 else 2) ∧
      (bad = [] → { u with ports := s.ports } = s) ∧
      (bad = [k] → logged s u 0x0400 2 noPart q.val (k.val + (if rx then 32 else 0)))) ∧
    (let due := s.runs = true ∧ (p.state = 2 ∨ p.state = 3) ∧ done p.searched = true ∧ done p.calibrated = false
     (¬ due → exec (.searchCalibrationComplete q rx) s = .next s) ∧
     (due → ¬ (p.state = 3 ∧ (if rx then p.calibrated.1 else p.calibrated.2) = true) →
       ∃ u, exec (.searchCalibrationComplete q rx) s = .next u ∧ others u ∧ u.ports[q].calibrated = dirSet p.calibrated rx ∧
         { u.ports[q] with calibrated := p.calibrated, points := p.points, drive := p.drive } = p ∧
         { u with ports := s.ports, freeCtr := s.freeCtr } = s ∧
         (∀ n, u.ports[q].points[ringIx (!rx) n] = p.points[ringIx (!rx) n]) ∧
         (∀ n, p.rings[ringIx rx n] ≠ 2 → u.ports[q].points[ringIx rx n] = p.points[ringIx rx n]) ∧
         (∀ n : LineId, rx = true ∨ p.rings[ringIx false n] ≠ 2 → u.ports[q].drive[n] = p.drive[n]) ∧
         (∀ n : LineId, rx = false → p.rings[ringIx false n] = 2 → u.ports[q].drive[n].swing < 3 ∧
           u.ports[q].drive[n].blank = if u.ports[q].drive[n].swing = p.drive[n].swing then 0 else 32)) ∧
     (due → p.state = 3 → (if rx then p.calibrated.1 else p.calibrated.2) = true →
       ∃ u, exec (.searchCalibrationComplete q rx) s = .next u ∧ u.ports[q].state = 4 ∧ u.ports[q].since = s.tick ∧
         u.link.out = s.link.out ++ [.mgmt q 0 0] ∧
         (p.spared = true → ∀ n : Fin 16, u.ports[q].slotsTx[n] = (s.pho.spareLine + 1 + n.val) % 17) ∧
         (p.spared = false → ∀ (n : Fin 16) (r : LineId), (p.working false)[n.val]? = some r → u.ports[q].slotsTx[n] = r.val))) ∧
    (¬ held → exec (.outOfLock q rx k f) s = .next s ∧ exec (.pilotCheck q rx k j) s = .next s) ∧
    (held → (f.line = some k → became (.outOfLock q rx k f) { p with
        codes := vset p.codes (ringIx rx k) near, idTick := vset p.idTick (ringIx rx k) s.tick }) ∧
      (f.line = some j → j ≠ k → mislocked (.outOfLock q rx k f) j.val j) ∧
      became (.pilotCheck q rx k k) { p with idTick := vset p.idTick (ringIx rx k) s.tick } ∧
      (j ≠ k → mislocked (.pilotCheck q rx k j) j.val j)) ∧
    (let out := s.runs = true ∧ 4 ≤ p.state ∧ p.state ≤ 6 ∧ p.rings[ringIx rx k] = 4
     (¬ out → exec (.mislock q rx k j) s = .next s) ∧
     (out → rx = true → j ≠ k → ∃ u rest, exec (.mislock q rx k j) s = .next u ∧
       u.link.out = s.link.out ++ .mgmt q 2 k.val :: rest ∧ { u with link := s.link, dict := s.dict } = s) ∧
     (out → rx = true → j = k → ∃ u, exec (.mislock q rx k j) s = .next u ∧ u.ports[q].rings[ringIx true k] = 5 ∧
       logged s u 0x0400 2 noPart q.val (k.val + 32)) ∧
     (out → rx = false → s.pho.mislock.isSome = true → ∃ u, exec (.mislock q rx k j) s = .next u ∧
       u.aon.held = s.aon.held ++ [.mislock q rx k j] ∧ { u.aon with held := s.aon.held } = s.aon ∧ { u with aon := s.aon } = s) ∧
     (out → rx = false → s.pho.mislock = none → ∃ u, exec (.mislock q rx k j) s = .next u ∧
       let moves := p.spared && decide (k.val ≠ s.pho.spareLine)
       u.pho = { s.pho with announce := none,
                            mislock := some { port := q, ring := k, tick := s.tick, moves := moves, relock := true,
                                              fails := decide (j = k) } } ∧ u.ports = s.ports ∧
       (moves = true → ∀ e, e ∈ s.sparedPorts → ∀ n : Fin 16, s.ports[e].slotsTx[n] = k.val →
         (∀ m : Fin 16, m < n → s.ports[e].slotsTx[m] ≠ k.val) →
         Output.mgmt e 1 (n.val + 32 * s.pho.spareLine) ∈ u.link.out)))

open Sys2Proof Sys2Proof.Machine Sys2Proof.Claims in
/-- R528, R529, R530, R531, R532, R534, R535, R561: a move takes the slot on one ring of every spared port to its spare ring, that ring
becomes the spare, and SPARE_LINE its line: the next ring in turn, 64 ticks after an announcement that ROT_PERIOD and the
calibration of the spare line allow, or a mislocked ring, which is then relocked or fails; the steps of calibration and
the management messages of a port set what they report. -/
def Obligations.MovesTakeEverySparedPortTogether : Prop :=
  ∀ (s : State) (q : PortId) (rx : Bool) (k : LineId) (f : RingFind) (slot : Fin 16) (t : Nat) (m : Mislock), Safety.sound s →
    s.pho.spareLine < 17 →
    let p := s.ports[q]
    let spare := s.pho.spareLine
    let next := (spare + 1) % 17
    let ports := (List.finRange 8).filter (fun e => (decide (s.ports[e].state = 4) || decide (s.ports[e].state = 5)) && s.ports[e].spared)
    let moved (u : State) (r : Nat) : Prop := u.pho.spareLine = r ∧ u.pho.moveTick = s.tick ∧ u.pho.announce = none ∧
      u.sgl K.rotationMoves = (s.sgl K.rotationMoves + ports.length) % 2 ^ 64 ∧
      (∀ e, e ∈ ports → ∀ n : Fin 16, u.ports[e].slotsTx[n] = if s.ports[e].slotsTx[n] = r then spare else s.ports[e].slotsTx[n])
    let same (c : Instr) : Prop := exec c s = .next s
    let became (c : Instr) (n : Port) : Prop := ∃ u, exec c s = .next u ∧ u.ports[q] = n ∧ (∀ e, e ≠ q → u.ports[e] = s.ports[e]) ∧
      { u with ports := s.ports } = s
    let steps := p.state = 5 ∧ s.runs = true ∧ s.portHeld q = false
    let lit := 4 ≤ p.state ∧ p.state ≤ 6
    let due := s.pho.lit = true ∧ s.runs = true ∧ s.sparedPorts ≠ [] ∧ s.pho.announce = none ∧ s.pho.mislock = none ∧
      s.pho.moveTick + (if s.pho.fade = 3 then 20972 else s.act K.rotPeriod) ≤ s.tick ∧ s.pho.switching = none ∧
      (∀ e, e ∈ s.sparedPorts → s.ports[e].calTx = true ∧ s.ports[e].calFar = true) ∧
      (s.pho.fade = 3 → s.pho.lineSource.getLsbD spare = true) ∧ s.movesHeld = false
    (due → ∃ u, exec .calibrationDue s = .next u ∧ u.pho = { s.pho with announce := some s.tick } ∧ { u with pho := s.pho, link := s.link } = s ∧
      ∀ e, e ∈ s.sparedPorts → ∀ n : Fin 16, s.ports[e].slotOn next = some n → Output.mgmt e 1 (n.val + 32 * spare) ∈ u.link.out) ∧
    (¬ due → same .calibrationDue) ∧
    (s.pho.announce = none ∨ (s.pho.announce = some t ∧ (s.tick < t + 64 ∨ s.runs = false ∨ s.movesHeld = true)) →
      same .rotationMove) ∧
    (s.pho.announce = some t → t + 64 ≤ s.tick → s.runs = true → s.movesHeld = false →
      ∃ u, exec .rotationMove s = .next u ∧ moved u next ∧ (∀ e, e ∉ ports → u.ports[e] = s.ports[e]) ∧
        ∀ e, e ∈ ports → u.ports[e].rings[ringIx false (Fin.ofNat 17 next)] = 3 ∧
          u.ports[e].rings[ringIx false (Fin.ofNat 17 spare)] = 2) ∧
    (s.pho.mislock = none ∨ (s.pho.mislock = some m ∧
        (m.ring ≠ k ∨ (m.moves = true ∧ (s.tick < m.tick + 64 ∨ s.movesHeld = true)) ∨ s.runs = false)) →
      same (.mislockMove k f)) ∧
    (s.pho.mislock = some m → m.ring = k → (m.moves = true → m.tick + 64 ≤ s.tick ∧ s.movesHeld = false) → s.runs = true →
      ∃ u, exec (.mislockMove k f) s = .next u ∧ u.pho.mislock = none ∧ u.pho.moveTick = s.tick ∧
        (m.moves = true → u.pho.spareLine = k.val) ∧ (m.moves = true → m.relock = false → moved u k.val) ∧
        (m.relock = true → f.line = some k → m.fails = false →
          (m.moves = true → s.ports[m.port].spared = true → u.ports[m.port].rings[ringIx false k] = 3) ∧
          (s.ports[m.port].spared = false → u.ports[m.port].rings[ringIx false k] = 2)) ∧
        (m.relock = true → f.line ≠ some k ∨ m.fails = true → u.ports[m.port].rings[ringIx false k] = 5)) ∧
    (¬ steps → ∀ last, same (.spareCalibrationStep q rx last)) ∧
    (steps → (∃ u, exec (.spareCalibrationStep q false true) s = .next u ∧ u.ports[q].calTx = true ∧
        { u.ports[q] with calTx := p.calTx, points := p.points, drive := p.drive } = p ∧
        (∀ n : LineId, n.val ≠ spare → u.ports[q].points[ringIx false n] = p.points[ringIx false n] ∧
          u.ports[q].drive[n] = p.drive[n]) ∧ (∀ n, u.ports[q].points[ringIx true n] = p.points[ringIx true n]) ∧
        (∀ e, e ≠ q → u.ports[e] = s.ports[e]) ∧ { u with ports := s.ports, freeCtr := s.freeCtr } = s) ∧
      same (.spareCalibrationStep q true false) ∧
      (∃ u, exec (.spareCalibrationStep q false false) s = .next u ∧ u.link.out = s.link.out ++ [.mgmt q 3 0] ∧
        { u.link with out := s.link.out } = s.link ∧ { u with link := s.link } = s) ∧
      ∃ u, exec (.spareCalibrationStep q true true) s = .next u ∧ u.link.out = s.link.out ++ [.mgmt q 4 0] ∧
        ∀ r : LineId, (∀ n : Fin 16, p.slotsRx[n] ≠ r.val) → (∀ x : LineId, x < r → ∃ n : Fin 16, p.slotsRx[n] = x.val) →
          u.ports[q].rings[ringIx true r] = 3) ∧
    (let late := p.state = 5 ∧ s.runs = true ∧ (rx = true ∨ p.calTx = false)
     (late → ∃ u, exec (.calibrationOverdue q rx) s = .next u ∧ u.sgl K.calOverdue = min (s.sgl K.calOverdue + 1) 0xFFFFFFFF ∧
       onlyObjects s u [K.calOverdue] ∧ { u with dict := s.dict } = s) ∧
     (¬ late → same (.calibrationOverdue q rx))) ∧
    (lit → s.runs = true → became (.moveAnnounce q slot k) { p with moving := some (slot.val, k.val, s.tick) }) ∧
    (¬ (lit ∧ s.runs = true) → same (.moveAnnounce q slot k)) ∧
    (lit → became (.calDone q) { p with calFar := true }) ∧ (¬ lit → same (.calDone q)) ∧ same (.calStep q) ∧
    (let asks := lit ∧ s.runs = true ∧ s.pho.mislock = none ∧ p.spared = true
     (asks → ∃ u, exec (.spareRequest q k) s = .next u ∧ { u with pho := s.pho, link := s.link } = s ∧
       u.pho = { s.pho with announce := none,
                            mislock := some { port := q, ring := k, tick := s.tick, moves := decide (k.val ≠ spare),
                                              relock := false, fails := false } }) ∧
     (¬ asks → same (.spareRequest q k)))

open Sys2Proof Sys2Proof.Machine Sys2Proof.Claims in
/-- R537 to R542, R544, R545, R546, Table 15-9: a sample keeps each line's loss below its reference, latches a fade that reaches
FADE_THRESHOLD and starts the warm-up at MARGIN_FLOOR or when the predicted crossing lies within the window; a ready
spare takes its first line, or the mesh fibre where no port is enabled; each later step takes the next one; the mesh
fibre's answer ends the handover; a spare that is late leaves none; COMMISSION takes the readings as the reference; and a
loss is located at the first tap where it rises by 1.00 dB. -/
def Obligations.FadesWarmTheSpareAndHandTheLinesOn : Prop :=
  ∀ (s : State) (h : Head) (q : PortId) (mon far : List Int) (r : ModResp) (x : ModReq) (i : Fin 7) (k : LineId), Safety.sound s →
    let p := s.pho
    let spare := p.spareLine
    let d (n : Nat) : Int := monAt (s.dsgl K.monAReference) n - at! 0 mon n
    let floor : Int := s.act K.marginFloor
    let thr : Int := s.act K.fadeThreshold
    let asked (u : State) (value : Nat) : Prop := p.req = none → s.lightUsed = true → ∃ z, u.pho.req = some z ∧
      z.write = true ∧ z.sub = 3 ∧ z.value = value ∧ Output.moduleReq z.txn true 3 value ∈ u.link.out
    let same (c : Instr) : Prop := exec c s = .next s
    (s.sgl K.commissionTick = 0 ∨ s.lightReady = false → same (.fadeSample mon)) ∧
    (s.sgl K.commissionTick ≠ 0 → s.lightReady = true → ∃ u, exec (.fadeSample mon) s = .next u ∧
      u.pho.samples = (if 64 ≤ p.samples.length then p.samples.drop 1 else p.samples) ++ [(List.range 18).map d] ∧
      (p.samples = [] → p.fade = 0 → (∃ n, n < 17 ∧ thr ≤ d n) → ∃ n e, n < 17 ∧ thr ≤ d n ∧ e = (d n).toNat ∧
        Event.fade false (Fin.ofNat 17 n) e ∈ u.aon.held) ∧
      (p.samples = [] → p.fade = 0 → thr ≤ d 17 → Event.fade true 16 (d 17).toNat ∈ u.aon.held) ∧
      (p.fade < 2 → (∃ n, n < 18 ∧ floor ≤ d n) → u.pho.fade = 2 ∧ u.pho.warmTick = s.tick) ∧
      (p.fade < 2 → (∃ n, n < 18 ∧ s.warmLine (lineSeries u.pho.samples n) = true) → u.pho.fade = 2) ∧
      (2 ≤ p.fade ∨ (∀ n, n < 18 → s.warmLine (lineSeries u.pho.samples n) = false) → u.pho.fade = p.fade) ∧
      (p.samples = [] → (∀ n, n < 18 → d n < floor) → u.pho.fade = p.fade ∧ u.pho.prediction = 0)) ∧
    (let late := p.fade = 2 ∧ p.sources.2 = false ∧ p.warmTick + s.act K.warmTime + 1048576 ≤ s.tick
     (late → ∃ u, exec .spareNotReady s = .next u ∧ u.pho = { p with fade := 5 } ∧ logged s u 0x0403 2 noPart 0 0 ∧
       onlyObjects s u logKeys) ∧
     (¬ late → same .spareNotReady)) ∧
    (let ready := p.fade = 2 ∧ p.sources.2 = true ∧ p.lit = true
     (¬ ready → same .spareReady) ∧
     (ready → ∃ u, exec .spareReady s = .next u ∧ u.pho.fade = 3 ∧
       (s.handoverHeld = true → u.pho = { p with fade := 3, stepTick := s.tick } ∧ { u with pho := p } = s) ∧
       (s.handoverHeld = false → s.anyPort = false → s.mesh.granted = none → u.pho.switching = some 17 ∧
         asked u (p.lineSource.toNat + (if p.lineSource.getLsbD 17 then 0 else 2 ^ 17))) ∧
       (s.handoverHeld = false → s.anyPort = true → s.sparedPorts ≠ [] → spare < 17 → p.lineSource.getLsbD spare = false →
         u.pho.switching = some spare ∧ asked u (p.lineSource.toNat + 2 ^ spare)))) ∧
    (let turn := p.fade = 3 ∧ p.lit = true ∧ p.switching = none ∧ s.handoverHeld = false ∧ p.stepTick + 20972 ≤ s.tick
     (turn → s.anyPort = true → s.sparedPorts ≠ [] → spare < 17 → p.lineSource.getLsbD spare = false →
       ∃ u, exec .handoverStep s = .next u ∧ u.pho.switching = some spare ∧ asked u (p.lineSource.toNat + 2 ^ spare)) ∧
     (p.fade ≠ 3 ∨ p.switching ≠ none ∨ s.handoverHeld = true ∨
         (s.tick < p.stepTick + 20972 ∧ s.mesh.state ≠ 6 ∧ p.lineSource ≠ 0) →
       same .handoverStep)) ∧
    (p.req = some x → r.txn = x.txn → r.status = 0 → x.write = true → x.sub = 3 → p.switching = some 17 →
      ∃ u, exec (.moduleResponse r) s = .next u ∧ u.pho.fade = 4 ∧ u.pho.lineSource = BitVec.ofNat 18 x.value ∧
        u.pho.switching = none ∧ u.dsgl K.monAReference = u.dsgl K.monAReading ∧
        u.sgl K.handovers = (s.sgl K.handovers + 1) % 2 ^ 32 ∧ logged s u 0x0404 0 noPart (u.sgl K.handovers) 0) ∧
    (reaches s h (objOf K.commission) → ∃ u, exec (.commission h) s = .next u ∧ answered s u h 2 0 (objOf K.commission) [] ∧
      u.sgl K.commissionTick = s.tick ∧ u.pho = { p with fade := 0, samples := [] } ∧
      u.dsgl K.monAReference = s.dsgl K.monAReading ∧
      ∀ e : PortId, u.dsgl (K.monReference e.val) =
        if s.ports[e].state = 5 ∨ s.ports[e].state = 6 then s.dsgl (K.monReading e.val) else s.dsgl (K.monReference e.val)) ∧
    (let walk := (s.ports[q].state = 5 ∨ s.ports[q].state = 6) ∧ s.runs = true
     let rise (n j : Nat) : Int := at! 0 (s.lossPath q mon far n) j - (if j = 0 then 0 else at! 0 (s.lossPath q mon far n) (j - 1))
     (¬ walk → same (.lossLocation q mon far)) ∧
     (walk → ∃ u, exec (.lossLocation q mon far) s = .next u ∧
       ((∀ n, n < 17 → ∀ j, j < 7 → rise n j < 100) → u.sgl (K.lossLocation q.val) = 0) ∧
       ((∀ n, n < 17 → ∀ j, j < i.val → rise n j < 100) → 100 ≤ rise k.val i.val → (∀ n, n < k.val → rise n i.val < 100) →
         u.sgl (K.lossLocation q.val) = [1, 2, 3, 4, 4, 5, 6].getD i.val 0 +
           16 * (if ∀ n : LineId, 100 ≤ rise n.val i.val then 31 else k.val) + 65536 * ((rise k.val i.val).toNat % 65536))))

/-! The mesh (chapter 17). -/

open Sys2Proof Sys2Proof.Machine Sys2Proof.Claims in
/-- R588, R589, R590, R591, R604, R605: input steps fall due in turn every MESH_CAL_INTERVAL ticks, at once for an input whose temperature
has moved, and a gain step when the mesh input has moved by 0.25 dB; a due gain step comes before any input step, and
input steps in the order in which they fell due, in the turn that background work has at the mesh; bring-up loads a slot
and leads through a gain step and a round of input steps to the ready state; and a third failed verification fails the
mesh. -/
def Obligations.MeshStepsFallDueAndAreTaken : Prop :=
  ∀ (s : State) (temp : W32) (mon : Int) (r : StepResult) (d : DueStep) (l : List DueStep) (x : Fin 8), Safety.sound s →
    let m := s.mesh
    let policy := s.act K.meshStalePolicy = 1
    let tunes := s.runs = true ∧ s.pho.lit = true ∧ 2 ≤ m.state ∧ m.state ≠ 7
    let idle := s.runs = true ∧ s.pho.lit = true ∧ m.granted = none ∧ m.settle ≤ s.tick ∧ s.meshSwapHolds = false
    let serves := if policy then m.state = 4 ∧ ∀ i, s.meshFresh i = true else m.state = 3 ∨ m.state = 4
    let claims := 256 ≤ m.grants ∧ ((m.gainDue = true ∧ m.gainFell + 4096 ≤ s.tick) ∨ ∃ e, e ∈ m.due ∧ e.tick + 4096 ≤ s.tick)
    let turn (fresh : Prop) := ¬ (serves ∧ s.meshReady ≠ []) ∨ claims ∨ (policy ∧ ¬ fresh)
    let same (c : Instr) : Prop := exec c s = .next s
    let became (c : Instr) (n : Mesh) : Prop := ∃ u, exec c s = .next u ∧ u.mesh = n ∧ { u with mesh := m } = s
    let moved (i : Fin 64) : Bool := ({ s with mesh := { m with temp := temp } } : State).movedHalf i
    (tunes → m.state ≠ 2 → m.dueTick + s.act K.meshCalInterval ≤ s.tick →
      became .inputStepDue { m with
        dueTick := s.tick, turn := m.turn + 1,
        due := if ∃ e, e ∈ m.due ∧ e.input = m.turn then m.due else m.due ++ [DueStep.mk m.turn s.tick false] }) ∧
    (¬ (tunes ∧ m.state ≠ 2 ∧ m.dueTick + s.act K.meshCalInterval ≤ s.tick) → same .inputStepDue) ∧
    (tunes → ∃ u new, exec (.meshTempSample temp) s = .next u ∧ u.mesh = { m with temp := temp, due := m.due ++ new } ∧
      { u with mesh := m } = s ∧ new.Pairwise (fun a b => a.input < b.input) ∧ ∀ e, e ∈ new ↔
        moved e.input = true ∧ e.tick = s.tick ∧ e.late = false ∧ ∀ o, o ∈ m.due → o.input ≠ e.input) ∧
    (tunes → ∃ u, exec (.meshPowerSample mon) s = .next u ∧ { u with mesh := m, dict := s.dict } = s ∧
      u.dsgl K.monAReading = patch (s.dsgl K.monAReading) 34 (leBytes 2 (BitVec.ofInt 16 mon).toNat) ∧
      u.mesh = if 25 ≤ (mon - m.gainMon).natAbs ∧ m.gainDue = false
        then { m with gainDue := true, gainFell := s.tick, gainLate := false } else m) ∧
    (tunes → ∃ u, exec .meshCalOverdue s = .next u ∧ { u with mesh := m, dict := s.dict } = s ∧
      u.mesh = { m with
        due := m.due.map (fun e => { e with late := e.late || decide (e.tick + 4096 ≤ s.tick) }),
        gainLate := m.gainLate || (m.gainDue && decide (m.gainFell + 4096 ≤ s.tick)) } ∧ onlyObjects s u [K.meshCalOverdue] ∧
      u.sgl K.meshCalOverdue = min (s.sgl K.meshCalOverdue +
        ((m.due.filter (fun e => !e.late && decide (e.tick + 4096 ≤ s.tick))).length +
          if m.gainDue = true ∧ m.gainLate = false ∧ m.gainFell + 4096 ≤ s.tick then 1 else 0)) 0xFFFFFFFF) ∧
    (¬ tunes → same (.meshTempSample temp) ∧ same (.meshPowerSample mon) ∧ same .meshCalOverdue) ∧
    (let can := m.gainDue = true ∧ tunes ∧ idle ∧ turn (∀ i, s.meshFresh i = true)
     (¬ can → same (.gainStep mon)) ∧
     (can → ∃ u, exec (.gainStep mon) s = .next u ∧ { u with mesh := m, dict := s.dict } = s ∧ onlyObjects s u [K.calSteps] ∧
       u.sgl K.calSteps = (s.sgl K.calSteps + 1) % 2 ^ 64 ∧ u.mesh.gainDue = false ∧ u.mesh.gainMon = mon ∧ u.mesh.grants = 0 ∧
       u.mesh.res = 8 ∧ (m.state = 2 → u.mesh.state = 3 ∧ u.mesh.roundTick = s.tick ∧
         u.mesh.due = (List.finRange 64).map (fun i => DueStep.mk i s.tick false)) ∧
       (m.state ≠ 2 → u.mesh.state = (if m.state = 6 then m.before else m.state) ∧ u.mesh.due = m.due))) ∧
    (m.due = [] → same (.inputStep r)) ∧
    (m.due = d :: l →
      let can := m.gainDue = false ∧ (m.state = 3 ∨ m.state = 4) ∧ idle ∧ turn (s.meshFresh d.input = true)
      let n := if r.verified then 0 else m.fails[d.input] + 1
      (¬ can → same (.inputStep r)) ∧
      (can → ∃ u, exec (.inputStep r) s = .next u ∧ u.mesh.due = l ∧ u.mesh.stepTick[d.input] = some s.tick ∧
        u.mesh.stepTemp[d.input] = m.temp ∧ u.mesh.fails[d.input] = n ∧ u.mesh.grants = 0 ∧ u.mesh.res = 8 ∧
        (∀ i, i ≠ d.input → u.mesh.stepTick[i] = m.stepTick[i] ∧ u.mesh.stepTemp[i] = m.stepTemp[i] ∧ u.mesh.fails[i] = m.fails[i]) ∧
        u.sgl K.calSteps = (s.sgl K.calSteps + 1) % 2 ^ 64 ∧ u.sgl K.meshErrorEst = r.err.toNat ∧
        (r.offsets = [] → u.dsgl K.meshOffsets = s.dsgl K.meshOffsets) ∧
        (∀ i v, r.offsets = [(i, v)] → i < 4096 → u.dsgl K.meshOffsets = patch (s.dsgl K.meshOffsets) (2 * i) (leBytes 2 v.toNat)) ∧
        u.mesh.state = (if 3 ≤ n then 7 else if m.state = 3 ∧ ∀ e, e ∈ l → m.roundTick < e.tick then 4 else m.state) ∧
        (3 ≤ n → u.sgl K.meshFailedInput = d.input.val ∧ logged s u 0x0406 2 noPart d.input.val 0) ∧
        (n < 3 → { u with mesh := m, dict := s.dict } = s))) ∧
    (let can := m.state = 1 ∧ s.lightReady = true ∧ s.act K.meshEnable = 1 ∧ s.runs = true
     (¬ can → same .meshBringup) ∧
     (can → m.loaded < 8 → (if s.act (K.slotValid m.loaded) = 1 then x.val = m.loaded
         else s.act (K.slotValid x.val) = 1 ∧ ∀ y, y < x.val → s.act (K.slotValid y) ≠ 1) →
       ∃ u, exec .meshBringup s = .next u ∧ { u with mesh := m, dict := s.dict } = s ∧ onlyObjects s u [K.slotLoads] ∧
         u.sgl K.slotLoads = min (s.sgl K.slotLoads + 1) 0xFFFFFFFF ∧
         u.mesh = { m with
           state := 2, gainDue := true, gainFell := s.tick, gainLate := false, due := [], dueTick := s.tick,
           loaded := x.val, settle := s.tick + 64 }))

open Sys2Proof Sys2Proof.Machine Sys2Proof.Claims in
/-- R517, R586, R592, R593, Table 17-4: in the states that grant, an idle mesh serves the next core in ascending order, wrapping, whose
tile names the loaded slot, unless an overdue step claims its turn, and holds its inputs dark for 16 ns when the resolution
changes; a tile that passes while an input is not fresh is counted;
and another slot is loaded when no waiting tile names the loaded one, or the oldest has waited SLOT_HOLD ticks. -/
def Obligations.MeshLoadsSlotsAndGrantsTilesInTurn : Prop :=
  ∀ (s : State) (x : Fin 8) (w : Nat × Nat) (l : List (Nat × Nat)) (c : CoreId), Safety.sound s →
    let m := s.mesh
    let idle := s.runs = true ∧ s.pho.lit = true ∧ m.granted = none ∧ m.settle ≤ s.tick ∧ s.meshSwapHolds = false
    let serves := if s.act K.meshStalePolicy = 1 then m.state = 4 ∧ ∀ i, s.meshFresh i = true else m.state = 3 ∨ m.state = 4
    let claims := 256 ≤ m.grants ∧ ((m.gainDue = true ∧ m.gainFell + 4096 ≤ s.tick) ∨ ∃ e, e ∈ m.due ∧ e.tick + 4096 ≤ s.tick)
    let names (n : Nat) : Nat := match s.cores[(Fin.ofNat 64 n : CoreId)].active with
      | some v => advSelect v.adv % 8
      | none => 0
    let asks (n : Nat) : Prop := ∃ t, (n, t) ∈ m.waiting ∧ names n = m.loaded
    let gap (n : Nat) : Nat := (n + 64 - (m.lastCore + 1) % 64) % 64
    let same (c : Instr) : Prop := exec c s = .next s
    (m.waiting = [] → same (.slotLoad x)) ∧
    (m.waiting = w :: l →
      let can := (m.state = 3 ∨ m.state = 4) ∧ idle ∧ names w.1 = x.val ∧ x.val ≠ m.loaded ∧
        ((∀ n, ¬ asks n) ∨ w.2 + s.act K.slotHold ≤ s.tick)
      (¬ can → same (.slotLoad x)) ∧
      (can → ∃ u, exec (.slotLoad x) s = .next u ∧ u.mesh = { m with loaded := x.val, settle := s.tick + 64 } ∧
        u.sgl K.slotLoads = min (s.sgl K.slotLoads + 1) 0xFFFFFFFF ∧ onlyObjects s u [K.slotLoads] ∧
        { u with mesh := m, dict := s.dict } = s)) ∧
    (¬ (serves ∧ idle ∧ ¬ claims ∧ ∃ n : CoreId, asks n.val) → (∀ e, e ∈ m.waiting → e.1 < 64) → same .meshGrant) ∧
    (serves → idle → ¬ claims → asks c.val → (∀ n : CoreId, asks n.val → gap c.val ≤ gap n.val) →
      ∃ u, exec .meshGrant s = .next u ∧ u.mesh = { m with
          granted := some c.val, waiting := m.waiting.filter (fun e => decide (e.1 ≠ c.val)), lastCore := c.val,
          res := u.mesh.res, fresh := u.mesh.fresh, blank := if u.mesh.res = m.res then 0 else 16, grants := m.grants + 1 } ∧
        (u.mesh.fresh = true ↔ ∀ i, s.meshFresh i = true) ∧
        (∀ v, s.cores[c].active = some v → u.mesh.res = if advParam v.adv % 16 = 0 then 8 else advParam v.adv % 16) ∧
        u.sgl K.meshTiles = (s.sgl K.meshTiles + 1) % 2 ^ 64 ∧
        u.sgl K.meshStaleTiles = (if ∀ i, s.meshFresh i = true then s.sgl K.meshStaleTiles
          else min (s.sgl K.meshStaleTiles + 1) 0xFFFFFFFF) ∧ onlyObjects s u [K.meshTiles, K.meshStaleTiles] ∧
        { u with mesh := m, dict := s.dict } = s)

/-! The fabric (chapter 16). -/

namespace Sys2Proof.Claims

open Sys2Proof.Machine

/-- No message waits for injection, and every receive buffer is empty. -/
def quiet (s : State) : Prop := s.fab.inject = [] ∧ ∀ q : PortId, s.ports[q].sess.rxBuf = []

/-- A message has been handed to the fabric: it has left on a port, or waits for injection (R354, R564). -/
def handedOn (u : State) (x : Msg) : Prop := x ∈ u.fab.inject ∨ ∃ q h, Output.flit q h (some x) ∈ u.link.out

/-- The answer to a message (Tables 16-2 and 16-5): back to its source, under its tag. -/
def replyTo (s : State) (m : Msg) (type aux : Nat) (data : List Byte) : Msg :=
  { type := BitVec.ofNat 8 type, len := BitVec.ofNat 8 data.length, srcDev := BitVec.ofNat 12 s.ownDev, srcPart := m.srcPart,
    dest := m.srcDev, tag := m.tag, addr := m.addr, aux := BitVec.ofNat 192 aux, data := data, tileLast := false }

/-- A message of type `t` from another device of the system comes to this one, and nothing else moves in the fabric. -/
def comes (s : State) (t : Nat) (m : Msg) : Prop :=
  m.type.toNat = t ∧ m.dest.toNat = s.ownDev ∧ m.srcDev.toNat ≠ s.ownDev ∧ s.devOk m.srcDev.toNat = true ∧ s.storeUp = true ∧
    quiet s

/-- The message has been ejected: one flit more received, and one more ejected (R561). -/
def ejected (s u : State) : Prop := u.fab.received = s.fab.received + 1 ∧ u.fab.ejected = s.fab.ejected + 1

end Sys2Proof.Claims

open Sys2Proof Sys2Proof.Machine Sys2Proof.Claims in
/-- R552, R553, R554, Table 16-7: a TRAIN from the device, port and configuration that Table 16-1 names brings its port up, with the slot
map of the far end, in a session that both ends have kept, whose unacknowledged flits are sent again in order, or in a new
one; any other fails the port with its cause, and so do 4,096 ticks of training, and LINK_DOWN_LIMIT ticks of retraining,
which begins when no good flit has come for 64 ticks or a flit has drawn 16 NAKs. -/
def Obligations.LinksTrainRetrainAndFail : Prop :=
  ∀ (s : State) (q : PortId) (m : TrainMsg), Safety.sound s →
    let p := s.ports[q]
    let others (u : State) : Prop := ∀ e, e ≠ q → u.ports[e] = s.ports[e]
    let same (c : Instr) : Prop := exec c s = .next s
    let failed (c : Instr) (far : BitVec 16) (cause : Nat) : Prop := ∃ u, exec c s = .next u ∧
      u.ports[q] = { p with state := 7, fault := cause, retraining := false, far := far } ∧ others u ∧
      logged s u 0x0500 2 noPart q.val cause ∧ onlyObjects s u logKeys
    let training := p.state = 4 ∧ s.runs = true
    let role := m.port.val = if q.val % 2 = 0 then q.val + 1 else q.val - 1
    let sizes := m.sizeX.toNat = s.act K.fabricSizeX ∧ m.sizeY.toNat = s.act K.fabricSizeY ∧
      m.sizeZ.toNat = s.act K.fabricSizeZ ∧ m.express.toNat = s.act K.expressDim
    let right := m.device.toNat = s.farOf q ∧ role ∧ sizes
    let far := m.device.setWidth 16
    let came (u : State) : Prop := exec (.train q m) s = .next u ∧ u.ports[q].state = (if p.spared then 5 else 6) ∧
      u.ports[q].far = far ∧ u.ports[q].fault = 0 ∧ u.ports[q].since = s.tick ∧ others u ∧
      ∀ n : Fin 16, u.ports[q].slotsRx[n] = (m.slotMap.getD n.val 0).val
    (∀ d, d < 3 → 1 ≤ s.fabSize d ∧ s.fabSize d ≤ 16) → (
      (q.val < 6 → ∀ d, d < 3 → coord (s.farOf q) d = if d = q.val / 2
        then (coord s.ownDev d + (if q.val % 2 = 0 then 1 else s.fabSize d - 1)) % s.fabSize d else coord s.ownDev d) ∧
      (¬ training → same (.train q m)) ∧
      (training → m.device.toNat ≠ s.farOf q → failed (.train q m) far 1) ∧
      (training → m.device.toNat = s.farOf q → ¬ role → failed (.train q m) far 2) ∧
      (training → m.device.toNat = s.farOf q → role → ¬ sizes → failed (.train q m) far 3) ∧
      (training → right → quiet s → ¬ (m.sessionKept = true ∧ p.sess.kept = true) → ∃ u, came u ∧
        u.ports[q].sess = { Session.reset with kept := true } ∧
        u.fab.discarded = s.fab.discarded + p.sess.retry.length ∧
        u.sgl (K.sessions q.val) = (s.sgl (K.sessions q.val) + 1) % 2 ^ 32 ∧
        (p.sess.retry ≠ [] → logged s u 0x0501 1 noPart q.val p.sess.retry.length)) ∧
      (training → right → quiet s → m.sessionKept = true → p.sess.kept = true → ∃ (u : State) (hs : List FlitHead), came u ∧
        u.ports[q].sess.txSeq = p.sess.txSeq ∧ u.ports[q].sess.rxSeq = p.sess.rxSeq ∧ u.ports[q].sess.retry = p.sess.retry ∧
        u.fab.discarded = s.fab.discarded ∧ hs.map (fun h => h.seq) = p.sess.retry.map (fun e => e.1) ∧
        hs.map (fun h => h.credits) = p.sess.retry.map (fun e => e.2.2.2) ∧
        u.link.out = s.link.out ++ (hs.zip p.sess.retry).map (fun e => Output.flit q e.1 (some e.2.2.2.1)))) ∧
    (let late := p.state = 4 ∧ p.retraining = false ∧ p.since + 4096 ≤ s.tick ∧ s.runs = true
     (late → failed (.trainingTimeout q) p.far 4) ∧ (¬ late → same (.trainingTimeout q))) ∧
    (let late := p.state = 4 ∧ p.retraining = true ∧ p.since + s.act K.linkDownLimit ≤ s.tick ∧ s.runs = true
     (late → failed (.retrainLimit q) p.far 5) ∧ (¬ late → same (.retrainLimit q))) ∧
    (let down := (p.state = 5 ∨ p.state = 6) ∧ (p.since + 64 ≤ s.tick ∨ 16 ≤ p.sess.naks) ∧ s.runs = true
     (down → ∃ u, exec (.linkDown q) s = .next u ∧ others u ∧
       u.ports[q] = { p with state := 4, retraining := true, since := s.tick, sess := { p.sess with naks := 0 } } ∧
       u.link.out = s.link.out ++ [.mgmt q 0 0] ∧
       u.sgl (K.retrains q.val) = min (s.sgl (K.retrains q.val) + 1) 0xFFFFFFFF ∧ onlyObjects s u [K.retrains q.val] ∧
       { u with link := s.link, ports := s.ports, dict := s.dict } = s) ∧
     (¬ down → same (.linkDown q)))

open Sys2Proof Sys2Proof.Machine Sys2Proof.Claims in
/-- R556 to R559, Tables 16-2 to 16-4: a flit with a bad CHECK is discarded with a NAK that carries the expected SEQ; a good one's ACK
frees the flits it covers, and its CREDIT bytes return credits unless it is discarded (notes/assumptions/67.md); a sequenced
one is accepted only at the expected SEQ, one beyond a gap draws a NAK, one accepted before draws none; and a buffer entry
that is freed returns its credit. -/
def Obligations.FlitsAreAcceptedOnceInOrder : Prop :=
  ∀ (s : State) (q : PortId) (b : List Byte), Safety.sound s → quiet s →
    let p := s.ports[q]
    let e := p.sess
    let header := ofLe (b.take 8)
    let seq := BitVec.ofNat 16 header
    let ack := BitVec.ofNat 16 (header / 2 ^ 16)
    let ch := header / 2 ^ 32 % 8
    let good := b.length = 256 ∧ (crc64 (b.take 248)).toNat = ofLe (b.drop 248)
    let live := (p.state = 5 ∨ p.state = 6) ∧ s.runs = true
    let plain := header / 2 ^ 35 % 2 = 0 ∧ header / 2 ^ 36 % 2 = 0
    let first := match e.retry with | [] => e.txSeq | x :: _ => x.1
    let freed := if (ack - first).toNat ≤ e.retry.length then (ack - first).toNat else 0
    let took (u : State) (taken : Bool) : Prop := exec (.flitReceive q b) s = .next u ∧ u.ports[q].since = s.tick ∧
      u.ports[q].sess.retry = e.retry.drop freed ∧ u.ports[q].sess.txSeq = e.txSeq ∧
      (∀ c : Fin 5, u.ports[q].sess.credits[c] =
        e.credits[c] + if taken then (b.getD (240 + c.val) 0).toNat else 0) ∧
      ∀ d, d ≠ q → u.ports[d] = s.ports[d]
    let nak (u : State) : Prop :=
      ∃ h, u.link.out = s.link.out ++ [.flit q h none] ∧ h.nak = true ∧ h.ack = e.rxSeq ∧ h.channel = 7
    (¬ live → exec (.flitReceive q b) s = .next s) ∧
    (live → ¬ good → ∃ u, exec (.flitReceive q b) s = .next u ∧ nak u ∧
      u.sgl (K.crcErrors q.val) = min (s.sgl (K.crcErrors q.val) + 1) 0xFFFFFFFF ∧ onlyObjects s u [K.crcErrors q.val] ∧
      u.ports[q].sess = { e with ret := Vector.replicate 5 0 } ∧ u.fab = s.fab ∧ u.store = s.store) ∧
    (live → good → plain → 5 ≤ ch → ∃ u, took u true ∧ u.ports[q].sess.rxSeq = e.rxSeq ∧ u.link.out = s.link.out ∧ u.fab = s.fab) ∧
    (live → good → plain → ch < 5 → seq ≠ e.rxSeq → ∃ u, took u false ∧ u.ports[q].sess.rxSeq = e.rxSeq ∧ u.fab = s.fab ∧
      ((seq - e.rxSeq).toNat < 2 ^ 15 → nak u) ∧ (2 ^ 15 ≤ (seq - e.rxSeq).toNat → u.link.out = s.link.out)) ∧
    (live → good → plain → seq = e.rxSeq → (ch = 4 ∨ (ch < 4 ∧ ofLe ((b.drop 12).take 2) % 2 ^ 12 = s.ownDev ∧
        128 ≤ (b.getD 8 0).toNat ∧ ∀ t : Nat, t ∈ [0x81, 0x82, 0x83, 0x84, 0x85, 0x87, 0x8F] → (b.getD 8 0).toNat ≠ t)) →
      ∃ u, took u true ∧ u.ports[q].sess.rxSeq = e.rxSeq + 1 ∧ ejected s u ∧
        u.sgl (K.flitsRx q.val) = (s.sgl (K.flitsRx q.val) + 1) % 2 ^ 64 ∧
        (∀ c : Fin 5, u.ports[q].sess.ret[c] = e.ret[c] + if c.val = ch then 1 else 0) ∧
        (ch < 4 → u.sgl K.remoteErrors = min (s.sgl K.remoteErrors + 1) 0xFFFFFFFF))

open Sys2Proof Sys2Proof.Machine Sys2Proof.Claims in
/-- R215, R238, R353, R565 to R568, Table 16-6: a READ answers with the bytes, a WRITE with WRITE_ACK once its marked bytes are in
memory, an ATOMIC with the old value of its word, and a SIGNAL adds to its counter and is not answered; a poisoned word is
cause 5, a device in Fault cause 6 except for a READ, an address that may not be reached its own cause and is counted, and
a reference without the right cause 3, counted; and with no free service entry a request that needs an answer waits. -/
def Obligations.RequestsOfOtherDevicesAreServed : Prop :=
  ∀ (s : State) (m : Msg) (n : Nat), Safety.sound s →
    let a := m.addr.toNat
    let off := gaOff a
    let i := (off - 0xF0000000) / 4
    let x := m.aux.toNat
    let w := if x / 16 % 2 = 1 then 64 else 32
    let room := s.fab.service.length < 256
    let up := s.inFault = false
    let rd := Instr.remoteRead m
    let wr := Instr.remoteWrite m
    let at_ := Instr.atomic m
    let sg := Instr.signal m
    let counter := conjRefOk a = true ∧ m.len.toNat = 4
    let answers (c : Instr) (type aux : Nat) (data : List Byte) (P : State → Prop) : Prop :=
      ∃ u, exec c s = .next u ∧ ejected s u ∧ handedOn u (replyTo s m type aux data) ∧ u.threads = s.threads ∧ u.cores = s.cores ∧ P u
    let error (c : Instr) (k : Nat) : Prop := answers c 0x8F k [] (fun u => u.store = s.store ∧
      u.sgl K.addressFaults = min (s.sgl K.addressFaults + 1) 0xFFFFFFFF ∧
      logged s u 0x0112 1 noPart a (65536 + m.srcDev.toNat + 4096 * m.srcPart.val))
    (comes s 1 m → room → ¬ counter → s.reachCause a m.len.toNat = none →
      (readable s off m.len.toNat →
        answers rd 0x81 0 ((List.range m.len.toNat).map (fun j => s.store.mem.read (off + j))) (fun u => u.store.mem = s.store.mem)) ∧
      (¬ readable s off m.len.toNat → answers rd 0x8F 5 [] (fun u => u.store.mem = s.store.mem))) ∧
    (comes s 1 m → room → ¬ counter → s.reachCause a m.len.toNat = some n → error rd n) ∧
    (comes s 1 m → room → counter → s.isLocal a = true →
      (s.conjRights i m.srcDev.toNat m.srcPart.val = true → answers rd 0x81 0 (leBytes 4 (s.conjVal i)) (fun u => u.store = s.store)) ∧
      (s.conjRights i m.srcDev.toNat m.srcPart.val = false → answers rd 0x8F 3 [] (fun u => u.store = s.store ∧
        u.sgl K.conjRightsFaults = min (s.sgl K.conjRightsFaults + 1) 0xFFFFFFFF))) ∧
    (comes s 2 m → room → up → s.reachCause a (max 1 m.data.length) = none → readable s off m.data.length →
      answers wr 0x82 0 [] (fun u =>
        (∀ j v, m.data[j]? = some v → u.store.mem.read (off + j) =
          if m.aux.getLsbD j = true ∧ guarded s.guards (off + j) = false then v else s.store.mem.read (off + j)) ∧
        ∀ o, (o < off ∨ off + m.data.length ≤ o) → u.store.mem.read o = s.store.mem.read o)) ∧
    (comes s 2 m → room → up → s.reachCause a (max 1 m.data.length) = some n → error wr n) ∧
    (comes s 5 m → room → up → s.reachCause a 1 = none → a % (w / 8) = 0 → readable s off (w / 8) →
      let old := leValue s.store.mem off (w / 8)
      answers at_ 0x85 0 (leBytes (w / 8) old) (fun u =>
        stored s u off (w / 8) (atomNew (x % 16) w old (x / 2 ^ 64 % 2 ^ 64) (x / 2 ^ 128 % 2 ^ 64)))) ∧
    (comes s 5 m → room → up → s.reachCause a 1 = none → a % (w / 8) = 0 → ¬ readable s off (w / 8) →
      answers at_ 0x8F 5 [] (fun u => u.store.mem = s.store.mem)) ∧
    (comes s 5 m → room → up → s.reachCause a 1 = none → a % (w / 8) ≠ 0 → error at_ 4) ∧
    (comes s 6 m → up → conjRefOk a = true → s.isLocal a = true →
      (s.conjRights i m.srcDev.toNat m.srcPart.val = true → ∃ u, exec sg s = .next u ∧ ejected s u ∧
        u.conjVal i = min (s.conjVal i + x % 2 ^ 32) 0xFFFFFFFF ∧ (∀ j, j ≠ i → u.conjVal j = s.conjVal j) ∧
        u.sgl K.conjSignalsApplied = (s.sgl K.conjSignalsApplied + 1) % 2 ^ 64 ∧ u.store.mem = s.store.mem ∧ u.threads = s.threads) ∧
      (s.conjRights i m.srcDev.toNat m.srcPart.val = false → ∃ u, exec sg s = .next u ∧ ejected s u ∧
        u.sgl K.conjRightsFaults = min (s.sgl K.conjRightsFaults + 1) 0xFFFFFFFF ∧ onlyObjects s u [K.conjRightsFaults] ∧
        { u with fab := s.fab, dict := s.dict } = s)) ∧
    (s.inFault = true → room →
      (comes s 2 m → answers wr 0x8F 6 [] (fun u => u.store = s.store)) ∧
      (comes s 3 m → answers (.tileOpen m) 0x8F 6 [] (fun u => u.store = s.store)) ∧
      (comes s 5 m → answers at_ 0x8F 6 [] (fun u => u.store = s.store)) ∧
      (comes s 7 m → answers (.waitReg m) 0x8F 6 [] (fun u => u.store = s.store))) ∧
    (quiet s → s.fab.service.length = 256 → m.type.toNat < 128 → m.type ≠ 4 → m.type ≠ 6 → ∀ c,
      c = rd ∨ c = wr ∨ c = at_ ∨ c = Instr.tileOpen m ∨ c = Instr.waitReg m → exec c s = .next s)

open Sys2Proof Sys2Proof.Machine Sys2Proof.Claims in
/-- R202, R569, R572: a TILE_OPEN takes the first free commit buffer and is granted it, or waits for one; TILE_DATA gathers the bytes of
its transaction, whose last flit commits them all in one step, is answered with TILE_ACK, and passes the buffer on to the
oldest that waits; a WAIT_REG is answered at once when the counter has reached its value, is told to retry when 4,096
registrations are held, and else is kept in place of one of the same identity. -/
def Obligations.RemoteTilesCommitWholeAndWaitsAreKept : Prop :=
  ∀ (s : State) (m o : Msg) (l : List Msg) (b : Fin 16) (t : CommitBuf) (v : Byte), Safety.sound s → s.inFault = false →
    let a := m.addr.toNat
    let x := m.aux.toNat
    let room := s.fab.service.length < 256
    let isOf (y : CommitBuf) (z : Msg) : Prop := y.dev = z.srcDev.toNat ∧ y.part = z.srcPart.val ∧ y.tag = z.tag
    let fresh (z : Msg) : CommitBuf :=
      { dev := z.srcDev.toNat, part := z.srcPart.val, tag := z.tag, flits := z.aux.toNat % 2 ^ 16, bytes := [] }
    let mine : Prop := s.fab.commits[b] = some t ∧ isOf t m ∧ ∀ (c : Fin 16) (y : CommitBuf), c < b → s.fab.commits[c] = some y → ¬ isOf y m
    let bytes := t.bytes ++ ((List.range m.data.length).filter (fun j => m.aux.getLsbD j)).map (fun j =>
      OutByte.mk (m.addr + BitVec.ofNat 64 j) (m.data.getD j 0) 0xFF 0)
    let place (e : OutByte) := gaOff e.addr.toNat
    let i := (gaOff a - 0xF0000000) / 4
    let r : WaitReg := { dev := m.srcDev.toNat, part := m.srcPart.val, thread := x / 2 ^ 32 % 128, tag := m.tag, index := i,
                         value := BitVec.ofNat 32 x }
    let rest := s.fab.regs.filter (fun y =>
      !(decide (y.dev = r.dev) && decide (y.part = r.part) && decide (y.thread = r.thread) && decide (y.tag = r.tag)))
    (comes s 3 m → room → s.reachCause a 1 = none →
      ((∀ c : Fin 16, c < b → s.fab.commits[c].isSome = true) → s.fab.commits[b] = none →
        ∃ u, exec (.tileOpen m) s = .next u ∧ ejected s u ∧ u.fab.commits = vset s.fab.commits b (some (fresh m)) ∧
          u.fab.service = s.fab.service ∧ handedOn u (replyTo s m 0x83 b.val []) ∧ u.store = s.store) ∧
      ((∀ c : Fin 16, s.fab.commits[c].isSome = true) →
        ∃ u, exec (.tileOpen m) s = .next u ∧ ejected s u ∧ u.fab.service = s.fab.service ++ [m] ∧
          { u with fab := s.fab } = s)) ∧
    (comes s 4 m → (∀ (c : Fin 16) (y : CommitBuf), s.fab.commits[c] = some y → ¬ isOf y m) →
      ∃ u, exec (.tileData m) s = .next u ∧ ejected s u ∧ { u with fab := s.fab } = s) ∧
    (comes s 4 m → mine → s.reachCause a (max 1 m.data.length) = none → m.tileLast = false →
      ∃ u, exec (.tileData m) s = .next u ∧ ejected s u ∧ u.fab.commits = vset s.fab.commits b (some { t with bytes := bytes }) ∧
        { u with fab := s.fab } = s) ∧
    (comes s 4 m → mine → s.reachCause a (max 1 m.data.length) = none → m.tileLast = true →
      (∀ e, e ∈ bytes → readable s (place e) 1) →
      ∃ u, exec (.tileData m) s = .next u ∧ ejected s u ∧ handedOn u (replyTo s m 0x84 0 []) ∧
        (∀ j, (∀ e, e ∈ bytes → place e ≠ j) → u.store.mem.read j = s.store.mem.read j) ∧
        (∀ front e back, bytes = front ++ e :: back → (∀ c, c ∈ back → place c ≠ place e) → e.mask = 0xFF → e.val = v →
          u.store.mem.read (place e) = if guarded s.guards (place e) then s.store.mem.read (place e) else v) ∧
        (s.fab.service = [] → u.fab.commits = vset s.fab.commits b none) ∧
        (s.fab.service = o :: l → u.fab.commits = vset s.fab.commits b (some (fresh o)) ∧ u.fab.service = l ∧
          handedOn u (replyTo s o 0x83 b.val []))) ∧
    (comes s 7 m → room → conjRefOk a = true → s.isLocal a = true → s.conjRights i m.srcDev.toNat m.srcPart.val = true →
      ∃ u, exec (.waitReg m) s = .next u ∧ ejected s u ∧ u.store = s.store ∧
        (x % 2 ^ 32 ≤ s.conjVal i → u.fab.regs = rest ∧ handedOn u (replyTo s m 0x87 1 [])) ∧
        (s.conjVal i < x % 2 ^ 32 → 4096 ≤ rest.length → u.fab.regs = rest ∧ handedOn u (replyTo s m 0x87 0 [])) ∧
        (s.conjVal i < x % 2 ^ 32 → rest.length < 4096 → u.fab.regs = rest ++ [r] ∧ { u with fab := s.fab } = s))

open Sys2Proof Sys2Proof.Machine Sys2Proof.Claims in
/-- R566, R569, R570, R571, R572, Tables 16-5 and 16-6: an answer closes the request of its tag: READ_DATA and ATOMIC_DATA give their
value to the register of the thread that waits, which goes on, WRITE_ACK lets it go on, TILE_GRANT sends the data of the
tile, TILE_ACK takes it out of the write buffer, WAIT_ANSWER ends a wait or has it registered again; ERROR is counted,
kept and raised as the fault of its cause; one that comes late is counted; and a request without an answer for
REMOTE_TIMEOUT ticks raises a data fault. -/
def Obligations.AnswersCloseTheirRequests : Prop :=
  ∀ (s : State) (m : Msg) (r : RemReq) (t : ThreadId) (p : PartId) (tag : BitVec 16) (ref : W64) (v : W32) (reg : Bool)
    (tick : Nat) (v' : OutTile), Safety.sound s →
    let found : Prop := s.fab.outstanding.find? (fun x => decide (x.tag = m.tag)) = some r
    let without (g : BitVec 16) := s.fab.outstanding.filter (fun x => decide (x.tag ≠ g))
    let waits : Prop := r.thread = t.val ∧ s.threads[t].wait = .remote r.tag
    let c := (Fin.ofNat 64 r.core : CoreId)
    let value : W64 := BitVec.ofNat 64 (ofLe (m.data.take (if 64 ≤ r.dst then 8 else 4)))
    let up := s.runs = true
    let ans (i : Instr) (k : Nat) : Prop := (i = .readData m ∧ k = 0x81) ∨ (i = .writeAck m ∧ k = 0x82) ∨
      (i = .tileGrant m ∧ k = 0x83) ∨ (i = .tileAck m ∧ k = 0x84) ∨ (i = .atomicData m ∧ k = 0x85)
    let resumed (u : State) (h : Thread) : Prop := otherThreads s u t ∧ u.threads[t] = { h with wait := .none }.advance
    let raised (u : State) (part kind cause addr : Nat) : Prop := u.threads[t].holding = true ∧ u.threads[t].wait = .none ∧
      u.parts[pid part].faulted = true ∧
      u.sgl (K.partFaults (pid part).val) = min (s.sgl (K.partFaults (pid part).val) + 1) 0xFFFFFFFF ∧
      logged s u (0x0200 + kind) 2 (pid part).val
        (kind + 2 ^ 8 * cause + 2 ^ 16 * (t.val % 64) + 2 ^ 22 * (if 64 ≤ t.val then 1 else 0)) addr
    let word (cause dev part : Nat) := cause % 256 + 2 ^ 8 * (dev % 4096) + 2 ^ 20 * (part % 16)
    (¬ up → ∀ i k, ans i k → exec i s = .next s) ∧
    (up → found → waits →
      (comes s 0x81 m → ∃ u, exec (.readData m) s = .next u ∧ ejected s u ∧ u.fab.outstanding = without m.tag ∧
        resumed u (s.threads[t].sset (Fin.ofNat 64 r.dst) value)) ∧
      (comes s 0x85 m → ∃ u, exec (.atomicData m) s = .next u ∧ ejected s u ∧ u.fab.outstanding = without m.tag ∧
        resumed u (s.threads[t].sset (Fin.ofNat 64 r.dst) value)) ∧
      (comes s 0x82 m → ∃ u, exec (.writeAck m) s = .next u ∧ ejected s u ∧ u.fab.outstanding = without m.tag ∧
        resumed u s.threads[t])) ∧
    (up → found → 80 ≤ r.thread → comes s 0x81 m → (∃ x, s.cores[c].active = some x ∧ r.core = c.val ∧ r.ticket = x.ticket ∧ r.part = x.part) →
      ∃ u, exec (.readData m) s = .next u ∧ ejected s u ∧ u.fab.outstanding = without m.tag ∧
        u.cores[c] = { s.cores[c] with rdata := s.cores[c].rdata ++ [(r.addr.toNat, m.data)] }) ∧
    (up → found → comes s 0x84 m → ∃ u, exec (.tileAck m) s = .next u ∧ ejected s u ∧ u.fab.outstanding = without m.tag ∧
      u.cores[c] = { s.cores[c] with wbuf := s.cores[c].wbuf.filter (fun y => decide (y.remote ≠ 1 + r.tag.toNat)) } ∧
      { u with fab := s.fab, cores := s.cores } = s) ∧
    (up → found → r.type = 3 → comes s 0x83 m → s.cores[c].wbuf.find? (fun y => decide (y.remote = 1 + r.tag.toNat)) = some v' →
      ∃ u, exec (.tileGrant m) s = .next u ∧ ejected s u ∧
        u.fab.outstanding = without m.tag ++ [{ r with type := 4, tick := s.tick }] ∧
        ∀ n run, v'.runs[n]? = some run → ∃ y, handedOn u y ∧ y.type = 4 ∧ y.tag = r.tag ∧ y.dest = BitVec.ofNat 12 r.dev ∧
          (∀ e, run.head? = some e → y.addr = BitVec.ofNat 64 e.1) ∧ y.tileLast = decide (n + 1 = v'.runs.length)) ∧
    (up → s.fab.outstanding.find? (fun x => decide (x.tag = m.tag)) = none → ∀ i k, ans i k → comes s k m →
      ∃ u, exec i s = .next u ∧ ejected s u ∧ { u with fab := s.fab, dict := s.dict } = s ∧ onlyObjects s u [K.lateResponses] ∧
        u.sgl K.lateResponses = (if m.tag ∈ s.fab.late then min (s.sgl K.lateResponses + 1) 0xFFFFFFFF else s.sgl K.lateResponses)) ∧
    (up → comes s 0x87 m → s.threads[t].wait = .conj ref v true m.tag tick → s.isLocal ref.toNat = false →
      (∀ e : ThreadId, e < t → ∀ a b d, s.threads[e].wait ≠ .conj a b true m.tag d) →
      ∃ u, exec (.waitAnswer m) s = .next u ∧ ejected s u ∧ otherThreads s u t ∧ { u with fab := s.fab, threads := s.threads } = s ∧
        (m.aux.getLsbD 0 = true → u.threads[t] = { s.threads[t] with wait := .none }.advance) ∧
        (m.aux.getLsbD 0 = false → u.threads[t] = { s.threads[t] with wait := .conj ref v false m.tag s.tick })) ∧
    (up → comes s 0x8F m → found → waits → (∀ e : ThreadId, ∀ a b d, s.threads[e].wait ≠ .conj a b true m.tag d) →
      let k := m.aux.toNat % 256
      ∃ u, exec (.error m) s = .next u ∧ ejected s u ∧ u.fab.outstanding = without m.tag ∧
        u.sgl K.remoteErrors = min (s.sgl K.remoteErrors + 1) 0xFFFFFFFF ∧
        u.sgl K.lastRemoteError = word k m.srcDev.toNat m.srcPart.val ∧ raised u r.part (if k ≤ 4 then 1 else 2) 7 r.addr.toNat) ∧
    (s.fab.outstanding.find? (fun x => decide (x.tag = tag)) = some r →
      (waits → r.tick + s.act K.remoteTimeout ≤ s.tick → up → ∃ u, exec (.remoteTimeout tag) s = .next u ∧
        u.fab.outstanding = without tag ∧ u.fab.late = s.fab.late ++ [tag] ∧ u.sgl K.lastRemoteError = word 7 r.dev r.part ∧
        raised u r.part 2 8 r.addr.toNat) ∧
      (s.tick < r.tick + s.act K.remoteTimeout ∨ ¬ up → exec (.remoteTimeout tag) s = .next s)) ∧
    (s.threads[t].wait = .conj ref v reg tag tick → s.threadPart t = some p →
      (s.isLocal ref.toNat = true ∨ ¬ up ∨ s.tick < tick + (if reg then 65536 else 16) → exec (.waitReregister t) s = .next s) ∧
      (s.isLocal ref.toNat = false → up → tick + (if reg then 65536 else 16) ≤ s.tick →
        ∃ u y, exec (.waitReregister t) s = .next u ∧ u.threads[t] = { s.threads[t] with wait := .conj ref v true tag s.tick } ∧
          otherThreads s u t ∧ handedOn u y ∧ y.type = 7 ∧ y.tag = tag ∧ y.addr = ref ∧ y.srcPart = p ∧
          y.dest = BitVec.ofNat 12 (gaDev ref.toNat) ∧ y.aux = BitVec.ofNat 192 (v.toNat + 2 ^ 32 * t.val)))

/-! The block as a whole. -/

open Sys2Proof Sys2Proof.Machine Sys2Proof.Claims in
/-- A step takes the command at the front of the queue and runs it on the state with the queue's rest; on an empty queue the
block idles (the model's choice, notes/assumptions/1.md). -/
def Obligations.AStepRunsTheFrontCommand : Prop :=
  ∀ (s : State) (c : Instr) (l : List Instr),
    (s.pending = c :: l → step s = exec c { s with pending := l }) ∧ (s.pending = [] → step s = .next s)

open Sys2Proof Sys2Proof.Machine Sys2Proof.Claims in
/-- R143, R144, R49: reset leaves Cold, before tick 0 and with the tick oscillator not locked; every object at its default in both sets,
POWER_SOURCE at that of the build; an empty ledger, event log and memory; SPARE_LINE 16; and nothing queued, running or
enabled. -/
def Obligations.ResetLeavesColdWithDefaults : Prop :=
  let r := State.reset
  r.mood = .cold ∧ r.tick = 0 ∧ r.aon.lock = 1 ∧ r.aon.mood.trans = none ∧ r.aon.railEn = 0 ∧
    (∀ k, r.act k = objDflt k ∧ r.shd k = objDflt k) ∧ (∀ k, r.dact k = domDflt k ∧ r.dshd k = domDflt k) ∧
    r.act (key 0x2420 12) = 0 ∧ r.sgl K.t1sNodeId = 1 ∧
    r.ledger = Ledger.reset ∧ r.ledger.pool = 0 ∧ r.aon.log.recs = [] ∧ r.store.mem = [] ∧ r.pho.spareLine = 16 ∧
    (∀ c : CoreId, r.cores[c].queue = [] ∧ r.cores[c].active = none) ∧ (∀ t : ThreadId, r.threads[t].run = 0) ∧
    (∀ p : PartId, r.parts[p].state = 0 ∧ r.enabled p.val = false) ∧ (∀ q : PortId, r.ports[q].state = 0) ∧ r.pending = []

open Sys2Proof Sys2Proof.Machine Sys2Proof.Claims in
/-- The promises of Safety hold at reset. -/
def Obligations.ThePromisesHoldAtReset : Prop := Safety.sound State.reset

open Sys2Proof Sys2Proof.Machine Sys2Proof.Claims in
/-- Whatever the state, every command ends in a next state, whose queue is the one it began with: no command of the table is
refused or stops the machine. -/
def Obligations.EveryCommandCompletesAndLeavesTheQueue : Prop :=
  ∀ (s : State) (c : Instr), ∃ t, exec c s = .next t ∧ t.pending = s.pending

open Sys2Proof Sys2Proof.Machine Sys2Proof.Claims in
/-- Every step keeps the promises: the relations of R147, the canonical form of the store and of every private memory, and
that of both configuration sets, of the other objects and of the conjunction counters.
R147, R149: the relations of the ledger hold after every step from a state in which they hold: what was deposited is in the pool, in
a sub-ledger or spent, and the totals are the sums of the sub-ledgers. -/
def Obligations.EveryStepKeepsThePromisesAndTheLedgerBalances : Prop :=
  (
  ∀ (s t : State), Safety.sound s → step s = .next t → Safety.sound t) ∧
  (
  ∀ (s t : State), Safety.sound s → step s = .next t →
    let l := t.ledger
    let total (f : Sub → Int) : Int := ((List.finRange 16).map (fun p : PartId => f l.subs[p])).sum
    l.deposits = l.pool + l.poolSpent + total (fun b => b.balance + b.reserved + b.spent) ∧
      l.totalReserved = total Sub.reserved ∧ l.totalSpent = l.poolSpent + total Sub.spent)

open Sys2Proof Sys2Proof.Machine Sys2Proof.Claims in
/-- R300, R301, Tables 8-11 to 8-13: a word decodes to an instruction exactly when it is that instruction's word: every field comes
back at every value, and a word with a reserved major, function, condition or field decodes to none. -/
def Obligations.ControlWordsDecodeToExactlyTheirInstruction : Prop :=
  ∀ (w : W32) (o : CtlOp), decodeCtl w = some o ↔ o.wf = true ∧ encodeCtl o = w

open Sys2Proof Sys2Proof.Machine Sys2Proof.Claims in
/-- R68, R70, Table 3-4: a PDU is read back as it was written, whatever follows its CHECK; one that is cut short, or whose CHECK does not
match, is discarded. -/
def Obligations.PdusAreReadAsTheyWereWritten : Prop :=
  ∀ (op txn status : Byte) (o : ObjRef) (data pad : List Byte), data.length < 256 →
    let b := pduBytes op.toNat txn.toNat status.toNat o data
    parsePdu (b ++ pad) = some { proto := 0x10, op := op.toNat, txn := txn, status := status.toNat, obj := o, data := data,
                                 check := crc16 (b.take (8 + data.length)) } ∧
    (∀ n, n < 10 + data.length → parsePdu (b.take n) = none) ∧
    ∀ c d : Byte, leBytes 2 (crc16 (b.take (8 + data.length))).toNat ≠ [c, d] →
      parsePdu (b.take (8 + data.length) ++ [c, d]) = none

open Sys2Proof Sys2Proof.Machine in
/-- R198 to R201, R217, R227, R617, Tables 6-3 and 6-6: a command's requests to the store take their credits and give every one of them
back, a commit with no general credit the write-back one; and among the requests at a bank or deep channel an overdue
background request goes in its slot, an aged one at every second grant, oldest first, and else write-back goes before
fabric ejection, that before the other classes, and background last. That requests are issued and completed within the
command is the model's choice (notes/assumptions/53.md). -/
def Obligations.CreditsReturnAndBanksGrantInOrder : Prop :=
  (
  ∀ (t : Traffic) (overdue : List BgUnit) (a : Asker) (l : List Nat),
    let full (u : Traffic) : Prop := u.queue = [] ∧ u.back = [] ∧
      ∀ g c h, g < 8 → c < 7 → h < holdersOf c → u.credits g c h = slotsPer c
    let known : Prop := match a with
      | .chain c | .commit c => c < 64
      | .control k => k < 16
      | _ => True
    SMap.wf creditDflt t.free = true → known → (∀ u, u ∈ l → u < 80) → full t →
      full (t.serve overdue a l) ∧ (t.serve overdue a l).broken = []) ∧
  (
  ∀ (t : Traffic) (overdue : List BgUnit) (u : Nat),
    let here (r : StoreReq) : Prop := r ∈ t.queue ∧ r.unit = u
    let aged (r : StoreReq) : Prop := here r ∧ r.cls ≠ 6 ∧ r.since + 256 ≤ t.cycle
    let turn : Prop := t.bgTurn overdue u = true ∧ ∃ r, here r ∧ r.cls = 6
    ((∃ r, here r) → ∃ r, t.pick overdue u = some r ∧ here r) ∧
    (∀ r, t.pick overdue u = some r →
      (turn → r.cls = 6) ∧
      (¬ turn → u ∉ t.aged → (∃ x, aged x) → aged r ∧
        ∃ front back, t.queue = front ++ r :: back ∧ ∀ x, x ∈ front → ¬ aged x) ∧
      (¬ turn → (u ∈ t.aged ∨ ¬ ∃ x, aged x) →
        ((∃ x, here x ∧ x.cls = 1) → r.cls = 1) ∧
        (¬ (∃ x, here x ∧ x.cls = 1) → (∃ x, here x ∧ x.cls = 4) → r.cls = 4) ∧
        (r.cls = 6 → ∀ x, here x → x.cls = 6))))
end

