-- ==== Sys2Proof/Machine/Bar0.lean ====
section
/-!
DEFINITION. The BAR0 map of the host link (R319 to R321, R64, Table 9-1) as one space of bytes: what a read of it returns,
and which command each write to it is. The commands have rows of their own; a read changes nothing, and has none.
-/
namespace Sys2Proof.Machine

/-- Ring status of a partition, word `k` (Table 9-1). -/
def State.ringStatus (s : State) (p : PartId) (k : Nat) : W32 :=
  match k with
  | 0 => s.rings[tid (64 + p.val)].retire
  | 1 => s.rings[tid (64 + p.val)].tail
  | 2 => s.parts[p].produced
  | _ => s.parts[p].consumed

/-- MBOX_CTRL as it reads (Table 3-3). -/
def Mbox.ctrl (m : Mbox) : Nat := 2 * b2n m.busy + 2 ^ 8 * b2n m.rspReady + 2 ^ 9 * b2n m.ntfReady

/-- The 32-bit word at offset 4 `w` of BAR0; reserved offsets read as zero (R319). -/
def State.bar0Word (s : State) (w : Nat) : Nat :=
  let four (l : List Byte) (i : Nat) : Nat := ofLe ((l.drop (4 * i)).take 4)
  if w < 0x60 then (s.link.doorbells[(Fin.ofNat 96 w : Fin 96)]).toNat
  else if 0x400 ≤ w ∧ w < 0x440 then (s.ringStatus (pid ((w - 0x400) / 4)) (w % 4)).toNat
  else if 0x440 ≤ w ∧ w < 0x4C0 then
    let r := s.rings[tid ((w - 0x440) / 2)]
    (if w % 2 = 0 then r.retire else r.tail).toNat
  else if 0x1000 ≤ w ∧ w < 0x1100 then
    bits (s.link.msixTable[(Fin.ofNat 64 (w / 4) : Fin 64)]).toNat (32 * (w % 4) + 31) (32 * (w % 4))
  else if w = 0x1100 ∨ w = 0x1101 then bits s.link.msixPba.toNat (32 * (w % 2) + 31) (32 * (w % 2))
  else if 0x2000 ≤ w ∧ w < 0x2040 then four s.link.mbox.req (w - 0x2000)
  else if 0x2040 ≤ w ∧ w < 0x2080 then four s.link.mbox.rsp (w - 0x2040)
  else if 0x2080 ≤ w ∧ w < 0x20C0 then four s.link.mbox.ntf (w - 0x2080)
  else if w = 0x20C0 then s.link.mbox.ctrl
  else 0

/-- What a read of `n` bytes of BAR0 from `off` returns, while the host link is up (R104). -/
def State.bar0Read (s : State) (off n : Nat) : List Byte :=
  (List.range n).map (fun i => BitVec.ofNat 8 (s.bar0Word ((off + i) / 4) / 2 ^ (8 * ((off + i) % 4))))

/-- A write to the MSI-X table (PRESUMED from PCI Express, notes/assumptions/58.md): a pending message goes once its vector
is no longer masked. -/
def State.writeMsix (s : State) (off : Nat) (data : List Byte) : State :=
  let i : Fin 64 := Fin.ofNat 64 (off / 16)
  let old := leBytes 16 (s.link.msixTable[i]).toNat
  let s1 := s.onLink (fun l => { l with msixTable := vset l.msixTable i (BitVec.ofNat 128 (ofLe (patch old (off % 16) data))) })
  if s1.link.msixPba.getLsbD i.val && !(s1.link.msixTable[i]).getLsbD 96 then
    (s1.onLink (fun l => { l with msixPba := l.msixPba &&& ~~~(BitVec.ofNat 64 (2 ^ i.val)) })).msix i.val
  else s1

/-- A write of BAR0 that lies in one register: a doorbell (R320), an entry of the MSI-X table, the request buffer (R67), or
MBOX_CTRL (R64). Other offsets discard it (R319). -/
def State.bar0Write (s : State) (off : Nat) (data : List Byte) : State :=
  if s.hostUp = false then s
  else if off < 0x180 then
    (if data.length = 4 ∧ off % 4 = 0 then s.ringBell (Fin.ofNat 96 (off / 4)) (BitVec.ofNat 32 (ofLe data))
     else s.discardDoorbell (Fin.ofNat 96 (off / 4)) (ofLe data))
  else if 0x4000 ≤ off ∧ off < 0x4400 then s.writeMsix (off - 0x4000) data
  else if 0x8000 ≤ off ∧ off < 0x8100 then s.onMbox (fun m => { m with req := patch m.req (off - 0x8000) data })
  else if off = 0x8300 then
    let v := ofLe data
    let s1 := if bit v 8 then s.applyRspClear else s
    let s2 := if bit v 9 then s1.applyNtfClear else s1
    if bit v 0 then s2.applyReqGo [] else s2
  else s

end Sys2Proof.Machine
end

