-- ==== Sys2Proof/Laws/Bytes.lean ====
section
/-!
SUPPORT. Little-endian bytes (R10), and the commands of the host link as writes of the BAR0 map (Table 9-1).
-/
namespace Sys2Proof.Machine

@[simp] theorem leBytes_length (n v : Nat) : (leBytes n v).length = n := by
  induction n generalizing v with
  | zero => rfl
  | succ n ih => simp [leBytes, ih]

theorem ofLe_leBytes (n v : Nat) : ofLe (leBytes n v) = v % 256 ^ n := by
  induction n generalizing v with
  | zero => simp [leBytes, ofLe, Nat.mod_one]
  | succ n ih =>
    rw [leBytes, ofLe, ih, BitVec.toNat_ofNat]
    rw [show 256 ^ (n + 1) = 256 * 256 ^ n from Nat.pow_succ', Nat.mod_mul]

/-- The doorbell commands are the 4-byte writes of their offsets (Table 9-1). -/
theorem bar0Write_doorbell (s : State) (r : Fin 96) (v : W32) (h : s.hostUp = true) :
    s.bar0Write (4 * r.val) (leBytes 4 v.toNat) = s.ringBell r v := by
  have hr : 4 * r.val < 0x180 := by omega
  have hv : BitVec.ofNat 32 (v.toNat % 256 ^ 4) = v := by
    have := v.isLt
    apply BitVec.eq_of_toNat_eq; simp [BitVec.toNat_ofNat]; omega
  have hi : (Fin.ofNat 96 (4 * r.val / 4) : Fin 96) = r := by
    apply Fin.ext; simp [Nat.mod_eq_of_lt r.isLt]
  simp only [State.bar0Write, h, hr, leBytes_length, ofLe_leBytes, hv, hi]
  simp

end Sys2Proof.Machine
end

