-- ==== Sys2Proof/Laws/Maps.lean ====
section
/-!
SUPPORT. Sparse maps: what reading after a write gives, and that every operation keeps the canonical form.
-/
namespace Sys2Proof.Machine

variable {α : Type}

/-- Below the first key nothing is listed. -/
theorem SMap.find_lt [DecidableEq α] {d : Nat → α} {b : Nat} {m : SMap α} (h : SMap.wfFrom d b m = true) {k : Nat}
    (hk : k < b) : SMap.find m k = none := by
  cases m with
  | nil => rfl
  | cons e m =>
    obtain ⟨j, v⟩ := e
    simp only [SMap.wfFrom, Bool.and_eq_true, decide_eq_true_eq] at h
    have h1 : j ≠ k := by omega
    have h2 : k < j := by omega
    simp [SMap.find, h1, h2]

/-- A canonical list stays canonical for a lower bound. -/
theorem SMap.wfFrom_mono [DecidableEq α] {d : Nat → α} {b c : Nat} {m : SMap α} (h : SMap.wfFrom d b m = true)
    (hc : c ≤ b) : SMap.wfFrom d c m = true := by
  cases m with
  | nil => rfl
  | cons e m =>
    obtain ⟨j, v⟩ := e
    simp only [SMap.wfFrom, Bool.and_eq_true, decide_eq_true_eq] at h ⊢
    exact ⟨⟨by omega, h.1.2⟩, h.2⟩

theorem SMap.del_wfFrom [DecidableEq α] {d : Nat → α} {m : SMap α} :
    ∀ {b : Nat} (k : Nat), SMap.wfFrom d b m = true → SMap.wfFrom d b (SMap.del m k) = true := by
  induction m with
  | nil => intro b k h; rfl
  | cons e m ih =>
    obtain ⟨j, v⟩ := e
    intro b k h
    have h' := h
    simp only [SMap.wfFrom, Bool.and_eq_true, decide_eq_true_eq] at h
    simp only [SMap.del]
    split
    · exact SMap.wfFrom_mono h.2 (by omega)
    · split
      · exact h'
      · simp only [SMap.wfFrom, Bool.and_eq_true, decide_eq_true_eq]
        exact ⟨h.1, ih k h.2⟩

theorem SMap.put_wfFrom [DecidableEq α] {d : Nat → α} {m : SMap α} :
    ∀ {b : Nat} (k : Nat) (v : α), b ≤ k → v ≠ d k → SMap.wfFrom d b m = true →
      SMap.wfFrom d b (SMap.put m k v) = true := by
  induction m with
  | nil => intro b k v hk hv h; simp [SMap.put, SMap.wfFrom, hk, hv]
  | cons e m ih =>
    obtain ⟨j, w⟩ := e
    intro b k v hk hv h
    have h' := h
    simp only [SMap.wfFrom, Bool.and_eq_true, decide_eq_true_eq] at h
    simp only [SMap.put]
    split
    · next e => subst e; simp only [SMap.wfFrom, Bool.and_eq_true, decide_eq_true_eq]; exact ⟨⟨hk, hv⟩, h.2⟩
    · split
      · simp only [SMap.wfFrom, Bool.and_eq_true, decide_eq_true_eq]
        exact ⟨⟨hk, hv⟩, ⟨by omega, h.1.2⟩, h.2⟩
      · simp only [SMap.wfFrom, Bool.and_eq_true, decide_eq_true_eq]
        exact ⟨h.1, ih k v (by omega) hv h.2⟩

/-- Writing keeps the canonical form. -/
theorem SMap.set_wf [DecidableEq α] {d : Nat → α} {m : SMap α} (k : Nat) (v : α) (h : SMap.wf d m = true) :
    SMap.wf d (SMap.set d m k v) = true := by
  unfold SMap.wf SMap.set at *
  split
  · exact SMap.del_wfFrom k h
  · next hv => exact SMap.put_wfFrom k v (Nat.zero_le _) hv h

theorem SMap.filter_wfFrom [DecidableEq α] {d : Nat → α} (f : Nat × α → Bool) {m : SMap α} :
    ∀ {b : Nat}, SMap.wfFrom d b m = true → SMap.wfFrom d b (m.filter f) = true := by
  induction m with
  | nil => intro b h; rfl
  | cons e m ih =>
    obtain ⟨j, v⟩ := e
    intro b h
    simp only [SMap.wfFrom, Bool.and_eq_true, decide_eq_true_eq] at h
    simp only [List.filter_cons]
    split
    · simp only [SMap.wfFrom, Bool.and_eq_true, decide_eq_true_eq]; exact ⟨h.1, ih h.2⟩
    · exact SMap.wfFrom_mono (ih h.2) (by omega)

/-- Dropping a range keeps the canonical form. -/
theorem SMap.clear_wf [DecidableEq α] {d : Nat → α} {m : SMap α} (lo hi : Nat) (h : SMap.wf d m = true) :
    SMap.wf d (SMap.clear m lo hi) = true := SMap.filter_wfFrom _ h

/-- Every listed value differs from what an unlisted key reads as. -/
theorem SMap.mem_ne [DecidableEq α] {d : Nat → α} {m : SMap α} :
    ∀ {b : Nat}, SMap.wfFrom d b m = true → ∀ e ∈ m, e.2 ≠ d e.1 := by
  induction m with
  | nil => intro b h e he; cases he
  | cons x m ih =>
    obtain ⟨j, v⟩ := x
    intro b h e he
    simp only [SMap.wfFrom, Bool.and_eq_true, decide_eq_true_eq] at h
    rcases List.mem_cons.1 he with rfl | he
    · exact h.1.2
    · exact ih h.2 e he

theorem SMap.find_put_self (m : SMap α) (k : Nat) (v : α) : SMap.find (SMap.put m k v) k = some v := by
  induction m with
  | nil => simp [SMap.put, SMap.find]
  | cons e m ih =>
    obtain ⟨j, w⟩ := e
    simp only [SMap.put]
    split
    · simp [SMap.find]
    · split
      · simp [SMap.find]
      · next h1 h2 => simp [SMap.find, h1, h2, ih]

theorem SMap.find_put_ne [DecidableEq α] {d : Nat → α} {m : SMap α} :
    ∀ {b : Nat} (k i : Nat) (v : α), SMap.wfFrom d b m = true → i ≠ k → SMap.find (SMap.put m k v) i = SMap.find m i := by
  induction m with
  | nil => intro b k i v _ h; simp [SMap.put, SMap.find, Ne.symm h]
  | cons e m ih =>
    obtain ⟨j, w⟩ := e
    intro b k i v hw h
    simp only [SMap.wfFrom, Bool.and_eq_true, decide_eq_true_eq] at hw
    simp only [SMap.put]
    split
    · next e => subst e; simp [SMap.find, Ne.symm h]
    · split
      · next h1 h2 =>
        simp only [SMap.find, Ne.symm h, if_false]
        split
        · next h3 =>
          have e1 : j ≠ i := by omega
          have e2 : i < j := by omega
          simp [e1, e2]
        · rfl
      · simp only [SMap.find, ih k i v hw.2 h]

theorem SMap.find_del_self [DecidableEq α] {d : Nat → α} {m : SMap α} :
    ∀ {b : Nat} (k : Nat), SMap.wfFrom d b m = true → SMap.find (SMap.del m k) k = none := by
  induction m with
  | nil => intro b k _; rfl
  | cons e m ih =>
    obtain ⟨j, w⟩ := e
    intro b k hw
    simp only [SMap.wfFrom, Bool.and_eq_true, decide_eq_true_eq] at hw
    simp only [SMap.del]
    split
    · next e => subst e; exact SMap.find_lt hw.2 (by omega)
    · next h1 =>
      split
      · next h2 => simp [SMap.find, h1, h2]
      · next h2 => simp [SMap.find, h1, h2, ih k hw.2]

theorem SMap.find_del_ne [DecidableEq α] {d : Nat → α} {m : SMap α} :
    ∀ {b : Nat} (k i : Nat), SMap.wfFrom d b m = true → i ≠ k → SMap.find (SMap.del m k) i = SMap.find m i := by
  induction m with
  | nil => intro b k i _ _; rfl
  | cons e m ih =>
    obtain ⟨j, w⟩ := e
    intro b k i hw h
    simp only [SMap.wfFrom, Bool.and_eq_true, decide_eq_true_eq] at hw
    simp only [SMap.del]
    split
    · next e =>
      subst e
      simp only [SMap.find, Ne.symm h, if_false]
      split
      · next h3 => exact SMap.find_lt hw.2 (by omega)
      · rfl
    · split
      · rfl
      · simp only [SMap.find, ih k i hw.2 h]

/-- A key reads as what was written to it. -/
theorem SMap.get_set_self [DecidableEq α] {d : Nat → α} {m : SMap α} (k : Nat) (v : α) (h : SMap.wf d m = true) :
    SMap.get d (SMap.set d m k v) k = v := by
  unfold SMap.get SMap.set
  split
  · next e => rw [SMap.find_del_self k h, e]; rfl
  · rw [SMap.find_put_self]; rfl

/-- Every other key reads as before. -/
theorem SMap.get_set_ne [DecidableEq α] {d : Nat → α} {m : SMap α} (k i : Nat) (v : α) (h : SMap.wf d m = true)
    (hi : i ≠ k) : SMap.get d (SMap.set d m k v) i = SMap.get d m i := by
  unfold SMap.get SMap.set
  split
  · rw [SMap.find_del_ne k i h hi]
  · rw [SMap.find_put_ne k i v h hi]

theorem SMap.get_set [DecidableEq α] {d : Nat → α} {m : SMap α} (k i : Nat) (v : α) (h : SMap.wf d m = true) :
    SMap.get d (SMap.set d m k v) i = if i = k then v else SMap.get d m i := by
  split
  · next e => subst e; exact SMap.get_set_self _ v h
  · next e => exact SMap.get_set_ne k i v h e

/-! Byte memory. -/

theorem Memory.write_wf {m : Memory} (a : Nat) (v : Byte) (h : m.wf = true) : (m.write a v).wf = true := SMap.set_wf a v h

theorem Memory.writeN_wf (bs : List Byte) : ∀ {m : Memory} (a : Nat), m.wf = true → (m.writeN a bs).wf = true := by
  induction bs with
  | nil => intro m a h; exact h
  | cons b bs ih => intro m a h; exact ih _ (Memory.write_wf a b h)

theorem Memory.read_write {m : Memory} (a i : Nat) (v : Byte) (h : m.wf = true) :
    (m.write a v).read i = if i = a then v else m.read i := SMap.get_set a i v h

/-- A byte outside the bytes written reads as before. -/
theorem Memory.read_writeN_outside (bs : List Byte) : ∀ {m : Memory} (a i : Nat), m.wf = true →
    (i < a ∨ a + bs.length ≤ i) → (m.writeN a bs).read i = m.read i := by
  induction bs with
  | nil => intro m a i _ _; rfl
  | cons b bs ih =>
    intro m a i h hi
    simp only [List.length_cons] at hi
    rw [Memory.writeN, ih (a + 1) i (Memory.write_wf a b h) (by omega), Memory.read_write a i b h, if_neg (by omega)]

/-- A byte inside reads as the byte written. -/
theorem Memory.read_writeN_inside (bs : List Byte) : ∀ {m : Memory} (a k : Nat), m.wf = true → (hk : k < bs.length) →
    (m.writeN a bs).read (a + k) = bs[k] := by
  induction bs with
  | nil => intro m a k _ hk; simp at hk
  | cons b bs ih =>
    intro m a k h hk
    cases k with
    | zero =>
      rw [Memory.writeN, Memory.read_writeN_outside bs (a + 1) (a + 0) (Memory.write_wf a b h) (by omega),
        Memory.read_write a (a + 0) b h]
      simp
    | succ k =>
      have := ih (m := m.write a b) (a + 1) k (Memory.write_wf a b h) (by simpa using hk)
      simpa [Memory.writeN, Nat.add_assoc, Nat.add_comm 1 k] using this

/-- Reading back what was written. -/
theorem Memory.readN_writeN (bs : List Byte) : ∀ {m : Memory} (a : Nat), m.wf = true → (m.writeN a bs).readN a bs.length = bs := by
  induction bs with
  | nil => intro m a _; rfl
  | cons b bs ih =>
    intro m a h
    have h0 : (m.writeN a (b :: bs)).read a = b := by
      have := Memory.read_writeN_inside (b :: bs) a 0 h (by simp)
      simpa using this
    simp only [List.length_cons, Memory.readN, h0, List.cons.injEq, true_and]
    exact ih (a + 1) (Memory.write_wf a b h)

end Sys2Proof.Machine
end

