-- ==== Sys2Proof/Laws/State.lean ====
section
/-!
SUPPORT. One lemma per field of State and update of one unit, and the reads of a vector after an update of one element, so
that no proof unfolds a record update.
-/
namespace Sys2Proof.Machine

/-! One element of a vector. -/

/-- A vector after element `i` is set. -/
theorem vset_get {α : Type} {n : Nat} (v : Vector α n) (i j : Fin n) (x : α) :
    (vset v i x)[j] = if i = j then x else v[j] := by
  simp only [vset, Fin.getElem_fin, Vector.getElem_set]
  simp only [Fin.val_inj]

@[simp] theorem vset_get_self {α : Type} {n : Nat} (v : Vector α n) (i : Fin n) (x : α) :
    (vset v i x)[i.val] = x := (vset_get v i i x).trans (if_pos rfl)

@[simp] theorem vset_get_ne {α : Type} {n : Nat} (v : Vector α n) (i j : Fin n) (x : α) (h : i ≠ j) :
    (vset v i x)[j.val] = v[j.val] := (vset_get v i j x).trans (if_neg h)

/-- A vector after element `i` is changed. -/
theorem vmod_get {α : Type} {n : Nat} (v : Vector α n) (i j : Fin n) (f : α → α) :
    (vmod v i f)[j] = if i = j then f v[j] else v[j] := by
  rw [vmod, vset_get]
  split
  · next h => rw [h]
  · rfl

@[simp] theorem vmod_get_self {α : Type} {n : Nat} (v : Vector α n) (i : Fin n) (f : α → α) :
    (vmod v i f)[i.val] = f v[i.val] := (vmod_get v i i f).trans (if_pos rfl)

@[simp] theorem vmod_get_ne {α : Type} {n : Nat} (v : Vector α n) (i j : Fin n) (f : α → α) (h : i ≠ j) :
    (vmod v i f)[j.val] = v[j.val] := (vmod_get v i j f).trans (if_neg h)

/-! onAon. -/

@[simp] theorem State.onAon_aon (s : State) (f : Aon → Aon) : (s.onAon f).aon = f s.aon := rfl
@[simp] theorem State.onAon_dict (s : State) (f : Aon → Aon) : (s.onAon f).dict = s.dict := rfl
@[simp] theorem State.onAon_ledger (s : State) (f : Aon → Aon) : (s.onAon f).ledger = s.ledger := rfl
@[simp] theorem State.onAon_link (s : State) (f : Aon → Aon) : (s.onAon f).link = s.link := rfl
@[simp] theorem State.onAon_store (s : State) (f : Aon → Aon) : (s.onAon f).store = s.store := rfl
@[simp] theorem State.onAon_parts (s : State) (f : Aon → Aon) : (s.onAon f).parts = s.parts := rfl
@[simp] theorem State.onAon_rings (s : State) (f : Aon → Aon) : (s.onAon f).rings = s.rings := rfl
@[simp] theorem State.onAon_threads (s : State) (f : Aon → Aon) : (s.onAon f).threads = s.threads := rfl
@[simp] theorem State.onAon_cores (s : State) (f : Aon → Aon) : (s.onAon f).cores = s.cores := rfl
@[simp] theorem State.onAon_tap (s : State) (f : Aon → Aon) : (s.onAon f).tap = s.tap := rfl
@[simp] theorem State.onAon_ports (s : State) (f : Aon → Aon) : (s.onAon f).ports = s.ports := rfl
@[simp] theorem State.onAon_pho (s : State) (f : Aon → Aon) : (s.onAon f).pho = s.pho := rfl
@[simp] theorem State.onAon_fab (s : State) (f : Aon → Aon) : (s.onAon f).fab = s.fab := rfl
@[simp] theorem State.onAon_mesh (s : State) (f : Aon → Aon) : (s.onAon f).mesh = s.mesh := rfl
@[simp] theorem State.onAon_freeCtr (s : State) (f : Aon → Aon) : (s.onAon f).freeCtr = s.freeCtr := rfl
@[simp] theorem State.onAon_pending (s : State) (f : Aon → Aon) : (s.onAon f).pending = s.pending := rfl

/-! onDict. -/

@[simp] theorem State.onDict_aon (s : State) (f : Dict → Dict) : (s.onDict f).aon = s.aon := rfl
@[simp] theorem State.onDict_dict (s : State) (f : Dict → Dict) : (s.onDict f).dict = f s.dict := rfl
@[simp] theorem State.onDict_ledger (s : State) (f : Dict → Dict) : (s.onDict f).ledger = s.ledger := rfl
@[simp] theorem State.onDict_link (s : State) (f : Dict → Dict) : (s.onDict f).link = s.link := rfl
@[simp] theorem State.onDict_store (s : State) (f : Dict → Dict) : (s.onDict f).store = s.store := rfl
@[simp] theorem State.onDict_parts (s : State) (f : Dict → Dict) : (s.onDict f).parts = s.parts := rfl
@[simp] theorem State.onDict_rings (s : State) (f : Dict → Dict) : (s.onDict f).rings = s.rings := rfl
@[simp] theorem State.onDict_threads (s : State) (f : Dict → Dict) : (s.onDict f).threads = s.threads := rfl
@[simp] theorem State.onDict_cores (s : State) (f : Dict → Dict) : (s.onDict f).cores = s.cores := rfl
@[simp] theorem State.onDict_tap (s : State) (f : Dict → Dict) : (s.onDict f).tap = s.tap := rfl
@[simp] theorem State.onDict_ports (s : State) (f : Dict → Dict) : (s.onDict f).ports = s.ports := rfl
@[simp] theorem State.onDict_pho (s : State) (f : Dict → Dict) : (s.onDict f).pho = s.pho := rfl
@[simp] theorem State.onDict_fab (s : State) (f : Dict → Dict) : (s.onDict f).fab = s.fab := rfl
@[simp] theorem State.onDict_mesh (s : State) (f : Dict → Dict) : (s.onDict f).mesh = s.mesh := rfl
@[simp] theorem State.onDict_freeCtr (s : State) (f : Dict → Dict) : (s.onDict f).freeCtr = s.freeCtr := rfl
@[simp] theorem State.onDict_pending (s : State) (f : Dict → Dict) : (s.onDict f).pending = s.pending := rfl

/-! onLedger. -/

@[simp] theorem State.onLedger_aon (s : State) (f : Ledger → Ledger) : (s.onLedger f).aon = s.aon := rfl
@[simp] theorem State.onLedger_dict (s : State) (f : Ledger → Ledger) : (s.onLedger f).dict = s.dict := rfl
@[simp] theorem State.onLedger_ledger (s : State) (f : Ledger → Ledger) : (s.onLedger f).ledger = f s.ledger := rfl
@[simp] theorem State.onLedger_link (s : State) (f : Ledger → Ledger) : (s.onLedger f).link = s.link := rfl
@[simp] theorem State.onLedger_store (s : State) (f : Ledger → Ledger) : (s.onLedger f).store = s.store := rfl
@[simp] theorem State.onLedger_parts (s : State) (f : Ledger → Ledger) : (s.onLedger f).parts = s.parts := rfl
@[simp] theorem State.onLedger_rings (s : State) (f : Ledger → Ledger) : (s.onLedger f).rings = s.rings := rfl
@[simp] theorem State.onLedger_threads (s : State) (f : Ledger → Ledger) : (s.onLedger f).threads = s.threads := rfl
@[simp] theorem State.onLedger_cores (s : State) (f : Ledger → Ledger) : (s.onLedger f).cores = s.cores := rfl
@[simp] theorem State.onLedger_tap (s : State) (f : Ledger → Ledger) : (s.onLedger f).tap = s.tap := rfl
@[simp] theorem State.onLedger_ports (s : State) (f : Ledger → Ledger) : (s.onLedger f).ports = s.ports := rfl
@[simp] theorem State.onLedger_pho (s : State) (f : Ledger → Ledger) : (s.onLedger f).pho = s.pho := rfl
@[simp] theorem State.onLedger_fab (s : State) (f : Ledger → Ledger) : (s.onLedger f).fab = s.fab := rfl
@[simp] theorem State.onLedger_mesh (s : State) (f : Ledger → Ledger) : (s.onLedger f).mesh = s.mesh := rfl
@[simp] theorem State.onLedger_freeCtr (s : State) (f : Ledger → Ledger) : (s.onLedger f).freeCtr = s.freeCtr := rfl
@[simp] theorem State.onLedger_pending (s : State) (f : Ledger → Ledger) : (s.onLedger f).pending = s.pending := rfl

/-! onLink. -/

@[simp] theorem State.onLink_aon (s : State) (f : Link → Link) : (s.onLink f).aon = s.aon := rfl
@[simp] theorem State.onLink_dict (s : State) (f : Link → Link) : (s.onLink f).dict = s.dict := rfl
@[simp] theorem State.onLink_ledger (s : State) (f : Link → Link) : (s.onLink f).ledger = s.ledger := rfl
@[simp] theorem State.onLink_link (s : State) (f : Link → Link) : (s.onLink f).link = f s.link := rfl
@[simp] theorem State.onLink_store (s : State) (f : Link → Link) : (s.onLink f).store = s.store := rfl
@[simp] theorem State.onLink_parts (s : State) (f : Link → Link) : (s.onLink f).parts = s.parts := rfl
@[simp] theorem State.onLink_rings (s : State) (f : Link → Link) : (s.onLink f).rings = s.rings := rfl
@[simp] theorem State.onLink_threads (s : State) (f : Link → Link) : (s.onLink f).threads = s.threads := rfl
@[simp] theorem State.onLink_cores (s : State) (f : Link → Link) : (s.onLink f).cores = s.cores := rfl
@[simp] theorem State.onLink_tap (s : State) (f : Link → Link) : (s.onLink f).tap = s.tap := rfl
@[simp] theorem State.onLink_ports (s : State) (f : Link → Link) : (s.onLink f).ports = s.ports := rfl
@[simp] theorem State.onLink_pho (s : State) (f : Link → Link) : (s.onLink f).pho = s.pho := rfl
@[simp] theorem State.onLink_fab (s : State) (f : Link → Link) : (s.onLink f).fab = s.fab := rfl
@[simp] theorem State.onLink_mesh (s : State) (f : Link → Link) : (s.onLink f).mesh = s.mesh := rfl
@[simp] theorem State.onLink_freeCtr (s : State) (f : Link → Link) : (s.onLink f).freeCtr = s.freeCtr := rfl
@[simp] theorem State.onLink_pending (s : State) (f : Link → Link) : (s.onLink f).pending = s.pending := rfl

/-! onStore. -/

@[simp] theorem State.onStore_aon (s : State) (f : Store → Store) : (s.onStore f).aon = s.aon := rfl
@[simp] theorem State.onStore_dict (s : State) (f : Store → Store) : (s.onStore f).dict = s.dict := rfl
@[simp] theorem State.onStore_ledger (s : State) (f : Store → Store) : (s.onStore f).ledger = s.ledger := rfl
@[simp] theorem State.onStore_link (s : State) (f : Store → Store) : (s.onStore f).link = s.link := rfl
@[simp] theorem State.onStore_store (s : State) (f : Store → Store) : (s.onStore f).store = f s.store := rfl
@[simp] theorem State.onStore_parts (s : State) (f : Store → Store) : (s.onStore f).parts = s.parts := rfl
@[simp] theorem State.onStore_rings (s : State) (f : Store → Store) : (s.onStore f).rings = s.rings := rfl
@[simp] theorem State.onStore_threads (s : State) (f : Store → Store) : (s.onStore f).threads = s.threads := rfl
@[simp] theorem State.onStore_cores (s : State) (f : Store → Store) : (s.onStore f).cores = s.cores := rfl
@[simp] theorem State.onStore_tap (s : State) (f : Store → Store) : (s.onStore f).tap = s.tap := rfl
@[simp] theorem State.onStore_ports (s : State) (f : Store → Store) : (s.onStore f).ports = s.ports := rfl
@[simp] theorem State.onStore_pho (s : State) (f : Store → Store) : (s.onStore f).pho = s.pho := rfl
@[simp] theorem State.onStore_fab (s : State) (f : Store → Store) : (s.onStore f).fab = s.fab := rfl
@[simp] theorem State.onStore_mesh (s : State) (f : Store → Store) : (s.onStore f).mesh = s.mesh := rfl
@[simp] theorem State.onStore_freeCtr (s : State) (f : Store → Store) : (s.onStore f).freeCtr = s.freeCtr := rfl
@[simp] theorem State.onStore_pending (s : State) (f : Store → Store) : (s.onStore f).pending = s.pending := rfl

/-! onPart. -/

@[simp] theorem State.onPart_aon (s : State) (p : PartId) (f : Part → Part) : (s.onPart p f).aon = s.aon := rfl
@[simp] theorem State.onPart_dict (s : State) (p : PartId) (f : Part → Part) : (s.onPart p f).dict = s.dict := rfl
@[simp] theorem State.onPart_ledger (s : State) (p : PartId) (f : Part → Part) : (s.onPart p f).ledger = s.ledger := rfl
@[simp] theorem State.onPart_link (s : State) (p : PartId) (f : Part → Part) : (s.onPart p f).link = s.link := rfl
@[simp] theorem State.onPart_store (s : State) (p : PartId) (f : Part → Part) : (s.onPart p f).store = s.store := rfl
@[simp] theorem State.onPart_parts (s : State) (p : PartId) (f : Part → Part) : (s.onPart p f).parts = vmod s.parts p f := rfl
@[simp] theorem State.onPart_rings (s : State) (p : PartId) (f : Part → Part) : (s.onPart p f).rings = s.rings := rfl
@[simp] theorem State.onPart_threads (s : State) (p : PartId) (f : Part → Part) : (s.onPart p f).threads = s.threads := rfl
@[simp] theorem State.onPart_cores (s : State) (p : PartId) (f : Part → Part) : (s.onPart p f).cores = s.cores := rfl
@[simp] theorem State.onPart_tap (s : State) (p : PartId) (f : Part → Part) : (s.onPart p f).tap = s.tap := rfl
@[simp] theorem State.onPart_ports (s : State) (p : PartId) (f : Part → Part) : (s.onPart p f).ports = s.ports := rfl
@[simp] theorem State.onPart_pho (s : State) (p : PartId) (f : Part → Part) : (s.onPart p f).pho = s.pho := rfl
@[simp] theorem State.onPart_fab (s : State) (p : PartId) (f : Part → Part) : (s.onPart p f).fab = s.fab := rfl
@[simp] theorem State.onPart_mesh (s : State) (p : PartId) (f : Part → Part) : (s.onPart p f).mesh = s.mesh := rfl
@[simp] theorem State.onPart_freeCtr (s : State) (p : PartId) (f : Part → Part) : (s.onPart p f).freeCtr = s.freeCtr := rfl
@[simp] theorem State.onPart_pending (s : State) (p : PartId) (f : Part → Part) : (s.onPart p f).pending = s.pending := rfl

/-! onRing. -/

@[simp] theorem State.onRing_aon (s : State) (r : Fin 80) (f : RingPos → RingPos) : (s.onRing r f).aon = s.aon := rfl
@[simp] theorem State.onRing_dict (s : State) (r : Fin 80) (f : RingPos → RingPos) : (s.onRing r f).dict = s.dict := rfl
@[simp] theorem State.onRing_ledger (s : State) (r : Fin 80) (f : RingPos → RingPos) : (s.onRing r f).ledger = s.ledger := rfl
@[simp] theorem State.onRing_link (s : State) (r : Fin 80) (f : RingPos → RingPos) : (s.onRing r f).link = s.link := rfl
@[simp] theorem State.onRing_store (s : State) (r : Fin 80) (f : RingPos → RingPos) : (s.onRing r f).store = s.store := rfl
@[simp] theorem State.onRing_parts (s : State) (r : Fin 80) (f : RingPos → RingPos) : (s.onRing r f).parts = s.parts := rfl
@[simp] theorem State.onRing_rings (s : State) (r : Fin 80) (f : RingPos → RingPos) : (s.onRing r f).rings = vmod s.rings r f := rfl
@[simp] theorem State.onRing_threads (s : State) (r : Fin 80) (f : RingPos → RingPos) : (s.onRing r f).threads = s.threads := rfl
@[simp] theorem State.onRing_cores (s : State) (r : Fin 80) (f : RingPos → RingPos) : (s.onRing r f).cores = s.cores := rfl
@[simp] theorem State.onRing_tap (s : State) (r : Fin 80) (f : RingPos → RingPos) : (s.onRing r f).tap = s.tap := rfl
@[simp] theorem State.onRing_ports (s : State) (r : Fin 80) (f : RingPos → RingPos) : (s.onRing r f).ports = s.ports := rfl
@[simp] theorem State.onRing_pho (s : State) (r : Fin 80) (f : RingPos → RingPos) : (s.onRing r f).pho = s.pho := rfl
@[simp] theorem State.onRing_fab (s : State) (r : Fin 80) (f : RingPos → RingPos) : (s.onRing r f).fab = s.fab := rfl
@[simp] theorem State.onRing_mesh (s : State) (r : Fin 80) (f : RingPos → RingPos) : (s.onRing r f).mesh = s.mesh := rfl
@[simp] theorem State.onRing_freeCtr (s : State) (r : Fin 80) (f : RingPos → RingPos) : (s.onRing r f).freeCtr = s.freeCtr := rfl
@[simp] theorem State.onRing_pending (s : State) (r : Fin 80) (f : RingPos → RingPos) : (s.onRing r f).pending = s.pending := rfl

/-! onThread. -/

@[simp] theorem State.onThread_aon (s : State) (t : ThreadId) (f : Thread → Thread) : (s.onThread t f).aon = s.aon := rfl
@[simp] theorem State.onThread_dict (s : State) (t : ThreadId) (f : Thread → Thread) : (s.onThread t f).dict = s.dict := rfl
@[simp] theorem State.onThread_ledger (s : State) (t : ThreadId) (f : Thread → Thread) : (s.onThread t f).ledger = s.ledger := rfl
@[simp] theorem State.onThread_link (s : State) (t : ThreadId) (f : Thread → Thread) : (s.onThread t f).link = s.link := rfl
@[simp] theorem State.onThread_store (s : State) (t : ThreadId) (f : Thread → Thread) : (s.onThread t f).store = s.store := rfl
@[simp] theorem State.onThread_parts (s : State) (t : ThreadId) (f : Thread → Thread) : (s.onThread t f).parts = s.parts := rfl
@[simp] theorem State.onThread_rings (s : State) (t : ThreadId) (f : Thread → Thread) : (s.onThread t f).rings = s.rings := rfl
@[simp] theorem State.onThread_threads (s : State) (t : ThreadId) (f : Thread → Thread) : (s.onThread t f).threads = vmod s.threads t f := rfl
@[simp] theorem State.onThread_cores (s : State) (t : ThreadId) (f : Thread → Thread) : (s.onThread t f).cores = s.cores := rfl
@[simp] theorem State.onThread_tap (s : State) (t : ThreadId) (f : Thread → Thread) : (s.onThread t f).tap = s.tap := rfl
@[simp] theorem State.onThread_ports (s : State) (t : ThreadId) (f : Thread → Thread) : (s.onThread t f).ports = s.ports := rfl
@[simp] theorem State.onThread_pho (s : State) (t : ThreadId) (f : Thread → Thread) : (s.onThread t f).pho = s.pho := rfl
@[simp] theorem State.onThread_fab (s : State) (t : ThreadId) (f : Thread → Thread) : (s.onThread t f).fab = s.fab := rfl
@[simp] theorem State.onThread_mesh (s : State) (t : ThreadId) (f : Thread → Thread) : (s.onThread t f).mesh = s.mesh := rfl
@[simp] theorem State.onThread_freeCtr (s : State) (t : ThreadId) (f : Thread → Thread) : (s.onThread t f).freeCtr = s.freeCtr := rfl
@[simp] theorem State.onThread_pending (s : State) (t : ThreadId) (f : Thread → Thread) : (s.onThread t f).pending = s.pending := rfl

/-! onCore. -/

@[simp] theorem State.onCore_aon (s : State) (c : CoreId) (f : CoreSt → CoreSt) : (s.onCore c f).aon = s.aon := rfl
@[simp] theorem State.onCore_dict (s : State) (c : CoreId) (f : CoreSt → CoreSt) : (s.onCore c f).dict = s.dict := rfl
@[simp] theorem State.onCore_ledger (s : State) (c : CoreId) (f : CoreSt → CoreSt) : (s.onCore c f).ledger = s.ledger := rfl
@[simp] theorem State.onCore_link (s : State) (c : CoreId) (f : CoreSt → CoreSt) : (s.onCore c f).link = s.link := rfl
@[simp] theorem State.onCore_store (s : State) (c : CoreId) (f : CoreSt → CoreSt) : (s.onCore c f).store = s.store := rfl
@[simp] theorem State.onCore_parts (s : State) (c : CoreId) (f : CoreSt → CoreSt) : (s.onCore c f).parts = s.parts := rfl
@[simp] theorem State.onCore_rings (s : State) (c : CoreId) (f : CoreSt → CoreSt) : (s.onCore c f).rings = s.rings := rfl
@[simp] theorem State.onCore_threads (s : State) (c : CoreId) (f : CoreSt → CoreSt) : (s.onCore c f).threads = s.threads := rfl
@[simp] theorem State.onCore_cores (s : State) (c : CoreId) (f : CoreSt → CoreSt) : (s.onCore c f).cores = vmod s.cores c f := rfl
@[simp] theorem State.onCore_tap (s : State) (c : CoreId) (f : CoreSt → CoreSt) : (s.onCore c f).tap = s.tap := rfl
@[simp] theorem State.onCore_ports (s : State) (c : CoreId) (f : CoreSt → CoreSt) : (s.onCore c f).ports = s.ports := rfl
@[simp] theorem State.onCore_pho (s : State) (c : CoreId) (f : CoreSt → CoreSt) : (s.onCore c f).pho = s.pho := rfl
@[simp] theorem State.onCore_fab (s : State) (c : CoreId) (f : CoreSt → CoreSt) : (s.onCore c f).fab = s.fab := rfl
@[simp] theorem State.onCore_mesh (s : State) (c : CoreId) (f : CoreSt → CoreSt) : (s.onCore c f).mesh = s.mesh := rfl
@[simp] theorem State.onCore_freeCtr (s : State) (c : CoreId) (f : CoreSt → CoreSt) : (s.onCore c f).freeCtr = s.freeCtr := rfl
@[simp] theorem State.onCore_pending (s : State) (c : CoreId) (f : CoreSt → CoreSt) : (s.onCore c f).pending = s.pending := rfl

/-! onTap. -/

@[simp] theorem State.onTap_aon (s : State) (h : ChanId) (f : TapCh → TapCh) : (s.onTap h f).aon = s.aon := rfl
@[simp] theorem State.onTap_dict (s : State) (h : ChanId) (f : TapCh → TapCh) : (s.onTap h f).dict = s.dict := rfl
@[simp] theorem State.onTap_ledger (s : State) (h : ChanId) (f : TapCh → TapCh) : (s.onTap h f).ledger = s.ledger := rfl
@[simp] theorem State.onTap_link (s : State) (h : ChanId) (f : TapCh → TapCh) : (s.onTap h f).link = s.link := rfl
@[simp] theorem State.onTap_store (s : State) (h : ChanId) (f : TapCh → TapCh) : (s.onTap h f).store = s.store := rfl
@[simp] theorem State.onTap_parts (s : State) (h : ChanId) (f : TapCh → TapCh) : (s.onTap h f).parts = s.parts := rfl
@[simp] theorem State.onTap_rings (s : State) (h : ChanId) (f : TapCh → TapCh) : (s.onTap h f).rings = s.rings := rfl
@[simp] theorem State.onTap_threads (s : State) (h : ChanId) (f : TapCh → TapCh) : (s.onTap h f).threads = s.threads := rfl
@[simp] theorem State.onTap_cores (s : State) (h : ChanId) (f : TapCh → TapCh) : (s.onTap h f).cores = s.cores := rfl
@[simp] theorem State.onTap_tap (s : State) (h : ChanId) (f : TapCh → TapCh) : (s.onTap h f).tap = vmod s.tap h f := rfl
@[simp] theorem State.onTap_ports (s : State) (h : ChanId) (f : TapCh → TapCh) : (s.onTap h f).ports = s.ports := rfl
@[simp] theorem State.onTap_pho (s : State) (h : ChanId) (f : TapCh → TapCh) : (s.onTap h f).pho = s.pho := rfl
@[simp] theorem State.onTap_fab (s : State) (h : ChanId) (f : TapCh → TapCh) : (s.onTap h f).fab = s.fab := rfl
@[simp] theorem State.onTap_mesh (s : State) (h : ChanId) (f : TapCh → TapCh) : (s.onTap h f).mesh = s.mesh := rfl
@[simp] theorem State.onTap_freeCtr (s : State) (h : ChanId) (f : TapCh → TapCh) : (s.onTap h f).freeCtr = s.freeCtr := rfl
@[simp] theorem State.onTap_pending (s : State) (h : ChanId) (f : TapCh → TapCh) : (s.onTap h f).pending = s.pending := rfl

/-! onPort. -/

@[simp] theorem State.onPort_aon (s : State) (q : PortId) (f : Port → Port) : (s.onPort q f).aon = s.aon := rfl
@[simp] theorem State.onPort_dict (s : State) (q : PortId) (f : Port → Port) : (s.onPort q f).dict = s.dict := rfl
@[simp] theorem State.onPort_ledger (s : State) (q : PortId) (f : Port → Port) : (s.onPort q f).ledger = s.ledger := rfl
@[simp] theorem State.onPort_link (s : State) (q : PortId) (f : Port → Port) : (s.onPort q f).link = s.link := rfl
@[simp] theorem State.onPort_store (s : State) (q : PortId) (f : Port → Port) : (s.onPort q f).store = s.store := rfl
@[simp] theorem State.onPort_parts (s : State) (q : PortId) (f : Port → Port) : (s.onPort q f).parts = s.parts := rfl
@[simp] theorem State.onPort_rings (s : State) (q : PortId) (f : Port → Port) : (s.onPort q f).rings = s.rings := rfl
@[simp] theorem State.onPort_threads (s : State) (q : PortId) (f : Port → Port) : (s.onPort q f).threads = s.threads := rfl
@[simp] theorem State.onPort_cores (s : State) (q : PortId) (f : Port → Port) : (s.onPort q f).cores = s.cores := rfl
@[simp] theorem State.onPort_tap (s : State) (q : PortId) (f : Port → Port) : (s.onPort q f).tap = s.tap := rfl
@[simp] theorem State.onPort_ports (s : State) (q : PortId) (f : Port → Port) : (s.onPort q f).ports = vmod s.ports q f := rfl
@[simp] theorem State.onPort_pho (s : State) (q : PortId) (f : Port → Port) : (s.onPort q f).pho = s.pho := rfl
@[simp] theorem State.onPort_fab (s : State) (q : PortId) (f : Port → Port) : (s.onPort q f).fab = s.fab := rfl
@[simp] theorem State.onPort_mesh (s : State) (q : PortId) (f : Port → Port) : (s.onPort q f).mesh = s.mesh := rfl
@[simp] theorem State.onPort_freeCtr (s : State) (q : PortId) (f : Port → Port) : (s.onPort q f).freeCtr = s.freeCtr := rfl
@[simp] theorem State.onPort_pending (s : State) (q : PortId) (f : Port → Port) : (s.onPort q f).pending = s.pending := rfl

/-! onPho. -/

@[simp] theorem State.onPho_aon (s : State) (f : Photonics → Photonics) : (s.onPho f).aon = s.aon := rfl
@[simp] theorem State.onPho_dict (s : State) (f : Photonics → Photonics) : (s.onPho f).dict = s.dict := rfl
@[simp] theorem State.onPho_ledger (s : State) (f : Photonics → Photonics) : (s.onPho f).ledger = s.ledger := rfl
@[simp] theorem State.onPho_link (s : State) (f : Photonics → Photonics) : (s.onPho f).link = s.link := rfl
@[simp] theorem State.onPho_store (s : State) (f : Photonics → Photonics) : (s.onPho f).store = s.store := rfl
@[simp] theorem State.onPho_parts (s : State) (f : Photonics → Photonics) : (s.onPho f).parts = s.parts := rfl
@[simp] theorem State.onPho_rings (s : State) (f : Photonics → Photonics) : (s.onPho f).rings = s.rings := rfl
@[simp] theorem State.onPho_threads (s : State) (f : Photonics → Photonics) : (s.onPho f).threads = s.threads := rfl
@[simp] theorem State.onPho_cores (s : State) (f : Photonics → Photonics) : (s.onPho f).cores = s.cores := rfl
@[simp] theorem State.onPho_tap (s : State) (f : Photonics → Photonics) : (s.onPho f).tap = s.tap := rfl
@[simp] theorem State.onPho_ports (s : State) (f : Photonics → Photonics) : (s.onPho f).ports = s.ports := rfl
@[simp] theorem State.onPho_pho (s : State) (f : Photonics → Photonics) : (s.onPho f).pho = f s.pho := rfl
@[simp] theorem State.onPho_fab (s : State) (f : Photonics → Photonics) : (s.onPho f).fab = s.fab := rfl
@[simp] theorem State.onPho_mesh (s : State) (f : Photonics → Photonics) : (s.onPho f).mesh = s.mesh := rfl
@[simp] theorem State.onPho_freeCtr (s : State) (f : Photonics → Photonics) : (s.onPho f).freeCtr = s.freeCtr := rfl
@[simp] theorem State.onPho_pending (s : State) (f : Photonics → Photonics) : (s.onPho f).pending = s.pending := rfl

/-! onFab. -/

@[simp] theorem State.onFab_aon (s : State) (f : Fabric → Fabric) : (s.onFab f).aon = s.aon := rfl
@[simp] theorem State.onFab_dict (s : State) (f : Fabric → Fabric) : (s.onFab f).dict = s.dict := rfl
@[simp] theorem State.onFab_ledger (s : State) (f : Fabric → Fabric) : (s.onFab f).ledger = s.ledger := rfl
@[simp] theorem State.onFab_link (s : State) (f : Fabric → Fabric) : (s.onFab f).link = s.link := rfl
@[simp] theorem State.onFab_store (s : State) (f : Fabric → Fabric) : (s.onFab f).store = s.store := rfl
@[simp] theorem State.onFab_parts (s : State) (f : Fabric → Fabric) : (s.onFab f).parts = s.parts := rfl
@[simp] theorem State.onFab_rings (s : State) (f : Fabric → Fabric) : (s.onFab f).rings = s.rings := rfl
@[simp] theorem State.onFab_threads (s : State) (f : Fabric → Fabric) : (s.onFab f).threads = s.threads := rfl
@[simp] theorem State.onFab_cores (s : State) (f : Fabric → Fabric) : (s.onFab f).cores = s.cores := rfl
@[simp] theorem State.onFab_tap (s : State) (f : Fabric → Fabric) : (s.onFab f).tap = s.tap := rfl
@[simp] theorem State.onFab_ports (s : State) (f : Fabric → Fabric) : (s.onFab f).ports = s.ports := rfl
@[simp] theorem State.onFab_pho (s : State) (f : Fabric → Fabric) : (s.onFab f).pho = s.pho := rfl
@[simp] theorem State.onFab_fab (s : State) (f : Fabric → Fabric) : (s.onFab f).fab = f s.fab := rfl
@[simp] theorem State.onFab_mesh (s : State) (f : Fabric → Fabric) : (s.onFab f).mesh = s.mesh := rfl
@[simp] theorem State.onFab_freeCtr (s : State) (f : Fabric → Fabric) : (s.onFab f).freeCtr = s.freeCtr := rfl
@[simp] theorem State.onFab_pending (s : State) (f : Fabric → Fabric) : (s.onFab f).pending = s.pending := rfl

/-! onMesh. -/

@[simp] theorem State.onMesh_aon (s : State) (f : Mesh → Mesh) : (s.onMesh f).aon = s.aon := rfl
@[simp] theorem State.onMesh_dict (s : State) (f : Mesh → Mesh) : (s.onMesh f).dict = s.dict := rfl
@[simp] theorem State.onMesh_ledger (s : State) (f : Mesh → Mesh) : (s.onMesh f).ledger = s.ledger := rfl
@[simp] theorem State.onMesh_link (s : State) (f : Mesh → Mesh) : (s.onMesh f).link = s.link := rfl
@[simp] theorem State.onMesh_store (s : State) (f : Mesh → Mesh) : (s.onMesh f).store = s.store := rfl
@[simp] theorem State.onMesh_parts (s : State) (f : Mesh → Mesh) : (s.onMesh f).parts = s.parts := rfl
@[simp] theorem State.onMesh_rings (s : State) (f : Mesh → Mesh) : (s.onMesh f).rings = s.rings := rfl
@[simp] theorem State.onMesh_threads (s : State) (f : Mesh → Mesh) : (s.onMesh f).threads = s.threads := rfl
@[simp] theorem State.onMesh_cores (s : State) (f : Mesh → Mesh) : (s.onMesh f).cores = s.cores := rfl
@[simp] theorem State.onMesh_tap (s : State) (f : Mesh → Mesh) : (s.onMesh f).tap = s.tap := rfl
@[simp] theorem State.onMesh_ports (s : State) (f : Mesh → Mesh) : (s.onMesh f).ports = s.ports := rfl
@[simp] theorem State.onMesh_pho (s : State) (f : Mesh → Mesh) : (s.onMesh f).pho = s.pho := rfl
@[simp] theorem State.onMesh_fab (s : State) (f : Mesh → Mesh) : (s.onMesh f).fab = s.fab := rfl
@[simp] theorem State.onMesh_mesh (s : State) (f : Mesh → Mesh) : (s.onMesh f).mesh = f s.mesh := rfl
@[simp] theorem State.onMesh_freeCtr (s : State) (f : Mesh → Mesh) : (s.onMesh f).freeCtr = s.freeCtr := rfl
@[simp] theorem State.onMesh_pending (s : State) (f : Mesh → Mesh) : (s.onMesh f).pending = s.pending := rfl

/-! tickFree and forEach. -/

@[simp] theorem State.tickFree_aon (s : State) : s.tickFree.aon = s.aon := rfl
@[simp] theorem State.tickFree_dict (s : State) : s.tickFree.dict = s.dict := rfl
@[simp] theorem State.tickFree_ledger (s : State) : s.tickFree.ledger = s.ledger := rfl
@[simp] theorem State.tickFree_link (s : State) : s.tickFree.link = s.link := rfl
@[simp] theorem State.tickFree_store (s : State) : s.tickFree.store = s.store := rfl
@[simp] theorem State.tickFree_parts (s : State) : s.tickFree.parts = s.parts := rfl
@[simp] theorem State.tickFree_rings (s : State) : s.tickFree.rings = s.rings := rfl
@[simp] theorem State.tickFree_threads (s : State) : s.tickFree.threads = s.threads := rfl
@[simp] theorem State.tickFree_cores (s : State) : s.tickFree.cores = s.cores := rfl
@[simp] theorem State.tickFree_tap (s : State) : s.tickFree.tap = s.tap := rfl
@[simp] theorem State.tickFree_ports (s : State) : s.tickFree.ports = s.ports := rfl
@[simp] theorem State.tickFree_pho (s : State) : s.tickFree.pho = s.pho := rfl
@[simp] theorem State.tickFree_fab (s : State) : s.tickFree.fab = s.fab := rfl
@[simp] theorem State.tickFree_mesh (s : State) : s.tickFree.mesh = s.mesh := rfl
@[simp] theorem State.tickFree_freeCtr (s : State) : s.tickFree.freeCtr = s.freeCtr + 1 := rfl
@[simp] theorem State.tickFree_pending (s : State) : s.tickFree.pending = s.pending := rfl

@[simp] theorem State.forEach_nil {α : Type} (s : State) (f : State → α → State) : s.forEach [] f = s := rfl
@[simp] theorem State.forEach_cons {α : Type} (s : State) (a : α) (l : List α) (f : State → α → State) :
    s.forEach (a :: l) f = (f s a).forEach l f := rfl

/-! The mood machine, which lives in the always-on island. -/

@[simp] theorem State.onMood_eq (s : State) (f : MoodSt → MoodSt) :
    s.onMood f = s.onAon (fun a => { a with mood := f a.mood }) := rfl

/-! Reads of objects after an update of another unit. -/

@[simp] theorem State.onAon_act_obj (s : State) (f : Aon → Aon) (k : Nat) : (s.onAon f).act k = s.act k := rfl
@[simp] theorem State.onLedger_act_obj (s : State) (f : Ledger → Ledger) (k : Nat) : (s.onLedger f).act k = s.act k := rfl
@[simp] theorem State.onLink_act_obj (s : State) (f : Link → Link) (k : Nat) : (s.onLink f).act k = s.act k := rfl
@[simp] theorem State.onStore_act_obj (s : State) (f : Store → Store) (k : Nat) : (s.onStore f).act k = s.act k := rfl
@[simp] theorem State.onPart_act_obj (s : State) (p : PartId) (f : Part → Part) (k : Nat) : (s.onPart p f).act k = s.act k := rfl
@[simp] theorem State.onRing_act_obj (s : State) (r : Fin 80) (f : RingPos → RingPos) (k : Nat) : (s.onRing r f).act k = s.act k := rfl
@[simp] theorem State.onThread_act_obj (s : State) (t : ThreadId) (f : Thread → Thread) (k : Nat) : (s.onThread t f).act k = s.act k := rfl
@[simp] theorem State.onCore_act_obj (s : State) (c : CoreId) (f : CoreSt → CoreSt) (k : Nat) : (s.onCore c f).act k = s.act k := rfl
@[simp] theorem State.onTap_act_obj (s : State) (h : ChanId) (f : TapCh → TapCh) (k : Nat) : (s.onTap h f).act k = s.act k := rfl
@[simp] theorem State.onPort_act_obj (s : State) (q : PortId) (f : Port → Port) (k : Nat) : (s.onPort q f).act k = s.act k := rfl
@[simp] theorem State.onPho_act_obj (s : State) (f : Photonics → Photonics) (k : Nat) : (s.onPho f).act k = s.act k := rfl
@[simp] theorem State.onFab_act_obj (s : State) (f : Fabric → Fabric) (k : Nat) : (s.onFab f).act k = s.act k := rfl
@[simp] theorem State.onMesh_act_obj (s : State) (f : Mesh → Mesh) (k : Nat) : (s.onMesh f).act k = s.act k := rfl
@[simp] theorem State.tickFree_act_obj (s : State) (k : Nat) : s.tickFree.act k = s.act k := rfl
@[simp] theorem State.onAon_shd_obj (s : State) (f : Aon → Aon) (k : Nat) : (s.onAon f).shd k = s.shd k := rfl
@[simp] theorem State.onLedger_shd_obj (s : State) (f : Ledger → Ledger) (k : Nat) : (s.onLedger f).shd k = s.shd k := rfl
@[simp] theorem State.onLink_shd_obj (s : State) (f : Link → Link) (k : Nat) : (s.onLink f).shd k = s.shd k := rfl
@[simp] theorem State.onStore_shd_obj (s : State) (f : Store → Store) (k : Nat) : (s.onStore f).shd k = s.shd k := rfl
@[simp] theorem State.onPart_shd_obj (s : State) (p : PartId) (f : Part → Part) (k : Nat) : (s.onPart p f).shd k = s.shd k := rfl
@[simp] theorem State.onRing_shd_obj (s : State) (r : Fin 80) (f : RingPos → RingPos) (k : Nat) : (s.onRing r f).shd k = s.shd k := rfl
@[simp] theorem State.onThread_shd_obj (s : State) (t : ThreadId) (f : Thread → Thread) (k : Nat) : (s.onThread t f).shd k = s.shd k := rfl
@[simp] theorem State.onCore_shd_obj (s : State) (c : CoreId) (f : CoreSt → CoreSt) (k : Nat) : (s.onCore c f).shd k = s.shd k := rfl
@[simp] theorem State.onTap_shd_obj (s : State) (h : ChanId) (f : TapCh → TapCh) (k : Nat) : (s.onTap h f).shd k = s.shd k := rfl
@[simp] theorem State.onPort_shd_obj (s : State) (q : PortId) (f : Port → Port) (k : Nat) : (s.onPort q f).shd k = s.shd k := rfl
@[simp] theorem State.onPho_shd_obj (s : State) (f : Photonics → Photonics) (k : Nat) : (s.onPho f).shd k = s.shd k := rfl
@[simp] theorem State.onFab_shd_obj (s : State) (f : Fabric → Fabric) (k : Nat) : (s.onFab f).shd k = s.shd k := rfl
@[simp] theorem State.onMesh_shd_obj (s : State) (f : Mesh → Mesh) (k : Nat) : (s.onMesh f).shd k = s.shd k := rfl
@[simp] theorem State.tickFree_shd_obj (s : State) (k : Nat) : s.tickFree.shd k = s.shd k := rfl
@[simp] theorem State.onAon_sgl_obj (s : State) (f : Aon → Aon) (k : Nat) : (s.onAon f).sgl k = s.sgl k := rfl
@[simp] theorem State.onLedger_sgl_obj (s : State) (f : Ledger → Ledger) (k : Nat) : (s.onLedger f).sgl k = s.sgl k := rfl
@[simp] theorem State.onLink_sgl_obj (s : State) (f : Link → Link) (k : Nat) : (s.onLink f).sgl k = s.sgl k := rfl
@[simp] theorem State.onStore_sgl_obj (s : State) (f : Store → Store) (k : Nat) : (s.onStore f).sgl k = s.sgl k := rfl
@[simp] theorem State.onPart_sgl_obj (s : State) (p : PartId) (f : Part → Part) (k : Nat) : (s.onPart p f).sgl k = s.sgl k := rfl
@[simp] theorem State.onRing_sgl_obj (s : State) (r : Fin 80) (f : RingPos → RingPos) (k : Nat) : (s.onRing r f).sgl k = s.sgl k := rfl
@[simp] theorem State.onThread_sgl_obj (s : State) (t : ThreadId) (f : Thread → Thread) (k : Nat) : (s.onThread t f).sgl k = s.sgl k := rfl
@[simp] theorem State.onCore_sgl_obj (s : State) (c : CoreId) (f : CoreSt → CoreSt) (k : Nat) : (s.onCore c f).sgl k = s.sgl k := rfl
@[simp] theorem State.onTap_sgl_obj (s : State) (h : ChanId) (f : TapCh → TapCh) (k : Nat) : (s.onTap h f).sgl k = s.sgl k := rfl
@[simp] theorem State.onPort_sgl_obj (s : State) (q : PortId) (f : Port → Port) (k : Nat) : (s.onPort q f).sgl k = s.sgl k := rfl
@[simp] theorem State.onPho_sgl_obj (s : State) (f : Photonics → Photonics) (k : Nat) : (s.onPho f).sgl k = s.sgl k := rfl
@[simp] theorem State.onFab_sgl_obj (s : State) (f : Fabric → Fabric) (k : Nat) : (s.onFab f).sgl k = s.sgl k := rfl
@[simp] theorem State.onMesh_sgl_obj (s : State) (f : Mesh → Mesh) (k : Nat) : (s.onMesh f).sgl k = s.sgl k := rfl
@[simp] theorem State.tickFree_sgl_obj (s : State) (k : Nat) : s.tickFree.sgl k = s.sgl k := rfl
@[simp] theorem State.onAon_dact_obj (s : State) (f : Aon → Aon) (k : Nat) : (s.onAon f).dact k = s.dact k := rfl
@[simp] theorem State.onLedger_dact_obj (s : State) (f : Ledger → Ledger) (k : Nat) : (s.onLedger f).dact k = s.dact k := rfl
@[simp] theorem State.onLink_dact_obj (s : State) (f : Link → Link) (k : Nat) : (s.onLink f).dact k = s.dact k := rfl
@[simp] theorem State.onStore_dact_obj (s : State) (f : Store → Store) (k : Nat) : (s.onStore f).dact k = s.dact k := rfl
@[simp] theorem State.onPart_dact_obj (s : State) (p : PartId) (f : Part → Part) (k : Nat) : (s.onPart p f).dact k = s.dact k := rfl
@[simp] theorem State.onRing_dact_obj (s : State) (r : Fin 80) (f : RingPos → RingPos) (k : Nat) : (s.onRing r f).dact k = s.dact k := rfl
@[simp] theorem State.onThread_dact_obj (s : State) (t : ThreadId) (f : Thread → Thread) (k : Nat) : (s.onThread t f).dact k = s.dact k := rfl
@[simp] theorem State.onCore_dact_obj (s : State) (c : CoreId) (f : CoreSt → CoreSt) (k : Nat) : (s.onCore c f).dact k = s.dact k := rfl
@[simp] theorem State.onTap_dact_obj (s : State) (h : ChanId) (f : TapCh → TapCh) (k : Nat) : (s.onTap h f).dact k = s.dact k := rfl
@[simp] theorem State.onPort_dact_obj (s : State) (q : PortId) (f : Port → Port) (k : Nat) : (s.onPort q f).dact k = s.dact k := rfl
@[simp] theorem State.onPho_dact_obj (s : State) (f : Photonics → Photonics) (k : Nat) : (s.onPho f).dact k = s.dact k := rfl
@[simp] theorem State.onFab_dact_obj (s : State) (f : Fabric → Fabric) (k : Nat) : (s.onFab f).dact k = s.dact k := rfl
@[simp] theorem State.onMesh_dact_obj (s : State) (f : Mesh → Mesh) (k : Nat) : (s.onMesh f).dact k = s.dact k := rfl
@[simp] theorem State.tickFree_dact_obj (s : State) (k : Nat) : s.tickFree.dact k = s.dact k := rfl
@[simp] theorem State.onAon_dshd_obj (s : State) (f : Aon → Aon) (k : Nat) : (s.onAon f).dshd k = s.dshd k := rfl
@[simp] theorem State.onLedger_dshd_obj (s : State) (f : Ledger → Ledger) (k : Nat) : (s.onLedger f).dshd k = s.dshd k := rfl
@[simp] theorem State.onLink_dshd_obj (s : State) (f : Link → Link) (k : Nat) : (s.onLink f).dshd k = s.dshd k := rfl
@[simp] theorem State.onStore_dshd_obj (s : State) (f : Store → Store) (k : Nat) : (s.onStore f).dshd k = s.dshd k := rfl
@[simp] theorem State.onPart_dshd_obj (s : State) (p : PartId) (f : Part → Part) (k : Nat) : (s.onPart p f).dshd k = s.dshd k := rfl
@[simp] theorem State.onRing_dshd_obj (s : State) (r : Fin 80) (f : RingPos → RingPos) (k : Nat) : (s.onRing r f).dshd k = s.dshd k := rfl
@[simp] theorem State.onThread_dshd_obj (s : State) (t : ThreadId) (f : Thread → Thread) (k : Nat) : (s.onThread t f).dshd k = s.dshd k := rfl
@[simp] theorem State.onCore_dshd_obj (s : State) (c : CoreId) (f : CoreSt → CoreSt) (k : Nat) : (s.onCore c f).dshd k = s.dshd k := rfl
@[simp] theorem State.onTap_dshd_obj (s : State) (h : ChanId) (f : TapCh → TapCh) (k : Nat) : (s.onTap h f).dshd k = s.dshd k := rfl
@[simp] theorem State.onPort_dshd_obj (s : State) (q : PortId) (f : Port → Port) (k : Nat) : (s.onPort q f).dshd k = s.dshd k := rfl
@[simp] theorem State.onPho_dshd_obj (s : State) (f : Photonics → Photonics) (k : Nat) : (s.onPho f).dshd k = s.dshd k := rfl
@[simp] theorem State.onFab_dshd_obj (s : State) (f : Fabric → Fabric) (k : Nat) : (s.onFab f).dshd k = s.dshd k := rfl
@[simp] theorem State.onMesh_dshd_obj (s : State) (f : Mesh → Mesh) (k : Nat) : (s.onMesh f).dshd k = s.dshd k := rfl
@[simp] theorem State.tickFree_dshd_obj (s : State) (k : Nat) : s.tickFree.dshd k = s.dshd k := rfl
@[simp] theorem State.onAon_dsgl_obj (s : State) (f : Aon → Aon) (k : Nat) : (s.onAon f).dsgl k = s.dsgl k := rfl
@[simp] theorem State.onLedger_dsgl_obj (s : State) (f : Ledger → Ledger) (k : Nat) : (s.onLedger f).dsgl k = s.dsgl k := rfl
@[simp] theorem State.onLink_dsgl_obj (s : State) (f : Link → Link) (k : Nat) : (s.onLink f).dsgl k = s.dsgl k := rfl
@[simp] theorem State.onStore_dsgl_obj (s : State) (f : Store → Store) (k : Nat) : (s.onStore f).dsgl k = s.dsgl k := rfl
@[simp] theorem State.onPart_dsgl_obj (s : State) (p : PartId) (f : Part → Part) (k : Nat) : (s.onPart p f).dsgl k = s.dsgl k := rfl
@[simp] theorem State.onRing_dsgl_obj (s : State) (r : Fin 80) (f : RingPos → RingPos) (k : Nat) : (s.onRing r f).dsgl k = s.dsgl k := rfl
@[simp] theorem State.onThread_dsgl_obj (s : State) (t : ThreadId) (f : Thread → Thread) (k : Nat) : (s.onThread t f).dsgl k = s.dsgl k := rfl
@[simp] theorem State.onCore_dsgl_obj (s : State) (c : CoreId) (f : CoreSt → CoreSt) (k : Nat) : (s.onCore c f).dsgl k = s.dsgl k := rfl
@[simp] theorem State.onTap_dsgl_obj (s : State) (h : ChanId) (f : TapCh → TapCh) (k : Nat) : (s.onTap h f).dsgl k = s.dsgl k := rfl
@[simp] theorem State.onPort_dsgl_obj (s : State) (q : PortId) (f : Port → Port) (k : Nat) : (s.onPort q f).dsgl k = s.dsgl k := rfl
@[simp] theorem State.onPho_dsgl_obj (s : State) (f : Photonics → Photonics) (k : Nat) : (s.onPho f).dsgl k = s.dsgl k := rfl
@[simp] theorem State.onFab_dsgl_obj (s : State) (f : Fabric → Fabric) (k : Nat) : (s.onFab f).dsgl k = s.dsgl k := rfl
@[simp] theorem State.onMesh_dsgl_obj (s : State) (f : Mesh → Mesh) (k : Nat) : (s.onMesh f).dsgl k = s.dsgl k := rfl
@[simp] theorem State.tickFree_dsgl_obj (s : State) (k : Nat) : s.tickFree.dsgl k = s.dsgl k := rfl

end Sys2Proof.Machine
end

