-- ==== Sys2Proof/Laws/Frames.lean ====
section
/-!
SUPPORT. Which units the shared operations leave as they are, and what counting, a record and a plain object's write do
to the dictionary and the log.
-/
namespace Sys2Proof.Machine

@[simp] theorem State.output_rest (s : State) (o : Output) :
    (s.output o).aon = s.aon ∧
    (s.output o).dict = s.dict ∧
    (s.output o).ledger = s.ledger ∧
    (s.output o).store = s.store ∧
    (s.output o).parts = s.parts ∧
    (s.output o).rings = s.rings ∧
    (s.output o).threads = s.threads ∧
    (s.output o).cores = s.cores ∧
    (s.output o).tap = s.tap ∧
    (s.output o).ports = s.ports ∧
    (s.output o).pho = s.pho ∧
    (s.output o).fab = s.fab ∧
    (s.output o).mesh = s.mesh ∧
    (s.output o).freeCtr = s.freeCtr ∧
    (s.output o).pending = s.pending := by
  simp [State.output]

@[simp] theorem State.setSgl_rest (s : State) (k v : Nat) :
    (s.setSgl k v).aon = s.aon ∧
    (s.setSgl k v).ledger = s.ledger ∧
    (s.setSgl k v).link = s.link ∧
    (s.setSgl k v).store = s.store ∧
    (s.setSgl k v).parts = s.parts ∧
    (s.setSgl k v).rings = s.rings ∧
    (s.setSgl k v).threads = s.threads ∧
    (s.setSgl k v).cores = s.cores ∧
    (s.setSgl k v).tap = s.tap ∧
    (s.setSgl k v).ports = s.ports ∧
    (s.setSgl k v).pho = s.pho ∧
    (s.setSgl k v).fab = s.fab ∧
    (s.setSgl k v).mesh = s.mesh ∧
    (s.setSgl k v).freeCtr = s.freeCtr ∧
    (s.setSgl k v).pending = s.pending := by
  simp [State.setSgl]

@[simp] theorem State.setAct_rest (s : State) (k v : Nat) :
    (s.setAct k v).aon = s.aon ∧
    (s.setAct k v).ledger = s.ledger ∧
    (s.setAct k v).link = s.link ∧
    (s.setAct k v).store = s.store ∧
    (s.setAct k v).parts = s.parts ∧
    (s.setAct k v).rings = s.rings ∧
    (s.setAct k v).threads = s.threads ∧
    (s.setAct k v).cores = s.cores ∧
    (s.setAct k v).tap = s.tap ∧
    (s.setAct k v).ports = s.ports ∧
    (s.setAct k v).pho = s.pho ∧
    (s.setAct k v).fab = s.fab ∧
    (s.setAct k v).mesh = s.mesh ∧
    (s.setAct k v).freeCtr = s.freeCtr ∧
    (s.setAct k v).pending = s.pending := by
  simp [State.setAct]

@[simp] theorem State.setShd_rest (s : State) (k v : Nat) :
    (s.setShd k v).aon = s.aon ∧
    (s.setShd k v).ledger = s.ledger ∧
    (s.setShd k v).link = s.link ∧
    (s.setShd k v).store = s.store ∧
    (s.setShd k v).parts = s.parts ∧
    (s.setShd k v).rings = s.rings ∧
    (s.setShd k v).threads = s.threads ∧
    (s.setShd k v).cores = s.cores ∧
    (s.setShd k v).tap = s.tap ∧
    (s.setShd k v).ports = s.ports ∧
    (s.setShd k v).pho = s.pho ∧
    (s.setShd k v).fab = s.fab ∧
    (s.setShd k v).mesh = s.mesh ∧
    (s.setShd k v).freeCtr = s.freeCtr ∧
    (s.setShd k v).pending = s.pending := by
  simp [State.setShd]

@[simp] theorem State.setDom_rest (s : State) (k : Nat) (v : List Byte) :
    (s.setDom k v).aon = s.aon ∧
    (s.setDom k v).ledger = s.ledger ∧
    (s.setDom k v).link = s.link ∧
    (s.setDom k v).store = s.store ∧
    (s.setDom k v).parts = s.parts ∧
    (s.setDom k v).rings = s.rings ∧
    (s.setDom k v).threads = s.threads ∧
    (s.setDom k v).cores = s.cores ∧
    (s.setDom k v).tap = s.tap ∧
    (s.setDom k v).ports = s.ports ∧
    (s.setDom k v).pho = s.pho ∧
    (s.setDom k v).fab = s.fab ∧
    (s.setDom k v).mesh = s.mesh ∧
    (s.setDom k v).freeCtr = s.freeCtr ∧
    (s.setDom k v).pending = s.pending := by
  simp [State.setDom]

@[simp] theorem State.setDomShd_rest (s : State) (k : Nat) (v : List Byte) :
    (s.setDomShd k v).aon = s.aon ∧
    (s.setDomShd k v).ledger = s.ledger ∧
    (s.setDomShd k v).link = s.link ∧
    (s.setDomShd k v).store = s.store ∧
    (s.setDomShd k v).parts = s.parts ∧
    (s.setDomShd k v).rings = s.rings ∧
    (s.setDomShd k v).threads = s.threads ∧
    (s.setDomShd k v).cores = s.cores ∧
    (s.setDomShd k v).tap = s.tap ∧
    (s.setDomShd k v).ports = s.ports ∧
    (s.setDomShd k v).pho = s.pho ∧
    (s.setDomShd k v).fab = s.fab ∧
    (s.setDomShd k v).mesh = s.mesh ∧
    (s.setDomShd k v).freeCtr = s.freeCtr ∧
    (s.setDomShd k v).pending = s.pending := by
  simp [State.setDomShd]

@[simp] theorem State.addSat_rest (s : State) (k n : Nat) :
    (s.addSat k n).aon = s.aon ∧
    (s.addSat k n).ledger = s.ledger ∧
    (s.addSat k n).link = s.link ∧
    (s.addSat k n).store = s.store ∧
    (s.addSat k n).parts = s.parts ∧
    (s.addSat k n).rings = s.rings ∧
    (s.addSat k n).threads = s.threads ∧
    (s.addSat k n).cores = s.cores ∧
    (s.addSat k n).tap = s.tap ∧
    (s.addSat k n).ports = s.ports ∧
    (s.addSat k n).pho = s.pho ∧
    (s.addSat k n).fab = s.fab ∧
    (s.addSat k n).mesh = s.mesh ∧
    (s.addSat k n).freeCtr = s.freeCtr ∧
    (s.addSat k n).pending = s.pending := by
  simp [State.addSat]

@[simp] theorem State.bump_rest (s : State) (k : Nat) :
    (s.bump k).aon = s.aon ∧
    (s.bump k).ledger = s.ledger ∧
    (s.bump k).link = s.link ∧
    (s.bump k).store = s.store ∧
    (s.bump k).parts = s.parts ∧
    (s.bump k).rings = s.rings ∧
    (s.bump k).threads = s.threads ∧
    (s.bump k).cores = s.cores ∧
    (s.bump k).tap = s.tap ∧
    (s.bump k).ports = s.ports ∧
    (s.bump k).pho = s.pho ∧
    (s.bump k).fab = s.fab ∧
    (s.bump k).mesh = s.mesh ∧
    (s.bump k).freeCtr = s.freeCtr ∧
    (s.bump k).pending = s.pending := by
  simp [State.bump]

@[simp] theorem State.bump32_rest (s : State) (k : Nat) :
    (s.bump32 k).aon = s.aon ∧
    (s.bump32 k).ledger = s.ledger ∧
    (s.bump32 k).link = s.link ∧
    (s.bump32 k).store = s.store ∧
    (s.bump32 k).parts = s.parts ∧
    (s.bump32 k).rings = s.rings ∧
    (s.bump32 k).threads = s.threads ∧
    (s.bump32 k).cores = s.cores ∧
    (s.bump32 k).tap = s.tap ∧
    (s.bump32 k).ports = s.ports ∧
    (s.bump32 k).pho = s.pho ∧
    (s.bump32 k).fab = s.fab ∧
    (s.bump32 k).mesh = s.mesh ∧
    (s.bump32 k).freeCtr = s.freeCtr ∧
    (s.bump32 k).pending = s.pending := by
  simp [State.bump32]

@[simp] theorem State.add64_rest (s : State) (k n : Nat) :
    (s.add64 k n).aon = s.aon ∧
    (s.add64 k n).ledger = s.ledger ∧
    (s.add64 k n).link = s.link ∧
    (s.add64 k n).store = s.store ∧
    (s.add64 k n).parts = s.parts ∧
    (s.add64 k n).rings = s.rings ∧
    (s.add64 k n).threads = s.threads ∧
    (s.add64 k n).cores = s.cores ∧
    (s.add64 k n).tap = s.tap ∧
    (s.add64 k n).ports = s.ports ∧
    (s.add64 k n).pho = s.pho ∧
    (s.add64 k n).fab = s.fab ∧
    (s.add64 k n).mesh = s.mesh ∧
    (s.add64 k n).freeCtr = s.freeCtr ∧
    (s.add64 k n).pending = s.pending := by
  simp [State.add64]

@[simp] theorem State.msix_rest (s : State) (v : Nat) :
    (s.msix v).aon = s.aon ∧
    (s.msix v).dict = s.dict ∧
    (s.msix v).ledger = s.ledger ∧
    (s.msix v).store = s.store ∧
    (s.msix v).parts = s.parts ∧
    (s.msix v).rings = s.rings ∧
    (s.msix v).threads = s.threads ∧
    (s.msix v).cores = s.cores ∧
    (s.msix v).tap = s.tap ∧
    (s.msix v).ports = s.ports ∧
    (s.msix v).pho = s.pho ∧
    (s.msix v).fab = s.fab ∧
    (s.msix v).mesh = s.mesh ∧
    (s.msix v).freeCtr = s.freeCtr ∧
    (s.msix v).pending = s.pending := by
  unfold State.msix
  try dsimp only
  repeat' split
  all_goals simp

@[simp] theorem State.notify_rest (s : State) (src k value : Nat) :
    (s.notify src k value).aon = s.aon ∧
    (s.notify src k value).ledger = s.ledger ∧
    (s.notify src k value).store = s.store ∧
    (s.notify src k value).parts = s.parts ∧
    (s.notify src k value).rings = s.rings ∧
    (s.notify src k value).threads = s.threads ∧
    (s.notify src k value).cores = s.cores ∧
    (s.notify src k value).tap = s.tap ∧
    (s.notify src k value).ports = s.ports ∧
    (s.notify src k value).pho = s.pho ∧
    (s.notify src k value).fab = s.fab ∧
    (s.notify src k value).mesh = s.mesh ∧
    (s.notify src k value).freeCtr = s.freeCtr ∧
    (s.notify src k value).pending = s.pending := by
  unfold State.notify
  try dsimp only
  repeat' split
  all_goals simp

@[simp] theorem State.logRec_rest (s : State) (src sev part a b : Nat) :
    (s.logRec src sev part a b).ledger = s.ledger ∧
    (s.logRec src sev part a b).store = s.store ∧
    (s.logRec src sev part a b).parts = s.parts ∧
    (s.logRec src sev part a b).rings = s.rings ∧
    (s.logRec src sev part a b).threads = s.threads ∧
    (s.logRec src sev part a b).cores = s.cores ∧
    (s.logRec src sev part a b).tap = s.tap ∧
    (s.logRec src sev part a b).ports = s.ports ∧
    (s.logRec src sev part a b).pho = s.pho ∧
    (s.logRec src sev part a b).fab = s.fab ∧
    (s.logRec src sev part a b).mesh = s.mesh ∧
    (s.logRec src sev part a b).freeCtr = s.freeCtr ∧
    (s.logRec src sev part a b).pending = s.pending := by
  unfold State.logRec
  try dsimp only
  repeat' split
  all_goals simp

@[simp] theorem State.latch_rest (s : State) (e : Event) :
    (s.latch e).dict = s.dict ∧
    (s.latch e).ledger = s.ledger ∧
    (s.latch e).link = s.link ∧
    (s.latch e).store = s.store ∧
    (s.latch e).parts = s.parts ∧
    (s.latch e).rings = s.rings ∧
    (s.latch e).threads = s.threads ∧
    (s.latch e).cores = s.cores ∧
    (s.latch e).tap = s.tap ∧
    (s.latch e).ports = s.ports ∧
    (s.latch e).pho = s.pho ∧
    (s.latch e).fab = s.fab ∧
    (s.latch e).mesh = s.mesh ∧
    (s.latch e).freeCtr = s.freeCtr ∧
    (s.latch e).pending = s.pending := by
  simp [State.latch]

@[simp] theorem State.countAddrFault_rest (s : State) :
    (s.countAddrFault).aon = s.aon ∧
    (s.countAddrFault).ledger = s.ledger ∧
    (s.countAddrFault).link = s.link ∧
    (s.countAddrFault).store = s.store ∧
    (s.countAddrFault).parts = s.parts ∧
    (s.countAddrFault).rings = s.rings ∧
    (s.countAddrFault).threads = s.threads ∧
    (s.countAddrFault).cores = s.cores ∧
    (s.countAddrFault).tap = s.tap ∧
    (s.countAddrFault).ports = s.ports ∧
    (s.countAddrFault).pho = s.pho ∧
    (s.countAddrFault).fab = s.fab ∧
    (s.countAddrFault).mesh = s.mesh ∧
    (s.countAddrFault).freeCtr = s.freeCtr ∧
    (s.countAddrFault).pending = s.pending := by
  simp [State.countAddrFault]

@[simp] theorem State.addrFaultRec_rest (s : State) (a b : Nat) :
    (s.addrFaultRec a b).ledger = s.ledger ∧
    (s.addrFaultRec a b).store = s.store ∧
    (s.addrFaultRec a b).parts = s.parts ∧
    (s.addrFaultRec a b).rings = s.rings ∧
    (s.addrFaultRec a b).threads = s.threads ∧
    (s.addrFaultRec a b).cores = s.cores ∧
    (s.addrFaultRec a b).tap = s.tap ∧
    (s.addrFaultRec a b).ports = s.ports ∧
    (s.addrFaultRec a b).pho = s.pho ∧
    (s.addrFaultRec a b).fab = s.fab ∧
    (s.addrFaultRec a b).mesh = s.mesh ∧
    (s.addrFaultRec a b).freeCtr = s.freeCtr ∧
    (s.addrFaultRec a b).pending = s.pending := by
  unfold State.addrFaultRec
  try dsimp only
  repeat' split
  all_goals simp

@[simp] theorem State.keepFault_rest (s : State) (p : PartId) (w a : Nat) :
    (s.keepFault p w a).aon = s.aon ∧
    (s.keepFault p w a).ledger = s.ledger ∧
    (s.keepFault p w a).link = s.link ∧
    (s.keepFault p w a).store = s.store ∧
    (s.keepFault p w a).parts = s.parts ∧
    (s.keepFault p w a).rings = s.rings ∧
    (s.keepFault p w a).threads = s.threads ∧
    (s.keepFault p w a).cores = s.cores ∧
    (s.keepFault p w a).tap = s.tap ∧
    (s.keepFault p w a).ports = s.ports ∧
    (s.keepFault p w a).pho = s.pho ∧
    (s.keepFault p w a).fab = s.fab ∧
    (s.keepFault p w a).mesh = s.mesh ∧
    (s.keepFault p w a).freeCtr = s.freeCtr ∧
    (s.keepFault p w a).pending = s.pending := by
  unfold State.keepFault
  try dsimp only
  repeat' split
  all_goals simp

@[simp] theorem State.preemptAll_rest (s : State) (p : PartId) :
    (s.preemptAll p).aon = s.aon ∧
    (s.preemptAll p).dict = s.dict ∧
    (s.preemptAll p).ledger = s.ledger ∧
    (s.preemptAll p).link = s.link ∧
    (s.preemptAll p).store = s.store ∧
    (s.preemptAll p).parts = s.parts ∧
    (s.preemptAll p).rings = s.rings ∧
    (s.preemptAll p).threads = s.threads ∧
    (s.preemptAll p).tap = s.tap ∧
    (s.preemptAll p).ports = s.ports ∧
    (s.preemptAll p).pho = s.pho ∧
    (s.preemptAll p).fab = s.fab ∧
    (s.preemptAll p).mesh = s.mesh ∧
    (s.preemptAll p).freeCtr = s.freeCtr ∧
    (s.preemptAll p).pending = s.pending := by
  unfold State.preemptAll State.forEach
  generalize s.coresOf p.val = l
  induction l generalizing s with
  | nil => simp
  | cons c l ih => simpa using ih (s.onCore c CoreSt.askPreempt)

@[simp] theorem State.raiseFault_rest (s : State) (p : PartId) (kind cause unit : Nat) (control : Bool) (ticket a : Nat) :
    (s.raiseFault p kind cause unit control ticket a).ledger = s.ledger ∧
    (s.raiseFault p kind cause unit control ticket a).store = s.store ∧
    (s.raiseFault p kind cause unit control ticket a).rings = s.rings ∧
    (s.raiseFault p kind cause unit control ticket a).threads = s.threads ∧
    (s.raiseFault p kind cause unit control ticket a).tap = s.tap ∧
    (s.raiseFault p kind cause unit control ticket a).ports = s.ports ∧
    (s.raiseFault p kind cause unit control ticket a).pho = s.pho ∧
    (s.raiseFault p kind cause unit control ticket a).fab = s.fab ∧
    (s.raiseFault p kind cause unit control ticket a).mesh = s.mesh ∧
    (s.raiseFault p kind cause unit control ticket a).freeCtr = s.freeCtr ∧
    (s.raiseFault p kind cause unit control ticket a).pending = s.pending := by
  unfold State.raiseFault
  try dsimp only
  repeat' split
  all_goals simp

@[simp] theorem State.holdThread_rest (s : State) (t : ThreadId) :
    (s.holdThread t).aon = s.aon ∧
    (s.holdThread t).dict = s.dict ∧
    (s.holdThread t).ledger = s.ledger ∧
    (s.holdThread t).link = s.link ∧
    (s.holdThread t).store = s.store ∧
    (s.holdThread t).parts = s.parts ∧
    (s.holdThread t).rings = s.rings ∧
    (s.holdThread t).cores = s.cores ∧
    (s.holdThread t).tap = s.tap ∧
    (s.holdThread t).ports = s.ports ∧
    (s.holdThread t).pho = s.pho ∧
    (s.holdThread t).fab = s.fab ∧
    (s.holdThread t).mesh = s.mesh ∧
    (s.holdThread t).freeCtr = s.freeCtr ∧
    (s.holdThread t).pending = s.pending := by
  simp [State.holdThread]

@[simp] theorem State.threadAccessFault_rest (s : State) (t : ThreadId) (p : PartId) (kind cause a : Nat) :
    (s.threadAccessFault t p kind cause a).ledger = s.ledger ∧
    (s.threadAccessFault t p kind cause a).store = s.store ∧
    (s.threadAccessFault t p kind cause a).rings = s.rings ∧
    (s.threadAccessFault t p kind cause a).tap = s.tap ∧
    (s.threadAccessFault t p kind cause a).ports = s.ports ∧
    (s.threadAccessFault t p kind cause a).pho = s.pho ∧
    (s.threadAccessFault t p kind cause a).fab = s.fab ∧
    (s.threadAccessFault t p kind cause a).mesh = s.mesh ∧
    (s.threadAccessFault t p kind cause a).freeCtr = s.freeCtr ∧
    (s.threadAccessFault t p kind cause a).pending = s.pending := by
  unfold State.threadAccessFault
  try dsimp only
  repeat' split
  all_goals simp

@[simp] theorem State.threadFault_rest (s : State) (t : ThreadId) (p : PartId) (cause slot : Nat) :
    (s.threadFault t p cause slot).ledger = s.ledger ∧
    (s.threadFault t p cause slot).store = s.store ∧
    (s.threadFault t p cause slot).parts = s.parts ∧
    (s.threadFault t p cause slot).rings = s.rings ∧
    (s.threadFault t p cause slot).cores = s.cores ∧
    (s.threadFault t p cause slot).tap = s.tap ∧
    (s.threadFault t p cause slot).ports = s.ports ∧
    (s.threadFault t p cause slot).pho = s.pho ∧
    (s.threadFault t p cause slot).fab = s.fab ∧
    (s.threadFault t p cause slot).mesh = s.mesh ∧
    (s.threadFault t p cause slot).freeCtr = s.freeCtr ∧
    (s.threadFault t p cause slot).pending = s.pending := by
  unfold State.threadFault
  try dsimp only
  repeat' split
  all_goals simp

@[simp] theorem State.setS_rest (s : State) (t : ThreadId) (r : SReg) (v : W64) :
    (s.setS t r v).aon = s.aon ∧
    (s.setS t r v).dict = s.dict ∧
    (s.setS t r v).ledger = s.ledger ∧
    (s.setS t r v).link = s.link ∧
    (s.setS t r v).store = s.store ∧
    (s.setS t r v).parts = s.parts ∧
    (s.setS t r v).rings = s.rings ∧
    (s.setS t r v).cores = s.cores ∧
    (s.setS t r v).tap = s.tap ∧
    (s.setS t r v).ports = s.ports ∧
    (s.setS t r v).pho = s.pho ∧
    (s.setS t r v).fab = s.fab ∧
    (s.setS t r v).mesh = s.mesh ∧
    (s.setS t r v).freeCtr = s.freeCtr ∧
    (s.setS t r v).pending = s.pending := by
  simp [State.setS]

@[simp] theorem State.setP_rest (s : State) (t : ThreadId) (r : PReg) (v : Bool) :
    (s.setP t r v).aon = s.aon ∧
    (s.setP t r v).dict = s.dict ∧
    (s.setP t r v).ledger = s.ledger ∧
    (s.setP t r v).link = s.link ∧
    (s.setP t r v).store = s.store ∧
    (s.setP t r v).parts = s.parts ∧
    (s.setP t r v).rings = s.rings ∧
    (s.setP t r v).cores = s.cores ∧
    (s.setP t r v).tap = s.tap ∧
    (s.setP t r v).ports = s.ports ∧
    (s.setP t r v).pho = s.pho ∧
    (s.setP t r v).fab = s.fab ∧
    (s.setP t r v).mesh = s.mesh ∧
    (s.setP t r v).freeCtr = s.freeCtr ∧
    (s.setP t r v).pending = s.pending := by
  simp [State.setP]

@[simp] theorem State.wakeChans_rest (s : State) (l : List Nat) :
    (s.wakeChans l).aon = s.aon ∧
    (s.wakeChans l).dict = s.dict ∧
    (s.wakeChans l).ledger = s.ledger ∧
    (s.wakeChans l).link = s.link ∧
    (s.wakeChans l).parts = s.parts ∧
    (s.wakeChans l).rings = s.rings ∧
    (s.wakeChans l).threads = s.threads ∧
    (s.wakeChans l).cores = s.cores ∧
    (s.wakeChans l).tap = s.tap ∧
    (s.wakeChans l).ports = s.ports ∧
    (s.wakeChans l).pho = s.pho ∧
    (s.wakeChans l).fab = s.fab ∧
    (s.wakeChans l).mesh = s.mesh ∧
    (s.wakeChans l).freeCtr = s.freeCtr ∧
    (s.wakeChans l).pending = s.pending := by
  unfold State.wakeChans
  try dsimp only
  repeat' split
  all_goals simp

/-- What no step of a walk over a list changes, the walk does not. -/
theorem State.forEach_same {α β : Type} (g : State → β) {f : State → α → State} (h : ∀ u a, g (f u a) = g u) :
    ∀ {l : List α} {s : State}, g (s.forEach l f) = g s := by
  intro l
  induction l with
  | nil => intro s; rfl
  | cons a l ih => intro s; exact ih.trans (h s a)

@[simp] theorem State.takeLines_rest (s : State) (a : Asker) (l : List Nat) :
    (s.takeLines a l).aon = s.aon ∧
    (s.takeLines a l).ledger = s.ledger ∧
    (s.takeLines a l).link = s.link ∧
    (s.takeLines a l).parts = s.parts ∧
    (s.takeLines a l).rings = s.rings ∧
    (s.takeLines a l).threads = s.threads ∧
    (s.takeLines a l).cores = s.cores ∧
    (s.takeLines a l).tap = s.tap ∧
    (s.takeLines a l).ports = s.ports ∧
    (s.takeLines a l).pho = s.pho ∧
    (s.takeLines a l).fab = s.fab ∧
    (s.takeLines a l).mesh = s.mesh ∧
    (s.takeLines a l).freeCtr = s.freeCtr ∧
    (s.takeLines a l).pending = s.pending := by
  unfold State.takeLines
  try dsimp only
  repeat' split
  all_goals simp

@[simp] theorem State.countLines_rest (s : State) (a : Asker) (o n : Nat) :
    (s.countLines a o n).aon = s.aon ∧
    (s.countLines a o n).ledger = s.ledger ∧
    (s.countLines a o n).link = s.link ∧
    (s.countLines a o n).parts = s.parts ∧
    (s.countLines a o n).rings = s.rings ∧
    (s.countLines a o n).threads = s.threads ∧
    (s.countLines a o n).cores = s.cores ∧
    (s.countLines a o n).tap = s.tap ∧
    (s.countLines a o n).ports = s.ports ∧
    (s.countLines a o n).pho = s.pho ∧
    (s.countLines a o n).fab = s.fab ∧
    (s.countLines a o n).mesh = s.mesh ∧
    (s.countLines a o n).freeCtr = s.freeCtr ∧
    (s.countLines a o n).pending = s.pending := by
  unfold State.countLines
  try dsimp only
  repeat' split
  all_goals simp

@[simp] theorem State.markWord_rest (s : State) (o : Nat) :
    (s.markWord o).aon = s.aon ∧
    (s.markWord o).ledger = s.ledger ∧
    (s.markWord o).link = s.link ∧
    (s.markWord o).parts = s.parts ∧
    (s.markWord o).rings = s.rings ∧
    (s.markWord o).threads = s.threads ∧
    (s.markWord o).cores = s.cores ∧
    (s.markWord o).tap = s.tap ∧
    (s.markWord o).ports = s.ports ∧
    (s.markWord o).pho = s.pho ∧
    (s.markWord o).fab = s.fab ∧
    (s.markWord o).mesh = s.mesh ∧
    (s.markWord o).freeCtr = s.freeCtr ∧
    (s.markWord o).pending = s.pending := by
  unfold State.markWord
  try dsimp only
  repeat' split
  all_goals simp

@[simp] theorem State.uncorrectable_rest (s : State) (o : Nat) :
    (s.uncorrectable o).ledger = s.ledger ∧
    (s.uncorrectable o).link = s.link ∧
    (s.uncorrectable o).parts = s.parts ∧
    (s.uncorrectable o).rings = s.rings ∧
    (s.uncorrectable o).threads = s.threads ∧
    (s.uncorrectable o).cores = s.cores ∧
    (s.uncorrectable o).tap = s.tap ∧
    (s.uncorrectable o).ports = s.ports ∧
    (s.uncorrectable o).pho = s.pho ∧
    (s.uncorrectable o).fab = s.fab ∧
    (s.uncorrectable o).mesh = s.mesh ∧
    (s.uncorrectable o).freeCtr = s.freeCtr ∧
    (s.uncorrectable o).pending = s.pending := by
  unfold State.uncorrectable
  try dsimp only
  repeat' split
  all_goals simp

@[simp] theorem State.corrected_rest (s : State) (o : Nat) :
    (s.corrected o).aon = s.aon ∧
    (s.corrected o).ledger = s.ledger ∧
    (s.corrected o).link = s.link ∧
    (s.corrected o).parts = s.parts ∧
    (s.corrected o).rings = s.rings ∧
    (s.corrected o).threads = s.threads ∧
    (s.corrected o).cores = s.cores ∧
    (s.corrected o).tap = s.tap ∧
    (s.corrected o).ports = s.ports ∧
    (s.corrected o).pho = s.pho ∧
    (s.corrected o).fab = s.fab ∧
    (s.corrected o).mesh = s.mesh ∧
    (s.corrected o).freeCtr = s.freeCtr ∧
    (s.corrected o).pending = s.pending := by
  unfold State.corrected
  try dsimp only
  repeat' split
  all_goals simp

@[simp] theorem State.checkRead_rest (s : State) (o n : Nat) :
    (s.checkRead o n).ledger = s.ledger ∧
    (s.checkRead o n).link = s.link ∧
    (s.checkRead o n).parts = s.parts ∧
    (s.checkRead o n).rings = s.rings ∧
    (s.checkRead o n).threads = s.threads ∧
    (s.checkRead o n).cores = s.cores ∧
    (s.checkRead o n).tap = s.tap ∧
    (s.checkRead o n).ports = s.ports ∧
    (s.checkRead o n).pho = s.pho ∧
    (s.checkRead o n).fab = s.fab ∧
    (s.checkRead o n).mesh = s.mesh ∧
    (s.checkRead o n).freeCtr = s.freeCtr ∧
    (s.checkRead o n).pending = s.pending := by
  unfold State.checkRead
  refine ⟨?_, ?_, ?_, ?_, ?_, ?_, ?_, ?_, ?_, ?_, ?_, ?_, ?_⟩
  · exact (State.forEach_same (fun t => t.ledger) (by simp)).trans (State.forEach_same (fun t => t.ledger) (by simp))
  · exact (State.forEach_same (fun t => t.link) (by simp)).trans (State.forEach_same (fun t => t.link) (by simp))
  · exact (State.forEach_same (fun t => t.parts) (by simp)).trans (State.forEach_same (fun t => t.parts) (by simp))
  · exact (State.forEach_same (fun t => t.rings) (by simp)).trans (State.forEach_same (fun t => t.rings) (by simp))
  · exact (State.forEach_same (fun t => t.threads) (by simp)).trans (State.forEach_same (fun t => t.threads) (by simp))
  · exact (State.forEach_same (fun t => t.cores) (by simp)).trans (State.forEach_same (fun t => t.cores) (by simp))
  · exact (State.forEach_same (fun t => t.tap) (by simp)).trans (State.forEach_same (fun t => t.tap) (by simp))
  · exact (State.forEach_same (fun t => t.ports) (by simp)).trans (State.forEach_same (fun t => t.ports) (by simp))
  · exact (State.forEach_same (fun t => t.pho) (by simp)).trans (State.forEach_same (fun t => t.pho) (by simp))
  · exact (State.forEach_same (fun t => t.fab) (by simp)).trans (State.forEach_same (fun t => t.fab) (by simp))
  · exact (State.forEach_same (fun t => t.mesh) (by simp)).trans (State.forEach_same (fun t => t.mesh) (by simp))
  · exact (State.forEach_same (fun t => t.freeCtr) (by simp)).trans (State.forEach_same (fun t => t.freeCtr) (by simp))
  · exact (State.forEach_same (fun t => t.pending) (by simp)).trans (State.forEach_same (fun t => t.pending) (by simp))

@[simp] theorem State.checkWrite_rest (s : State) (ws : List WByte) :
    (s.checkWrite ws).ledger = s.ledger ∧
    (s.checkWrite ws).link = s.link ∧
    (s.checkWrite ws).parts = s.parts ∧
    (s.checkWrite ws).rings = s.rings ∧
    (s.checkWrite ws).threads = s.threads ∧
    (s.checkWrite ws).cores = s.cores ∧
    (s.checkWrite ws).tap = s.tap ∧
    (s.checkWrite ws).ports = s.ports ∧
    (s.checkWrite ws).pho = s.pho ∧
    (s.checkWrite ws).fab = s.fab ∧
    (s.checkWrite ws).mesh = s.mesh ∧
    (s.checkWrite ws).freeCtr = s.freeCtr ∧
    (s.checkWrite ws).pending = s.pending := by
  unfold State.checkWrite
  dsimp only
  refine ⟨?_, ?_, ?_, ?_, ?_, ?_, ?_, ?_, ?_, ?_, ?_, ?_, ?_⟩
  · exact (State.forEach_same (fun t => t.ledger) (by simp)).trans (State.forEach_same (fun t => t.ledger) (by simp))
  · exact (State.forEach_same (fun t => t.link) (by simp)).trans (State.forEach_same (fun t => t.link) (by simp))
  · exact (State.forEach_same (fun t => t.parts) (by simp)).trans (State.forEach_same (fun t => t.parts) (by simp))
  · exact (State.forEach_same (fun t => t.rings) (by simp)).trans (State.forEach_same (fun t => t.rings) (by simp))
  · exact (State.forEach_same (fun t => t.threads) (by simp)).trans (State.forEach_same (fun t => t.threads) (by simp))
  · exact (State.forEach_same (fun t => t.cores) (by simp)).trans (State.forEach_same (fun t => t.cores) (by simp))
  · exact (State.forEach_same (fun t => t.tap) (by simp)).trans (State.forEach_same (fun t => t.tap) (by simp))
  · exact (State.forEach_same (fun t => t.ports) (by simp)).trans (State.forEach_same (fun t => t.ports) (by simp))
  · exact (State.forEach_same (fun t => t.pho) (by simp)).trans (State.forEach_same (fun t => t.pho) (by simp))
  · exact (State.forEach_same (fun t => t.fab) (by simp)).trans (State.forEach_same (fun t => t.fab) (by simp))
  · exact (State.forEach_same (fun t => t.mesh) (by simp)).trans (State.forEach_same (fun t => t.mesh) (by simp))
  · exact (State.forEach_same (fun t => t.freeCtr) (by simp)).trans (State.forEach_same (fun t => t.freeCtr) (by simp))
  · exact (State.forEach_same (fun t => t.pending) (by simp)).trans (State.forEach_same (fun t => t.pending) (by simp))

@[simp] theorem State.putBytes_rest (s : State) (ws : List WByte) :
    (s.putBytes ws).aon = s.aon ∧
    (s.putBytes ws).dict = s.dict ∧
    (s.putBytes ws).ledger = s.ledger ∧
    (s.putBytes ws).link = s.link ∧
    (s.putBytes ws).parts = s.parts ∧
    (s.putBytes ws).rings = s.rings ∧
    (s.putBytes ws).threads = s.threads ∧
    (s.putBytes ws).cores = s.cores ∧
    (s.putBytes ws).tap = s.tap ∧
    (s.putBytes ws).ports = s.ports ∧
    (s.putBytes ws).pho = s.pho ∧
    (s.putBytes ws).fab = s.fab ∧
    (s.putBytes ws).mesh = s.mesh ∧
    (s.putBytes ws).freeCtr = s.freeCtr ∧
    (s.putBytes ws).pending = s.pending := by
  unfold State.putBytes
  try dsimp only
  repeat' split
  all_goals simp

@[simp] theorem State.guardDrop_rest (s : State) (ws : List WByte) :
    (s.guardDrop ws).ledger = s.ledger ∧
    (s.guardDrop ws).store = s.store ∧
    (s.guardDrop ws).parts = s.parts ∧
    (s.guardDrop ws).rings = s.rings ∧
    (s.guardDrop ws).threads = s.threads ∧
    (s.guardDrop ws).cores = s.cores ∧
    (s.guardDrop ws).tap = s.tap ∧
    (s.guardDrop ws).ports = s.ports ∧
    (s.guardDrop ws).pho = s.pho ∧
    (s.guardDrop ws).fab = s.fab ∧
    (s.guardDrop ws).mesh = s.mesh ∧
    (s.guardDrop ws).freeCtr = s.freeCtr ∧
    (s.guardDrop ws).pending = s.pending := by
  unfold State.guardDrop
  try dsimp only
  repeat' split
  all_goals simp

@[simp] theorem State.storeWrite_rest (s : State) (a : Asker) (ws : List WByte) :
    (s.storeWrite a ws).ledger = s.ledger ∧
    (s.storeWrite a ws).parts = s.parts ∧
    (s.storeWrite a ws).rings = s.rings ∧
    (s.storeWrite a ws).threads = s.threads ∧
    (s.storeWrite a ws).cores = s.cores ∧
    (s.storeWrite a ws).tap = s.tap ∧
    (s.storeWrite a ws).ports = s.ports ∧
    (s.storeWrite a ws).pho = s.pho ∧
    (s.storeWrite a ws).fab = s.fab ∧
    (s.storeWrite a ws).mesh = s.mesh ∧
    (s.storeWrite a ws).freeCtr = s.freeCtr ∧
    (s.storeWrite a ws).pending = s.pending := by
  unfold State.storeWrite
  try dsimp only
  repeat' split
  all_goals simp

end Sys2Proof.Machine
end

