-- ==== Sys2Proof/Laws/Registers.lean ====
section
/-!
SUPPORT. Scalar and predicate registers: s0 and p0 are fixed, another register reads as what was written to it, and a
write leaves everything else of the thread as it was.
-/
namespace Sys2Proof.Machine

@[simp] theorem Thread.sget_zero (h : Thread) : h.sget 0 = 0 := rfl
@[simp] theorem Thread.pget_zero (h : Thread) : h.pget 0 = true := rfl
@[simp] theorem Thread.sset_zero (h : Thread) (v : W64) : h.sset 0 v = h := rfl
@[simp] theorem Thread.pset_zero (h : Thread) (v : Bool) : h.pset 0 v = h := rfl

/-- What a scalar register reads as after a write. -/
theorem Thread.sget_sset (h : Thread) (d r : SReg) (v : W64) :
    (h.sset d v).sget r = if r = d ∧ d ≠ 0 then v else h.sget r := by
  unfold Thread.sset
  by_cases hd : d = 0
  · simp [hd]
  · by_cases hr : r = 0
    · subst hr
      simp [Ne.symm hd]
    · by_cases e : d = r
      · subst e; simp [Thread.sget, hd]
      · simp [Thread.sget, hd, hr, e, Ne.symm e, vset_get_ne]

/-- What a predicate register reads as after a write. -/
theorem Thread.pget_pset (h : Thread) (d r : PReg) (v : Bool) :
    (h.pset d v).pget r = if r = d ∧ d ≠ 0 then v else h.pget r := by
  unfold Thread.pset
  by_cases hd : d = 0
  · simp [hd]
  · by_cases hr : r = 0
    · subst hr
      simp [Ne.symm hd]
    · by_cases e : d = r
      · subst e; simp [Thread.pget, hd]
      · simp [Thread.pget, hd, hr, e, Ne.symm e, vset_get_ne]

/-- The thread after a write of a scalar register, the register apart. -/
theorem Thread.sset_rest (h : Thread) (d : SReg) (v : W64) : { h.sset d v with s := h.s } = h := by
  unfold Thread.sset; split <;> rfl

/-- The thread after a write of a predicate register, the register apart. -/
theorem Thread.pset_rest (h : Thread) (d : PReg) (v : Bool) : { h.pset d v with p := h.p } = h := by
  unfold Thread.pset; split <;> rfl

@[simp] theorem Thread.sset_priv (h : Thread) (d : SReg) (v : W64) : (h.sset d v).priv = h.priv := by
  unfold Thread.sset; split <;> rfl
@[simp] theorem Thread.pset_priv (h : Thread) (d : PReg) (v : Bool) : (h.pset d v).priv = h.priv := by
  unfold Thread.pset; split <;> rfl
@[simp] theorem Thread.sset_wait (h : Thread) (d : SReg) (v : W64) : (h.sset d v).wait = h.wait := by
  unfold Thread.sset; split <;> rfl
@[simp] theorem Thread.pset_wait (h : Thread) (d : PReg) (v : Bool) : (h.pset d v).wait = h.wait := by
  unfold Thread.pset; split <;> rfl
@[simp] theorem Thread.sset_cl (h : Thread) (d : SReg) (v : W64) : (h.sset d v).cl = h.cl := by
  unfold Thread.sset; split <;> rfl
@[simp] theorem Thread.pset_cl (h : Thread) (d : PReg) (v : Bool) : (h.pset d v).cl = h.cl := by
  unfold Thread.pset; split <;> rfl
@[simp] theorem Thread.sset_p (h : Thread) (d : SReg) (v : W64) : (h.sset d v).p = h.p := by
  unfold Thread.sset; split <;> rfl
@[simp] theorem Thread.pset_s (h : Thread) (d : PReg) (v : Bool) : (h.pset d v).s = h.s := by
  unfold Thread.pset; split <;> rfl

end Sys2Proof.Machine
end

