-- ==== Sys2Proof/Laws/Insns.lean ====
section
/-!
SUPPORT. One instruction of a thread: when its thread may step and the instruction is legal, `insn` is `runCtl`.
-/
namespace Sys2Proof.Machine

/-- Setting an element to what it is changes nothing. -/
theorem vmod_same {α : Type} {n : Nat} (v : Vector α n) (i : Fin n) (f : α → α) (h : f v[i] = v[i]) : vmod v i f = v := by
  apply Vector.ext
  intro j hj
  have := vmod_get v i ⟨j, hj⟩ f
  simp only [Fin.getElem_fin] at this
  rw [this]
  split
  · next e => subst e; exact h
  · rfl

theorem State.onThread_same (s : State) (t : ThreadId) (f : Thread → Thread) (h : f s.threads[t] = s.threads[t]) :
    s.onThread t f = s := by
  unfold State.onThread
  rw [vmod_same _ _ _ h]

/-- A thread that may execute serves the partition, may step, and waits for nothing. -/
theorem State.ready_iff (s : State) (t : ThreadId) (p : PartId) :
    s.ready t = some p ↔ s.threadPart t = some p ∧ s.threadGo t p = true ∧ s.threads[t].wait = .none := by
  unfold State.ready
  split
  · next e => simp [e]
  · next q e =>
    rw [e]
    constructor
    · intro h
      split at h
      · next hc => cases h; exact ⟨rfl, hc⟩
      · cases h
    · rintro ⟨h, hg, hw⟩
      cases h
      rw [if_pos ⟨hg, hw⟩]

theorem State.ready_wait {s : State} {t : ThreadId} {p : PartId} (h : s.ready t = some p) : s.threads[t].wait = .none :=
  ((s.ready_iff t p).1 h).2.2

/-- A legal instruction that leaves its thread at no memo wait is its effect. -/
theorem State.insn_eq {s u : State} {t : ThreadId} {p : PartId} {imm : W64} {o : CtlOp} {n : Next}
    (hr : s.ready t = some p) (hc : s.ctlCause t p o = none) (hw : o.wf = true) (he : s.runCtl t p imm 1 o = (u, n))
    (hu : ∀ k, u.threads[t].wait ≠ .memo k none) : s.insn t imm o = u := by
  unfold State.insn
  simp only [hr, hc, hw, if_true, he]
  apply State.onThread_same
  split
  · next k e => exact absurd e (hu k)
  · rfl

/-- An instruction that no check refuses, and that writes a scalar register. -/
theorem State.insn_setS {s : State} {t : ThreadId} {p : PartId} {imm : W64} {o : CtlOp} {d : SReg} {v : W64} {n : Next}
    (hr : s.ready t = some p) (hc : s.ctlCause t p o = none) (hw : o.wf = true)
    (he : s.runCtl t p imm 1 o = (s.setS t d v, n)) : s.insn t imm o = s.setS t d v := by
  refine State.insn_eq hr hc hw he (fun k => ?_)
  have e := State.ready_wait hr
  simp only [Fin.getElem_fin] at e
  simp [State.setS, e]

/-- An instruction that no check refuses, and that writes a predicate register. -/
theorem State.insn_setP {s : State} {t : ThreadId} {p : PartId} {imm : W64} {o : CtlOp} {d : PReg} {v : Bool} {n : Next}
    (hr : s.ready t = some p) (hc : s.ctlCause t p o = none) (hw : o.wf = true)
    (he : s.runCtl t p imm 1 o = (s.setP t d v, n)) : s.insn t imm o = s.setP t d v := by
  refine State.insn_eq hr hc hw he (fun k => ?_)
  have e := State.ready_wait hr
  simp only [Fin.getElem_fin] at e
  simp [State.setP, e]

/-- An illegal instruction stops its thread as a malformed clause does (R311). -/
theorem State.insn_illegal {s : State} {t : ThreadId} {p : PartId} {imm : W64} {o : CtlOp} {c : Nat}
    (hr : s.ready t = some p) (hc : s.ctlCause t p o = some c) : s.insn t imm o = s.threadFault t p c 1 := by
  unfold State.insn
  simp only [hr, hc]

/-- On a control core every instruction but lset, ldbnz and wset is legal (R307, R309). -/
theorem State.ctlCause_control {s : State} {t : ThreadId} {p : PartId} {o : CtlOp} (ht : 64 ≤ t.val)
    (h1 : ∀ k v, o ≠ .lset k v) (h2 : ∀ k v, o ≠ .ldbnz k v) (h3 : ∀ c w f r v, o ≠ .wset c w f r v) :
    s.ctlCause t p o = none := by
  unfold State.ctlCause
  rw [if_neg (by omega)]
  cases o
  case lset k v => exact absurd rfl (h1 k v)
  case ldbnz k v => exact absurd rfl (h2 k v)
  case wset c w f r v => exact absurd rfl (h3 c w f r v)
  all_goals rfl

end Sys2Proof.Machine
end

