-- ==== Sys2Proof/Laws/Ledger.lean ====
section
/-!
SUPPORT. Every movement of Table 5-1 keeps the relations of R147.
-/
namespace Sys2Proof.Machine

/-- The sum of a figure over a list of sub-ledgers, after one of them has changed. -/
theorem Sub.sum_set (f : Sub → Int) (x : Sub) : ∀ (l : List Sub) (i : Nat) (h : i < l.length),
    (l.set i x).foldr (fun b t => f b + t) 0 = l.foldr (fun b t => f b + t) 0 + (f x - f l[i]) := by
  intro l
  induction l with
  | nil => intro i h; simp at h
  | cons a l ih =>
    intro i h
    cases i with
    | zero => simp; omega
    | succ i =>
      have := ih i (by simpa using h)
      simp only [List.set_cons_succ, List.foldr_cons, List.getElem_cons_succ, this]
      omega

/-- The sum of a figure over the sub-ledgers, after that of `p` has changed. -/
theorem Ledger.sum_vmod (l : Ledger) (f : Sub → Int) (p : PartId) (g : Sub → Sub) :
    ({ l with subs := vmod l.subs p g } : Ledger).sum f = l.sum f + (f (g l.subs[p]) - f l.subs[p]) := by
  simp only [Ledger.sum, vmod, vset, Vector.toList_set]
  exact Sub.sum_set f _ _ _ (by simp)

theorem Ledger.ok_iff (l : Ledger) : l.ok = true ↔
    l.deposits = l.pool + l.poolSpent + l.sum (fun b => b.balance + b.reserved + b.spent) ∧
      l.totalReserved = l.sum Sub.reserved ∧ l.totalSpent = l.poolSpent + l.sum Sub.spent := by
  simp [Ledger.ok, and_assoc]

theorem Ledger.deposit_ok {l : Ledger} (d : Int) (h : l.ok = true) : (l.deposit d).ok = true := by
  rw [Ledger.ok_iff] at h ⊢
  simp only [Ledger.deposit, Ledger.sum] at h ⊢
  omega

theorem Ledger.grant_ok {l : Ledger} (p : PartId) (g : Int) (h : l.ok = true) : (l.grant p g).ok = true := by
  rw [Ledger.ok_iff] at h ⊢
  have e1 := l.sum_vmod (fun b => b.balance + b.reserved + b.spent) p (fun b => { b with balance := b.balance + g })
  have e2 := l.sum_vmod Sub.reserved p (fun b => { b with balance := b.balance + g })
  have e3 := l.sum_vmod Sub.spent p (fun b => { b with balance := b.balance + g })
  simp only [Ledger.grant, Ledger.sum] at h e1 e2 e3 ⊢
  omega

theorem Ledger.reserve_ok {l : Ledger} (p : PartId) (r : Int) (h : l.ok = true) : (l.reserve p r).ok = true := by
  rw [Ledger.ok_iff] at h ⊢
  have e1 := l.sum_vmod (fun b => b.balance + b.reserved + b.spent) p
    (fun b => { b with balance := b.balance - r, reserved := b.reserved + r })
  have e2 := l.sum_vmod Sub.reserved p (fun b => { b with balance := b.balance - r, reserved := b.reserved + r })
  have e3 := l.sum_vmod Sub.spent p (fun b => { b with balance := b.balance - r, reserved := b.reserved + r })
  simp only [Ledger.reserve, Ledger.sum] at h e1 e2 e3 ⊢
  omega

theorem Ledger.settle_ok {l : Ledger} (p : PartId) (res e : Int) (h : l.ok = true) : (l.settle p res e).ok = true := by
  rw [Ledger.ok_iff] at h ⊢
  let g : Sub → Sub := fun b => { balance := b.balance + (res - e), reserved := b.reserved - res, spent := b.spent + e }
  have e1 := l.sum_vmod (fun b => b.balance + b.reserved + b.spent) p g
  have e2 := l.sum_vmod Sub.reserved p g
  have e3 := l.sum_vmod Sub.spent p g
  simp only [Ledger.settle, Ledger.sum, g] at h e1 e2 e3 ⊢
  omega

theorem Ledger.baseCharge_ok {l : Ledger} (b : Int) (h : l.ok = true) : (l.baseCharge b).ok = true := by
  rw [Ledger.ok_iff] at h ⊢
  simp only [Ledger.baseCharge, Ledger.sum] at h ⊢
  omega

theorem Ledger.withResidue_ok {l : Ledger} (pj : Nat) (h : l.ok = true) : (l.withResidue pj).ok = true := by
  rw [Ledger.ok_iff] at h ⊢
  simpa only [Ledger.withResidue, Ledger.sum] using h

theorem Ledger.reset_ok : Ledger.reset.ok = true := by decide

end Sys2Proof.Machine
end

