-- ==== Sys2Proof/Laws/Keeps.lean ====
section
/-!
SUPPORT. What almost every operation keeps, said once: `Keeps s t` says that `t` follows from `s` with the queue, the tick
number and the straps unchanged and the promises of Safety kept. Each operation of the model has one lemma `…_keeps`, in
the form that chains: from `Keeps s u` follows `Keeps s (u.operation …)`.
-/
namespace Sys2Proof.Machine

open Sys2Proof.Safety

/-- `t` follows from `s` with queue, tick and straps unchanged, and keeps the promises. -/
structure Keeps (s t : State) : Prop where
  pending : t.pending = s.pending
  tick : t.aon.tick = s.aon.tick
  node : t.aon.node = s.aon.node
  sled : t.aon.sled = s.aon.sled
  sound : sound s → sound t

/-- `t` follows from `s` with the queue unchanged, and keeps the promises. -/
structure Holds (s t : State) : Prop where
  pending : t.pending = s.pending
  sound : sound s → sound t

theorem Keeps.refl (s : State) : Keeps s s := ⟨rfl, rfl, rfl, rfl, id⟩

theorem Keeps.trans {s t u : State} (h : Keeps s t) (k : Keeps t u) : Keeps s u :=
  ⟨k.pending.trans h.pending, k.tick.trans h.tick, k.node.trans h.node, k.sled.trans h.sled, fun x => k.sound (h.sound x)⟩

theorem Keeps.holds {s t : State} (h : Keeps s t) : Holds s t := ⟨h.pending, h.sound⟩

theorem Holds.refl (s : State) : Holds s s := ⟨rfl, id⟩

theorem Holds.trans {s t u : State} (h : Holds s t) (k : Holds t u) : Holds s u :=
  ⟨k.pending.trans h.pending, fun x => k.sound (h.sound x)⟩

theorem Keeps.ite {s a b : State} {c : Prop} [Decidable c] (ha : Keeps s a) (hb : Keeps s b) :
    Keeps s (if c then a else b) := by
  split
  · exact ha
  · exact hb

/-- Only the units that `Keeps` speaks of matter. -/
theorem Keeps.same {s u v : State} (h : Keeps s u) (e1 : v.aon = u.aon) (e2 : v.dict = u.dict) (e3 : v.ledger = u.ledger)
    (e4 : v.store = u.store) (e5 : v.threads = u.threads) (e6 : v.pending = u.pending) : Keeps s v :=
  ⟨e6.trans h.pending, (congrArg Aon.tick e1).trans h.tick, (congrArg Aon.node e1).trans h.node,
    (congrArg Aon.sled e1).trans h.sled, fun x => by
      have y := h.sound x
      simp only [Safety.sound, ledgerOk, memoriesOk, mapsOk, e2, e3, e4, e5] at y ⊢
      exact y⟩

theorem Keeps.fst {β : Type} {s a : State} {b : β} {x : State × β} (e : x = (a, b)) (h : Keeps s x.1) : Keeps s a := by
  rw [e] at h; exact h

theorem Keeps.snd {β : Type} {s a : State} {b : β} {x : β × State} (e : x = (b, a)) (h : Keeps s x.2) : Keeps s a := by
  rw [e] at h; exact h

theorem Keeps.onAon {s u : State} (h : Keeps s u) {f : Aon → Aon}
    (hf : (f u.aon).tick = u.aon.tick ∧ (f u.aon).node = u.aon.node ∧ (f u.aon).sled = u.aon.sled) :
    Keeps s (u.onAon f) :=
  ⟨h.pending, hf.1.trans h.tick, hf.2.1.trans h.node, hf.2.2.trans h.sled, h.sound⟩

theorem Keeps.onMood {s u : State} (h : Keeps s u) (f : MoodSt → MoodSt) : Keeps s (u.onMood f) :=
  ⟨h.pending, h.tick, h.node, h.sled, h.sound⟩

theorem Keeps.onLedger {s u : State} (h : Keeps s u) {f : Ledger → Ledger}
    (hf : u.ledger.ok = true → (f u.ledger).ok = true) : Keeps s (u.onLedger f) :=
  ⟨h.pending, h.tick, h.node, h.sled, fun x => ⟨hf (h.sound x).1, (h.sound x).2⟩⟩

theorem Keeps.onLink {s u : State} (h : Keeps s u) (f : Link → Link) : Keeps s (u.onLink f) :=
  ⟨h.pending, h.tick, h.node, h.sled, h.sound⟩

theorem Keeps.onPart {s u : State} (h : Keeps s u) (p : PartId) (f : Part → Part) : Keeps s (u.onPart p f) :=
  ⟨h.pending, h.tick, h.node, h.sled, h.sound⟩

theorem Keeps.onRing {s u : State} (h : Keeps s u) (r : Fin 80) (f : RingPos → RingPos) : Keeps s (u.onRing r f) :=
  ⟨h.pending, h.tick, h.node, h.sled, h.sound⟩

theorem Keeps.onCore {s u : State} (h : Keeps s u) (c : CoreId) (f : CoreSt → CoreSt) : Keeps s (u.onCore c f) :=
  ⟨h.pending, h.tick, h.node, h.sled, h.sound⟩

theorem Keeps.onTap {s u : State} (h : Keeps s u) (c : ChanId) (f : TapCh → TapCh) : Keeps s (u.onTap c f) :=
  ⟨h.pending, h.tick, h.node, h.sled, h.sound⟩

theorem Keeps.onPort {s u : State} (h : Keeps s u) (q : PortId) (f : Port → Port) : Keeps s (u.onPort q f) :=
  ⟨h.pending, h.tick, h.node, h.sled, h.sound⟩

theorem Keeps.onPho {s u : State} (h : Keeps s u) (f : Photonics → Photonics) : Keeps s (u.onPho f) :=
  ⟨h.pending, h.tick, h.node, h.sled, h.sound⟩

theorem Keeps.onFab {s u : State} (h : Keeps s u) (f : Fabric → Fabric) : Keeps s (u.onFab f) :=
  ⟨h.pending, h.tick, h.node, h.sled, h.sound⟩

theorem Keeps.onMesh {s u : State} (h : Keeps s u) (f : Mesh → Mesh) : Keeps s (u.onMesh f) :=
  ⟨h.pending, h.tick, h.node, h.sled, h.sound⟩

theorem Keeps.tickFree {s u : State} (h : Keeps s u) : Keeps s u.tickFree :=
  ⟨h.pending, h.tick, h.node, h.sled, h.sound⟩

/-- The canonical form of a dictionary. -/
abbrev Dict.canon (d : Dict) : Prop :=
  SMap.wf objDflt d.act = true ∧ SMap.wf objDflt d.shd = true ∧ SMap.wf objDflt d.sgl = true ∧
    SMap.wf domDflt d.dact = true ∧ SMap.wf domDflt d.dshd = true ∧ SMap.wf domDflt d.dsgl = true

theorem Keeps.onDict {s u : State} (h : Keeps s u) {f : Dict → Dict} (hf : u.dict.canon → (f u.dict).canon) :
    Keeps s (u.onDict f) :=
  ⟨h.pending, h.tick, h.node, h.sled, fun x =>
    have y := (h.sound x).2.2
    have z := hf ⟨y.1, y.2.1, y.2.2.1, y.2.2.2.1, y.2.2.2.2.1, y.2.2.2.2.2.1⟩
    ⟨(h.sound x).1, (h.sound x).2.1, z.1, z.2.1, z.2.2.1, z.2.2.2.1, z.2.2.2.2.1, z.2.2.2.2.2, y.2.2.2.2.2.2⟩⟩

/-- The canonical form of the store. -/
abbrev Store.canon (m : Store) : Prop := Memory.wf m.mem = true ∧ SMap.wf (fun _ => 0) m.conj = true

theorem Keeps.onStore {s u : State} (h : Keeps s u) {f : Store → Store} (hf : u.store.canon → (f u.store).canon) :
    Keeps s (u.onStore f) :=
  ⟨h.pending, h.tick, h.node, h.sled, fun x =>
    have y := (h.sound x).2.2
    have m := (h.sound x).2.1
    have z := hf ⟨m.1, y.2.2.2.2.2.2⟩
    ⟨(h.sound x).1, ⟨z.1, m.2⟩, y.1, y.2.1, y.2.2.1, y.2.2.2.1, y.2.2.2.2.1, y.2.2.2.2.2.1, z.2⟩⟩

/-- A store whose memory and counters are those it was left with. -/
theorem Keeps.onStoreSame {s u : State} (h : Keeps s u) {f : Store → Store}
    (hf : (f u.store).mem = u.store.mem ∧ (f u.store).conj = u.store.conj) : Keeps s (u.onStore f) :=
  h.onStore (fun x => by rw [Store.canon, hf.1, hf.2]; exact x)

theorem Keeps.onThread {s u : State} (h : Keeps s u) (t : ThreadId) {f : Thread → Thread}
    (hf : Memory.wf u.threads[t].priv = true → Memory.wf (f u.threads[t]).priv = true) : Keeps s (u.onThread t f) :=
  ⟨h.pending, h.tick, h.node, h.sled, fun x => by
    refine ⟨(h.sound x).1, ⟨(h.sound x).2.1.1, fun i => ?_⟩, (h.sound x).2.2⟩
    simp only [State.onThread_threads, vmod_get]
    split
    · next e => subst e; exact hf ((h.sound x).2.1.2 t)
    · exact (h.sound x).2.1.2 i⟩

/-- A thread whose private memory is left as it is. -/
theorem Keeps.onThreadSame {s u : State} (h : Keeps s u) (t : ThreadId) {f : Thread → Thread}
    (hf : (f u.threads[t]).priv = u.threads[t].priv) : Keeps s (u.onThread t f) :=
  h.onThread t (fun x => by rw [hf]; exact x)

theorem State.forEach_keeps {α : Type} {s : State} {l : List α} {f : State → α → State}
    (hf : ∀ {u : State} (a : α), Keeps s u → Keeps s (f u a)) : ∀ {u : State}, Keeps s u → Keeps s (u.forEach l f) := by
  induction l with
  | nil => intro u h; exact h
  | cons a l ih => intro u h; exact ih (hf a h)

theorem foldl_keeps {α : Type} {s : State} {l : List α} {f : State → α → State}
    (hf : ∀ {u : State} (a : α), Keeps s u → Keeps s (f u a)) : ∀ {u : State}, Keeps s u → Keeps s (l.foldl f u) :=
  State.forEach_keeps hf

theorem foldl_fst_keeps {α β : Type} {s : State} {l : List α} {f : State × β → α → State × β}
    (hf : ∀ (x : State × β) (a : α), Keeps s x.1 → Keeps s (f x a).1) :
    ∀ {x : State × β}, Keeps s x.1 → Keeps s (l.foldl f x).1 := by
  induction l with
  | nil => intro x h; exact h
  | cons a l ih => intro x h; exact ih (hf x a h)

theorem Thread.reset_priv_wf : Memory.wf Thread.reset.priv = true := rfl

end Sys2Proof.Machine
end

