-- ==== Sys2Proof/Laws/KeepsOps.lean ====
section
/-!
SUPPORT. What the operations of Machine/Ops.lean keep.
-/
namespace Sys2Proof.Machine

open Sys2Proof.Safety

theorem State.setSgl_keeps {s u : State} (h : Keeps s u) (k : Nat) (v : Nat) : Keeps s (u.setSgl k v) :=
  h.onDict (fun x => ⟨x.1, x.2.1, SMap.set_wf k v x.2.2.1, x.2.2.2.1, x.2.2.2.2.1, x.2.2.2.2.2⟩)

theorem State.setAct_keeps {s u : State} (h : Keeps s u) (k : Nat) (v : Nat) : Keeps s (u.setAct k v) :=
  h.onDict (fun x => ⟨SMap.set_wf k v x.1, x.2.1, x.2.2.1, x.2.2.2.1, x.2.2.2.2.1, x.2.2.2.2.2⟩)

theorem State.setShd_keeps {s u : State} (h : Keeps s u) (k : Nat) (v : Nat) : Keeps s (u.setShd k v) :=
  h.onDict (fun x => ⟨x.1, SMap.set_wf k v x.2.1, x.2.2.1, x.2.2.2.1, x.2.2.2.2.1, x.2.2.2.2.2⟩)

theorem State.setDom_keeps {s u : State} (h : Keeps s u) (k : Nat) (v : List Byte) : Keeps s (u.setDom k v) :=
  h.onDict (fun x => ⟨x.1, x.2.1, x.2.2.1, x.2.2.2.1, x.2.2.2.2.1, SMap.set_wf k v x.2.2.2.2.2⟩)

theorem State.setDomShd_keeps {s u : State} (h : Keeps s u) (k : Nat) (v : List Byte) : Keeps s (u.setDomShd k v) :=
  h.onDict (fun x => ⟨x.1, x.2.1, x.2.2.1, x.2.2.2.1, SMap.set_wf k v x.2.2.2.2.1, x.2.2.2.2.2⟩)

theorem State.addSat_keeps {s u : State} (h : Keeps s u) (k n : Nat) :
    Keeps s (u.addSat k n) := by
  unfold State.addSat
  try dsimp only
  repeat' (first
    |(with_reducible (first | assumption | apply State.setSgl_keeps))
    | split)

theorem State.bump_keeps {s u : State} (h : Keeps s u) (k : Nat) :
    Keeps s (u.bump k) := by
  unfold State.bump
  try dsimp only
  repeat' (first
    |(with_reducible (first | assumption | apply State.addSat_keeps))
    | split)

theorem State.bump32_keeps {s u : State} (h : Keeps s u) (k : Nat) :
    Keeps s (u.bump32 k) := by
  unfold State.bump32
  try dsimp only
  repeat' (first
    |(with_reducible (first | assumption | apply State.setSgl_keeps))
    | split)

theorem State.add64_keeps {s u : State} (h : Keeps s u) (k n : Nat) :
    Keeps s (u.add64 k n) := by
  unfold State.add64
  try dsimp only
  repeat' (first
    |(with_reducible (first | assumption | apply State.setSgl_keeps))
    | split)

theorem State.output_keeps {s u : State} (h : Keeps s u) (o : Output) :
    Keeps s (u.output o) := by
  unfold State.output
  try dsimp only
  repeat' (first
    |(with_reducible (first | assumption | refine Keeps.onLink ?_ _))
    | split)

theorem State.msix_keeps {s u : State} (h : Keeps s u) (v : Nat) :
    Keeps s (u.msix v) := by
  unfold State.msix
  try dsimp only
  repeat' (first
    |(with_reducible (first | assumption | refine Keeps.onLink ?_ _ | apply State.output_keeps))
    | split)

theorem State.notify_keeps {s u : State} (h : Keeps s u) (src k value : Nat) :
    Keeps s (u.notify src k value) := by
  unfold State.notify
  try dsimp only
  repeat' (first
    |(with_reducible (first | assumption | refine Keeps.onLink ?_ _ | apply State.bump_keeps))
    | split)

theorem State.logRec_keeps {s u : State} (h : Keeps s u) (src sev part a b : Nat) :
    Keeps s (u.logRec src sev part a b) := by
  unfold State.logRec
  try dsimp only
  repeat' (first
    |(with_reducible (first
      | assumption | refine Keeps.onAon ?_ ⟨rfl, rfl, rfl⟩ | apply State.bump_keeps | apply State.add64_keeps
      | apply State.msix_keeps | apply State.notify_keeps | refine Keeps.fst (by assumption) ?_))
    | split)

end Sys2Proof.Machine
end

