-- ==== Sys2Proof/Laws/KeepsStore.lean ====
section
/-!
SUPPORT. What the operations of Machine/Store.lean keep.
-/
namespace Sys2Proof.Machine

open Sys2Proof.Safety

theorem State.wakeChans_keeps {s u : State} (h : Keeps s u) (l : List Nat) :
    Keeps s (u.wakeChans l) := by
  unfold State.wakeChans
  try dsimp only
  repeat' (first
    |(with_reducible (first | assumption | refine Keeps.onStoreSame ?_ ⟨rfl, rfl⟩))
    | split)

theorem State.takeLines_keeps {s u : State} (h : Keeps s u) (a : Asker) (l : List Nat) :
    Keeps s (u.takeLines a l) := by
  unfold State.takeLines
  try dsimp only
  repeat' (first
    |(with_reducible (first
      | assumption | refine Keeps.onStoreSame ?_ ⟨rfl, rfl⟩ | apply State.add64_keeps | apply State.wakeChans_keeps))
    | split)

theorem State.countLines_keeps {s u : State} (h : Keeps s u) (a : Asker) (off n : Nat) :
    Keeps s (u.countLines a off n) := by
  unfold State.countLines
  try dsimp only
  repeat' (first
    |(with_reducible (first
      | assumption | apply State.takeLines_keeps))
    | split)

theorem Memory.writeMasked_wf : ∀ (ws : List WByte) {m : Memory}, m.wf = true → (m.writeMasked ws).wf = true
  | [], _, h => h
  | _ :: ws, _, h => Memory.writeMasked_wf ws (Memory.write_wf _ _ h)

theorem State.putBytes_keeps {s u : State} (h : Keeps s u) (ws : List WByte) : Keeps s (u.putBytes ws) := by
  unfold State.putBytes
  exact Keeps.onStore h (fun x => ⟨Memory.writeMasked_wf _ x.1, x.2⟩)

theorem State.guardDrop_keeps {s u : State} (h : Keeps s u) (ws : List WByte) :
    Keeps s (u.guardDrop ws) := by
  unfold State.guardDrop
  try dsimp only
  repeat' (first
    |(with_reducible (first | assumption | apply State.bump_keeps | apply State.logRec_keeps))
    | split)

theorem State.countAddrFault_keeps {s u : State} (h : Keeps s u) :
    Keeps s (u.countAddrFault) := by
  unfold State.countAddrFault
  try dsimp only
  repeat' (first
    |(with_reducible (first | assumption | apply State.bump_keeps))
    | split)

theorem State.addrFaultRec_keeps {s u : State} (h : Keeps s u) (a b : Nat) :
    Keeps s (u.addrFaultRec a b) := by
  unfold State.addrFaultRec
  try dsimp only
  repeat' (first
    |(with_reducible (first | assumption | apply State.countAddrFault_keeps | apply State.logRec_keeps))
    | split)

theorem State.latch_keeps {s u : State} (h : Keeps s u) (e : Event) :
    Keeps s (u.latch e) := by
  unfold State.latch
  try dsimp only
  repeat' (first
    |(with_reducible (first | assumption | refine Keeps.onAon ?_ ⟨rfl, rfl, rfl⟩))
    | split)

theorem State.markWord_keeps {s u : State} (h : Keeps s u) (off : Nat) :
    Keeps s (u.markWord off) := by
  unfold State.markWord
  try dsimp only
  repeat' (first
    |(with_reducible (first
      | assumption | refine Keeps.onStoreSame ?_ ⟨rfl, rfl⟩ | apply State.bump_keeps | apply State.setSgl_keeps))
    | split)

theorem State.uncorrectable_keeps {s u : State} (h : Keeps s u) (off : Nat) :
    Keeps s (u.uncorrectable off) := by
  unfold State.uncorrectable
  try dsimp only
  repeat' (first
    |(with_reducible (first
      | assumption | apply State.markWord_keeps | apply State.latch_keeps))
    | split)

theorem State.corrected_keeps {s u : State} (h : Keeps s u) (off : Nat) :
    Keeps s (u.corrected off) := by
  unfold State.corrected
  try dsimp only
  repeat' (first
    |(with_reducible (first
      | assumption | refine Keeps.onStoreSame ?_ ⟨rfl, rfl⟩ | apply State.bump_keeps))
    | split)

theorem State.checkRead_keeps {s u : State} (h : Keeps s u) (off n : Nat) :
    Keeps s (u.checkRead off n) := by
  unfold State.checkRead
  try dsimp only
  repeat' (first
    |(with_reducible (first
      | assumption | refine State.forEach_keeps (fun _ k => ?_) ?_ | apply State.corrected_keeps | apply State.uncorrectable_keeps))
    | split)

theorem State.checkWrite_keeps {s u : State} (h : Keeps s u) (ws : List WByte) :
    Keeps s (u.checkWrite ws) := by
  unfold State.checkWrite
  try dsimp only
  repeat' (first
    |(with_reducible (first
      | assumption | refine State.forEach_keeps (fun _ k => ?_) ?_ | apply State.corrected_keeps | apply State.uncorrectable_keeps))
    | split)

theorem State.storeWrite_keeps {s u : State} (h : Keeps s u) (a : Asker) (ws : List WByte) :
    Keeps s (u.storeWrite a ws) := by
  unfold State.storeWrite
  try dsimp only
  repeat' (first
    |(with_reducible (first
      | assumption | apply State.putBytes_keeps | apply State.guardDrop_keeps | apply State.takeLines_keeps | apply State.checkWrite_keeps))
    | split)

theorem State.atomLocal_keeps {s u : State} (h : Keeps s u) (a : Asker) (code w off opnd cmp : Nat) :
    Keeps s ((u.atomLocal a code w off opnd cmp).2) := by
  unfold State.atomLocal
  try dsimp only
  repeat' (first
    |(with_reducible (first | assumption | apply State.storeWrite_keeps))
    | split)

end Sys2Proof.Machine
end

