-- ==== Sys2Proof/Laws/KeepsRouting.lean ====
section
/-!
SUPPORT. What the operations of Machine/Routing.lean keep.
-/
namespace Sys2Proof.Machine

open Sys2Proof.Safety

theorem State.creditsSent_keeps {s u : State} (h : Keeps s u) (q : PortId) :
    Keeps s (u.creditsSent q) := by
  unfold State.creditsSent
  try dsimp only
  repeat' (first
    |(with_reducible (first
      | assumption | refine Keeps.onPort ?_ _ _))
    | split)

theorem State.putFlit_keeps {s u : State} (h : Keeps s u) (q : PortId) (seq : BitVec 16) (ch : Nat) (nak : Bool)
    (switch : Option Nat) (credits : List Nat) (m : Option Msg) :
    Keeps s (u.putFlit q seq ch nak switch credits m) := by
  unfold State.putFlit
  try dsimp only
  repeat' (first
    |(with_reducible (first | assumption | refine Keeps.onPort ?_ _ _ | apply State.output_keeps))
    | split)

theorem State.putNull_keeps {s u : State} (h : Keeps s u) (q : PortId) (nak : Bool) (switch : Option Nat) :
    Keeps s (u.putNull q nak switch) := by
  unfold State.putNull
  try dsimp only
  repeat' (first
    |(with_reducible (first
      | assumption | apply State.putFlit_keeps | apply State.creditsSent_keeps))
    | split)

theorem State.sendFlit_keeps {s u : State} (h : Keeps s u) (q : PortId) (ch : Fin 5) (m : Msg) :
    Keeps s (u.sendFlit q ch m) := by
  unfold State.sendFlit
  try dsimp only
  repeat' (first
    |(with_reducible (first
      | assumption | refine Keeps.onPort ?_ _ _ | apply State.add64_keeps | apply State.putFlit_keeps
      | apply State.creditsSent_keeps))
    | split)

theorem State.trySend_keeps {s u : State} (h : Keeps s u) (m : Msg) (inPort : Option Nat) (inCh : Nat) :
    Keeps s ((u.trySend m inPort inCh).1) := by
  unfold State.trySend
  try dsimp only
  repeat' (first
    |(with_reducible (first | assumption | apply State.sendFlit_keeps | refine Keeps.onFab ?_ _))
    | split)

theorem State.drainFrom_keeps {s : State} : ∀ (l : List Msg) {u : State}, Keeps s u → Keeps s (u.drainFrom l)
  | [], _, h => h.onFab _
  | m :: ms, u, h => by
    unfold State.drainFrom
    split
    · next s' e => exact State.drainFrom_keeps ms ((Keeps.fst e (State.trySend_keeps h m none 0)).onFab _)
    · next s' e => exact (Keeps.fst e (State.trySend_keeps h m none 0)).onFab _

theorem State.drain_keeps {s u : State} (h : Keeps s u) :
    Keeps s (u.drain) := by
  unfold State.drain
  try dsimp only
  repeat' (first
    |(with_reducible (first | assumption | apply State.drainFrom_keeps))
    | split)

theorem State.sendMsg_keeps {s u : State} (h : Keeps s u) (m : Msg) :
    Keeps s (u.sendMsg m) := by
  unfold State.sendMsg
  try dsimp only
  repeat' (first
    |(with_reducible (first | assumption | refine Keeps.onFab ?_ _ | apply State.drain_keeps))
    | split)

end Sys2Proof.Machine
end

