-- ==== Sys2Proof/Laws/KeepsConj.lean ====
section
/-!
SUPPORT. What the operations of Machine/Conj.lean keep.
-/
namespace Sys2Proof.Machine

open Sys2Proof.Safety

theorem State.setConj_keeps {s u : State} (h : Keeps s u) (i v : Nat) : Keeps s (u.setConj i v) :=
  Keeps.onStore h (f := fun t => { t with conj := SMap.set (fun _ => 0) t.conj i v }) (fun x => ⟨x.1, SMap.set_wf i v x.2⟩)

theorem State.answerWaits_keeps {s u : State} (h : Keeps s u) (i : Nat) :
    Keeps s (u.answerWaits i) := by
  unfold State.answerWaits
  try dsimp only
  repeat' (first
    |(with_reducible (first
      | assumption | refine Keeps.onFab ?_ _ | refine State.forEach_keeps (fun _ k => ?_) ?_
      | apply State.sendMsg_keeps))
    | split)

theorem State.ringOwner_keeps {s u : State} (h : Keeps s u) (b : Nat) :
    Keeps s (u.ringOwner b) := by
  unfold State.ringOwner
  try dsimp only
  repeat' (first
    |(with_reducible (first | assumption | refine Keeps.onPart ?_ _ _))
    | split)

theorem State.keepSig_keeps {s u : State} (h : Keeps s u) (i v dev part kind : Nat) :
    Keeps s (u.keepSig i v dev part kind) := by
  unfold State.keepSig
  try dsimp only
  repeat' (first
    |(with_reducible (first | assumption | refine Keeps.onPart ?_ _ _))
    | split)

theorem State.applySignal_keeps {s u : State} (h : Keeps s u) (i v dev part kind : Nat) :
    Keeps s (u.applySignal i v dev part kind) := by
  unfold State.applySignal
  try dsimp only
  repeat' (first
    |(with_reducible (first
      | assumption | apply State.setConj_keeps | refine Keeps.onStoreSame ?_ ⟨rfl, rfl⟩ | apply State.add64_keeps
      | apply State.bump_keeps | apply State.logRec_keeps | apply State.keepSig_keeps | apply State.ringOwner_keeps
      | apply State.answerWaits_keeps))
    | split)

end Sys2Proof.Machine
end

