-- ==== Sys2Proof/Laws/KeepsEnergy.lean ====
section
/-!
SUPPORT. What the operations of Machine/Energy.lean keep.
-/
namespace Sys2Proof.Machine

open Sys2Proof.Safety

theorem State.applyDeposit_keeps {s u : State} (h : Keeps s u) (v : Nat) :
    Keeps s (u.applyDeposit v) := by
  unfold State.applyDeposit
  try dsimp only
  repeat' (first
    |(with_reducible (first | assumption | refine Keeps.onLedger ?_ (fun x => Ledger.deposit_ok _ x)))
    | split)

theorem State.refuseGrant_keeps {s u : State} (h : Keeps s u) (p : PartId) (amount : Int) :
    Keeps s (u.refuseGrant p amount) := by
  unfold State.refuseGrant
  try dsimp only
  repeat' (first
    |(with_reducible (first | assumption | apply State.bump_keeps | apply State.logRec_keeps))
    | split)

theorem State.applyGrant_keeps {s u : State} (h : Keeps s u) (p : PartId) (g : Int) :
    Keeps s (u.applyGrant p g) := by
  unfold State.applyGrant
  try dsimp only
  repeat' (first
    |(with_reducible (first
      | assumption | apply State.refuseGrant_keeps | refine Keeps.onLedger ?_ (fun x => Ledger.grant_ok _ _ x)))
    | split)

theorem State.autoGrant_keeps {s u : State} (h : Keeps s u) (p : PartId) :
    Keeps s (u.autoGrant p) := by
  unfold State.autoGrant
  try dsimp only
  repeat' (first
    |(with_reducible (first
      | assumption | apply State.refuseGrant_keeps | refine Keeps.onLedger ?_ (fun x => Ledger.grant_ok _ _ x)))
    | split)

theorem State.autoGrants_keeps {s u : State} (h : Keeps s u) :
    Keeps s (u.autoGrants) := by
  unfold State.autoGrants
  try dsimp only
  repeat' (first
    |(with_reducible (first
      | assumption | refine State.forEach_keeps (fun _ k => ?_) ?_ | apply State.autoGrant_keeps))
    | split)

theorem State.baseCharge_keeps {s u : State} (h : Keeps s u) (pj : Nat) :
    Keeps s (u.baseCharge pj) := by
  unfold State.baseCharge
  try dsimp only
  repeat' (first
    |(with_reducible (first
      | assumption | refine Keeps.onLedger ?_ (fun x => Ledger.withResidue_ok _ (Ledger.baseCharge_ok _ x))))
    | split)

theorem State.sampleLow_keeps {s u : State} (h : Keeps s u) (i : Fin 17) :
    Keeps s (u.sampleLow i) := by
  unfold State.sampleLow
  try dsimp only
  repeat' (first
    |(with_reducible (first | assumption | apply State.notify_keeps | refine Keeps.onAon ?_ ⟨rfl, rfl, rfl⟩))
    | split)

theorem State.sampleLows_keeps {s u : State} (h : Keeps s u) :
    Keeps s (u.sampleLows) := by
  unfold State.sampleLows
  try dsimp only
  repeat' (first
    |(with_reducible (first
      | assumption | refine State.forEach_keeps (fun _ k => ?_) ?_ | apply State.sampleLow_keeps))
    | split)

theorem State.reserve_keeps {s u : State} (h : Keeps s u) (p : PartId) (r : Nat) :
    Keeps s (u.reserve p r) := by
  unfold State.reserve
  try dsimp only
  repeat' (first
    |(with_reducible (first | assumption | refine Keeps.onLedger ?_ (fun x => Ledger.reserve_ok _ _ x)))
    | split)

theorem State.settle_keeps {s u : State} (h : Keeps s u) (p : PartId) (res pj : Nat) :
    Keeps s (u.settle p res pj) := by
  unfold State.settle
  try dsimp only
  repeat' (first
    |(with_reducible (first
      | assumption | refine Keeps.onLedger ?_ (fun x => Ledger.withResidue_ok _ (Ledger.settle_ok _ _ _ x))))
    | split)

end Sys2Proof.Machine
end

