-- ==== Sys2Proof/Laws/KeepsHeld.lean ====
section
/-!
SUPPORT. What the operations of Machine/Held.lean keep.
-/
namespace Sys2Proof.Machine

open Sys2Proof.Safety

theorem State.preemptAll_keeps {s u : State} (h : Keeps s u) (p : PartId) :
    Keeps s (u.preemptAll p) := by
  unfold State.preemptAll
  try dsimp only
  repeat' (first
    |(with_reducible (first | assumption | refine State.forEach_keeps (fun _ k => ?_) ?_ | refine Keeps.onCore ?_ _ _))
    | split)

theorem State.keepFault_keeps {s u : State} (h : Keeps s u) (p : PartId) (w addr : Nat) :
    Keeps s (u.keepFault p w addr) := by
  unfold State.keepFault
  try dsimp only
  repeat' (first
    |(with_reducible (first | assumption | apply State.setSgl_keeps))
    | split)

theorem State.raiseFault_keeps {s u : State} (h : Keeps s u) (p : PartId) (kind cause unit : Nat) (control : Bool) (ticket addr : Nat) :
    Keeps s (u.raiseFault p kind cause unit control ticket addr) := by
  unfold State.raiseFault
  try dsimp only
  repeat' (first
    |(with_reducible (first
      | assumption | apply State.countAddrFault_keeps | apply State.bump_keeps | apply State.keepFault_keeps
      | refine Keeps.onPart ?_ _ _ | apply State.preemptAll_keeps | apply State.logRec_keeps))
    | split)

theorem State.holdThread_keeps {s u : State} (h : Keeps s u) (t : ThreadId) :
    Keeps s (u.holdThread t) := by
  unfold State.holdThread
  try dsimp only
  repeat' (first
    |(with_reducible (first | assumption | refine Keeps.onThreadSame ?_ _ rfl))
    | split)

theorem State.threadAccessFault_keeps {s u : State} (h : Keeps s u) (t : ThreadId) (p : PartId) (kind cause addr : Nat) :
    Keeps s (u.threadAccessFault t p kind cause addr) := by
  unfold State.threadAccessFault
  try dsimp only
  repeat' (first
    |(with_reducible (first | assumption | apply State.raiseFault_keeps | apply State.holdThread_keeps))
    | split)

theorem State.threadFault_keeps {s u : State} (h : Keeps s u) (t : ThreadId) (p : PartId) (cause slot : Nat) :
    Keeps s (u.threadFault t p cause slot) := by
  unfold State.threadFault
  try dsimp only
  repeat' (first
    |(with_reducible (first | assumption | refine Keeps.onThreadSame ?_ _ rfl | apply State.logRec_keeps))
    | split)

end Sys2Proof.Machine
end

