-- ==== Sys2Proof/Laws/KeepsControl.lean ====
section
/-!
SUPPORT. What the operations of Machine/Control.lean keep.
-/
namespace Sys2Proof.Machine

open Sys2Proof.Safety

theorem State.setS_keeps {s u : State} (h : Keeps s u) (t : ThreadId) (r : SReg) (v : W64) : Keeps s (u.setS t r v) :=
  h.onThreadSame t (Thread.sset_priv _ r v)

theorem State.setP_keeps {s u : State} (h : Keeps s u) (t : ThreadId) (r : PReg) (v : Bool) : Keeps s (u.setP t r v) :=
  h.onThreadSame t (Thread.pset_priv _ r v)

theorem State.branch_keeps {s u : State} (h : Keeps s u) (t : ThreadId) (p : PartId) (slot : Nat) (off : Int) :
    Keeps s ((u.branch t p slot off).1) := by
  unfold State.branch
  try dsimp only
  repeat' (first
    |(with_reducible (first | assumption | apply State.threadFault_keeps | refine Keeps.onThreadSame ?_ _ rfl))
    | split)

theorem State.sendReq_keeps {s u : State} (h : Keeps s u) (r : RemReq) (aux : Nat) (len : Nat) (data : List Byte) :
    Keeps s (u.sendReq r aux len data) := by
  unfold State.sendReq
  try dsimp only
  repeat' (first
    |(with_reducible (first | assumption | refine Keeps.onFab ?_ _ | apply State.sendMsg_keeps))
    | split)

theorem State.threadReq_keeps {s u : State} (h : Keeps s u) (t : ThreadId) (p : PartId) (type addr dst aux len : Nat) (data : List Byte) :
    Keeps s ((u.threadReq t p type addr dst aux len data).1) := by
  unfold State.threadReq
  try dsimp only
  repeat' (first
    |(with_reducible (first | assumption | apply State.sendReq_keeps | refine Keeps.onThreadSame ?_ _ rfl))
    | split)

theorem State.runLdg_keeps {s u : State} (h : Keeps s u) (t : ThreadId) (p : PartId) (d : SReg) (a : Nat) :
    Keeps s ((u.runLdg t p d a).1) := by
  unfold State.runLdg
  try dsimp only
  repeat' (first
    |(with_reducible (first
      | assumption | apply State.threadAccessFault_keeps | apply State.setS_keeps | apply State.countLines_keeps
      | apply State.threadReq_keeps | refine Keeps.fst (by assumption) ?_ | apply State.checkRead_keeps))
    | split)

theorem State.runStg_keeps {s u : State} (h : Keeps s u) (t : ThreadId) (p : PartId) (d : SReg) (a : Nat) :
    Keeps s ((u.runStg t p d a).1) := by
  unfold State.runStg
  try dsimp only
  repeat' (first
    |(with_reducible (first
      | assumption | apply State.threadAccessFault_keeps | apply State.storeWrite_keeps
      | apply State.threadReq_keeps | refine Keeps.fst (by assumption) ?_))
    | split)

theorem State.runAtom_keeps {s u : State} (h : Keeps s u) (t : ThreadId) (p : PartId) (o : AtomOp) (wide : Bool) (d a b : SReg) :
    Keeps s ((u.runAtom t p o wide d a b).1) := by
  unfold State.runAtom
  try dsimp only
  repeat' (first
    |(with_reducible (first
      | assumption | apply State.threadAccessFault_keeps | apply State.atomLocal_keeps | apply State.setS_keeps
      | apply State.threadReq_keeps | refine Keeps.fst (by assumption) ?_ | refine Keeps.snd (by assumption) ?_
      | apply State.checkRead_keeps))
    | split)

theorem State.runDesc_keeps {s u : State} (h : Keeps s u) (t : ThreadId) (p : PartId) (get : Bool) (a b : SReg) (slot : Nat) :
    Keeps s ((u.runDesc t p get a b slot).1) := by
  unfold State.runDesc
  try dsimp only
  repeat' (first
    |(with_reducible (first
      | assumption | apply State.threadFault_keeps | refine Keeps.onThreadSame ?_ _ rfl
      | refine Keeps.onThread ?_ _ (fun x => Memory.writeN_wf _ _ x) | refine Keeps.onStoreSame ?_ ⟨rfl, rfl⟩
      | refine Keeps.onStore ?_ (fun x => ⟨Memory.writeN_wf _ _ x.1, x.2⟩)))
    | split)

theorem State.runCtl_keeps {s u : State} (h : Keeps s u) (t : ThreadId) (p : PartId) (imm : W64) (slot : Nat) (o : CtlOp) :
    Keeps s ((u.runCtl t p imm slot o).1) := by
  unfold State.runCtl
  try dsimp only
  repeat' (first
    |(with_reducible (first
      | assumption | apply State.setS_keeps | apply State.setP_keeps | apply State.threadFault_keeps
      | refine Keeps.onThreadSame ?_ _ rfl | refine Keeps.onThread ?_ _ (fun x => Memory.writeN_wf _ _ x)
      | apply State.runLdg_keeps | apply State.runStg_keeps | apply State.runAtom_keeps | apply State.branch_keeps
      | refine Keeps.onCore ?_ _ _ | apply State.runDesc_keeps | refine Keeps.fst (by assumption) ?_))
    | split)

theorem State.insn_keeps {s u : State} (h : Keeps s u) (t : ThreadId) (imm : W64) (o : CtlOp) :
    Keeps s (u.insn t imm o) := by
  unfold State.insn
  split
  · exact h
  · split
    · exact State.threadFault_keeps h ..
    · split
      · refine Keeps.onThreadSame (State.runCtl_keeps h ..) _ ?_
        split
        · split <;> rfl
        · rfl
      · exact State.threadFault_keeps h ..

end Sys2Proof.Machine
end

