-- ==== Sys2Proof/Laws/KeepsVerbLife.lean ====
section
/-!
SUPPORT. What the operations of Machine/VerbLife.lean keep.
-/
namespace Sys2Proof.Machine

open Sys2Proof.Safety

theorem State.setMeshCount_keeps {s u : State} (h : Keeps s u) (p : Nat) (c : CoreId) (n : Nat) :
    Keeps s (u.setMeshCount p c n) := by
  unfold State.setMeshCount
  try dsimp only
  repeat' (first
    |(with_reducible (first
      | assumption | apply State.setDom_keeps))
    | split)

theorem Thread.unpend_priv : ∀ (ks : List MReg) (h : Thread), (h.unpend ks).priv = h.priv
  | [], _ => rfl
  | k :: ks, h => Thread.unpend_priv ks { h with pend := vmod h.pend k (fun n => n - 1) }

/-- Setting memo registers one by one leaves the private memory. -/
theorem Thread.foldl_memo_priv (l : List (MReg × W64)) : ∀ (h : Thread),
    (l.foldl (fun (h : Thread) e => { h with m := vset h.m e.1 e.2 }) h).priv = h.priv := by
  induction l with
  | nil => intro h; rfl
  | cons e l ih => intro h; exact ih { h with m := vset h.m e.1 e.2 }

theorem State.syncMesh_keeps {s u : State} (h : Keeps s u) (c : CoreId) (p : Nat) :
    Keeps s (u.syncMesh c p) := by
  unfold State.syncMesh
  try dsimp only
  repeat' (first
    |(with_reducible (first
      | assumption | apply State.setMeshCount_keeps))
    | split)

theorem State.commitLocal_keeps {s u : State} (h : Keeps s u) (c : CoreId) (t : OutTile) :
    Keeps s ((u.commitLocal c t).1) := by
  unfold State.commitLocal
  try dsimp only
  repeat' (first
    |(with_reducible (first
      | assumption | apply State.storeWrite_keeps | apply State.checkWrite_keeps))
    | split)

theorem State.leaveMesh_keeps {s u : State} (h : Keeps s u) (c : CoreId) :
    Keeps s (u.leaveMesh c) := by
  unfold State.leaveMesh
  try dsimp only
  repeat' (first
    |(with_reducible (first | assumption | refine Keeps.onMesh ?_ _))
    | split)

theorem State.abandon_keeps {s u : State} (h : Keeps s u) (c : CoreId) (v : Verb) :
    Keeps s (u.abandon c v) := by
  unfold State.abandon
  try dsimp only
  repeat' (first
    |(with_reducible (first
      | assumption | refine State.forEach_keeps (fun _ k => ?_) ?_ | apply State.commitLocal_keeps
      | apply State.settle_keeps | refine Keeps.onPart ?_ _ _ | refine Keeps.onCore ?_ _ _
      | refine Keeps.onFab ?_ _ | refine Keeps.onTap ?_ _ _ | apply State.leaveMesh_keeps
      | refine Keeps.onThreadSame ?_ _ rfl | refine Keeps.onThreadSame ?_ _ (Thread.unpend_priv _ _)
      | refine Keeps.fst (by assumption) ?_ | apply State.syncMesh_keeps))
    | split)

theorem State.verbFault_keeps {s u : State} (h : Keeps s u) (c : CoreId) (v : Verb) (kind cause addr : Nat) :
    Keeps s (u.verbFault c v kind cause addr) := by
  unfold State.verbFault
  try dsimp only
  repeat' (first
    |(with_reducible (first | assumption | apply State.raiseFault_keeps | apply State.abandon_keeps))
    | split)

theorem State.descFault_keeps {s u : State} (h : Keeps s u) (c : CoreId) (v : Verb) (cause low : Nat) :
    Keeps s (u.descFault c v cause low) := by
  unfold State.descFault
  try dsimp only
  repeat' (first
    |(with_reducible (first
      | assumption | apply State.bump_keeps | apply State.setSgl_keeps | apply State.verbFault_keeps))
    | split)

theorem State.openTile_keeps {s u : State} (h : Keeps s u) (c : CoreId) (t : OutTile) :
    Keeps s (u.openTile c t) := by
  unfold State.openTile
  try dsimp only
  repeat' (first
    |(with_reducible (first | assumption | apply State.sendReq_keeps | refine Keeps.onCore ?_ _ _))
    | split)

theorem State.commitOldest_keeps {s u : State} (h : Keeps s u) (c : CoreId) :
    Keeps s (u.commitOldest c) := by
  unfold State.commitOldest
  try dsimp only
  repeat' (first
    |(with_reducible (first
      | assumption | apply State.commitLocal_keeps | refine Keeps.onCore ?_ _ _ | apply State.verbFault_keeps
      | apply State.raiseFault_keeps | apply State.openTile_keeps | refine Keeps.fst (by assumption) ?_
      | apply State.syncMesh_keeps))
    | split)

theorem State.countRights_keeps {s u : State} (h : Keeps s u) (ref : Nat) :
    Keeps s (u.countRights ref) := by
  unfold State.countRights
  try dsimp only
  repeat' (first
    |(with_reducible (first | assumption | apply State.bump_keeps))
    | split)

theorem State.emitSignal_keeps {s u : State} (h : Keeps s u) (t : ThreadId) (p : PartId) (ref v : Nat) :
    Keeps s (u.emitSignal t p ref v) := by
  unfold State.emitSignal
  try dsimp only
  repeat' (first
    |(with_reducible (first
      | assumption | apply State.countRights_keeps | apply State.threadAccessFault_keeps
      | apply State.applySignal_keeps | apply State.sendMsg_keeps))
    | split)

theorem State.signalStep_keeps {s u : State} (h : Keeps s u) (p : PartId) (ticket : Nat) :
    Keeps s (u.signalStep p ticket) := by
  unfold State.signalStep
  try dsimp only
  repeat' (first
    |(with_reducible (first
      | assumption | refine Keeps.onPart ?_ _ _ | refine State.forEach_keeps (fun _ k => ?_) ?_
      | apply State.emitSignal_keeps))
    | split)

theorem State.memoStep_keeps {s u : State} (h : Keeps s u) (v : Verb) :
    Keeps s (u.memoStep v) := by
  unfold State.memoStep
  try dsimp only
  repeat' (first
    |(with_reducible (first
      | assumption | refine Keeps.onThreadSame ?_ _ rfl | refine Keeps.onThreadSame ?_ _ (Thread.unpend_priv _ _)
      | refine Keeps.onThreadSame ?_ _ ((Thread.unpend_priv _ _).trans (Thread.foldl_memo_priv _ _))
      | refine Keeps.tickFree ?_ | refine foldl_keeps (fun _ k => ?_) ?_
      | refine foldl_fst_keeps (fun _ _ k => ?_) ?_))
    | split)

theorem State.entryStep_keeps {s u : State} (h : Keeps s u) (c : CoreId) (v : Verb) :
    Keeps s (u.entryStep c v) := by
  unfold State.entryStep
  try dsimp only
  repeat' (first
    |(with_reducible (first
      | assumption | apply State.storeWrite_keeps | refine Keeps.onPart ?_ _ _ | apply State.msix_keeps))
    | split)

theorem State.retireDone_keeps {s u : State} (h : Keeps s u) (c : CoreId) (v : Verb) :
    Keeps s (u.retireDone c v) := by
  unfold State.retireDone
  try dsimp only
  repeat' (first
    |(with_reducible (first | assumption | refine Keeps.onCore ?_ _ _ | apply State.add64_keeps))
    | split)

theorem State.lastSteps_keeps {s u : State} (h : Keeps s u) (c : CoreId) (v : Verb) :
    Keeps s (u.lastSteps c v) := by
  unfold State.lastSteps
  try dsimp only
  repeat' (first
    |(with_reducible (first
      | assumption | apply State.retireDone_keeps | apply State.bump_keeps | refine Keeps.onCore ?_ _ _
      | apply State.entryStep_keeps))
    | split)

theorem State.retireVerb_keeps {s u : State} (h : Keeps s u) (c : CoreId) (v : Verb) :
    Keeps s (u.retireVerb c v) := by
  unfold State.retireVerb
  try dsimp only
  repeat' (first
    |(with_reducible (first
      | assumption | refine Keeps.onPart ?_ _ _ | apply State.memoStep_keeps | apply State.settle_keeps
      | apply State.signalStep_keeps | apply State.lastSteps_keeps))
    | split)

theorem State.applyRetire_keeps {s u : State} (h : Keeps s u) (c : CoreId) :
    Keeps s (u.applyRetire c) := by
  unfold State.applyRetire
  try dsimp only
  repeat' (first
    |(with_reducible (first | assumption | apply State.retireVerb_keeps))
    | split)

theorem State.applyStallEnd_keeps {s u : State} (h : Keeps s u) (c : CoreId) :
    Keeps s (u.applyStallEnd c) := by
  unfold State.applyStallEnd
  try dsimp only
  repeat' (first
    |(with_reducible (first | assumption | apply State.lastSteps_keeps))
    | split)

theorem State.flushAbandon_keeps {s u : State} (h : Keeps s u) (c : CoreId) (v : Verb) :
    Keeps s (u.flushAbandon c v) := by
  unfold State.flushAbandon
  try dsimp only
  repeat' (first
    |(with_reducible (first
      | assumption | apply State.bump_keeps | apply State.abandon_keeps | refine Keeps.onCore ?_ _ _))
    | split)

theorem State.applyPreemption_keeps {s u : State} (h : Keeps s u) (c : CoreId) :
    Keeps s (u.applyPreemption c) := by
  unfold State.applyPreemption
  try dsimp only
  repeat' (first
    |(with_reducible (first
      | assumption | apply State.leaveMesh_keeps | refine Keeps.onCore ?_ _ _ | refine Keeps.onPart ?_ _ _
      | apply State.bump_keeps | apply State.flushAbandon_keeps | apply State.syncMesh_keeps))
    | split)

theorem State.applyResume_keeps {s u : State} (h : Keeps s u) (c : CoreId) :
    Keeps s (u.applyResume c) := by
  unfold State.applyResume
  try dsimp only
  repeat' (first
    |(with_reducible (first
      | assumption | apply State.bump_keeps | refine Keeps.onCore ?_ _ _ | apply State.reserve_keeps
      | refine Keeps.onPart ?_ _ _))
    | split)

end Sys2Proof.Machine
end

