-- ==== Sys2Proof/Laws/KeepsClauses.lean ====
section
/-!
SUPPORT. What the operations of Machine/Clauses.lean keep.
-/
namespace Sys2Proof.Machine

open Sys2Proof.Safety

theorem State.clusterBusy_keeps {s u : State} (h : Keeps s u) (k : ClusterId) :
    Keeps s (u.clusterBusy k) := by
  unfold State.clusterBusy
  try dsimp only
  repeat' (first
    |(with_reducible (first
      | assumption | refine Keeps.onAon ?_ ⟨rfl, rfl, rfl⟩))
    | split)

theorem State.checkRing_keeps {s u : State} (h : Keeps s u) (r : Fin 80) (k : W32) (n : Nat) :
    Keeps s (u.checkRing r k n) := by
  unfold State.checkRing
  try dsimp only
  repeat' (first
    |(with_reducible (first
      | assumption | refine State.forEach_keeps (fun _ k => ?_) ?_
      | apply State.checkRead_keeps))
    | split)

@[simp] theorem Thread.advance_priv (h : Thread) : h.advance.priv = h.priv := by
  unfold Thread.advance; split
  · rfl
  · split <;> rfl

/-- Counting a memo register as pending, one by one, leaves the private memory. -/
theorem Thread.foldl_pend_priv : ∀ (ks : List MReg) (h : Thread),
    (ks.foldl (fun (h : Thread) k => { h with pend := vmod h.pend k (fun n => n + 1) }) h).priv = h.priv
  | [], _ => rfl
  | k :: ks, h => Thread.foldl_pend_priv ks { h with pend := vmod h.pend k (fun n => n + 1) }

theorem State.resumeThread_keeps {s u : State} (h : Keeps s u) (t : ThreadId) :
    Keeps s (u.resumeThread t) := by
  unfold State.resumeThread
  try dsimp only
  repeat' (first
    |(with_reducible (first
      | assumption | refine Keeps.onThreadSame ?_ _ rfl | refine Keeps.onThreadSame ?_ _ (Thread.advance_priv _)))
    | split)

theorem State.pushAccepted_keeps {s u : State} (h : Keeps s u) (t : ThreadId) (p : PartId) (v : Verb) :
    Keeps s (u.pushAccepted t p v) := by
  unfold State.pushAccepted
  refine Keeps.onThreadSame ((State.clusterBusy_keeps (h.onCore _ _) _).onPart _ _) _ ?_
  dsimp only
  split
  · rw [Thread.pset_priv, Thread.foldl_pend_priv]
  · rw [Thread.foldl_pend_priv]

theorem State.pushWaits_keeps {s u : State} (h : Keeps s u) (t : ThreadId) (o : PushOp) :
    Keeps s (u.pushWaits t o) := by
  unfold State.pushWaits
  try dsimp only
  repeat' (first
    |(with_reducible (first
      | assumption | apply State.bump_keeps | refine Keeps.onThreadSame ?_ _ rfl
      | refine Keeps.fst (by assumption) ?_))
    | split)

theorem State.pushVerb_keeps {s u : State} (h : Keeps s u) (t : ThreadId) (p : PartId) (second : Bool) (slot : BitVec 128) (adv : W32) (imm : Option W64) :
    Keeps s ((u.pushVerb t p second slot adv imm).1) := by
  unfold State.pushVerb
  try dsimp only
  repeat' (first
    |(with_reducible (first
      | assumption | apply State.setP_keeps | refine Keeps.onThreadSame ?_ _ rfl | apply State.pushWaits_keeps
      | apply State.pushAccepted_keeps))
    | split)

theorem State.pushStream_keeps {s u : State} (h : Keeps s u) (t : ThreadId) (p : PartId) (v : W64) :
    Keeps s ((u.pushStream t p v).1) := by
  unfold State.pushStream
  try dsimp only
  repeat' (first
    |(with_reducible (first | assumption | apply State.pushWaits_keeps | refine Keeps.onCore ?_ _ _))
    | split)

theorem State.push_keeps {s u : State} (h : Keeps s u) (t : ThreadId) (p : PartId) (o : PushOp) :
    Keeps s ((u.push t p o).1) := by
  unfold State.push
  try dsimp only
  repeat' (first
    |(with_reducible (first
      | assumption | apply State.pushVerb_keeps | apply State.pushStream_keeps | refine Keeps.fst (by assumption) ?_))
    | split)

theorem State.applyPushResume_keeps {s u : State} (h : Keeps s u) (t : ThreadId) :
    Keeps s (u.applyPushResume t) := by
  unfold State.applyPushResume
  try dsimp only
  repeat' (first
    |(with_reducible (first
      | assumption | apply State.push_keeps | apply State.resumeThread_keeps | refine Keeps.onThreadSame ?_ _ rfl
      | refine Keeps.fst (by assumption) ?_ | apply State.threadFault_keeps))
    | split)

theorem State.waitConj_keeps {s u : State} (h : Keeps s u) (t : ThreadId) (p : PartId) (ref v : Nat) :
    Keeps s ((u.waitConj t p ref v).1) := by
  unfold State.waitConj
  try dsimp only
  repeat' (first
    |(with_reducible (first
      | assumption | refine Keeps.onThreadSame ?_ _ rfl | apply State.countRights_keeps
      | apply State.threadAccessFault_keeps | refine Keeps.onFab ?_ _ | apply State.sendMsg_keeps))
    | split)

theorem State.applyWaitSatisfied_keeps {s u : State} (h : Keeps s u) (t : ThreadId) :
    Keeps s (u.applyWaitSatisfied t) := by
  unfold State.applyWaitSatisfied
  try dsimp only
  repeat' (first
    |(with_reducible (first | assumption | apply State.resumeThread_keeps))
    | split)

theorem State.openSig_keeps {s u : State} (h : Keeps s u) (t : ThreadId) (p : PartId) (ref : W64) (v : W32) :
    Keeps s (u.openSig t p ref v) := by
  unfold State.openSig
  try dsimp only
  repeat' (first
    |(with_reducible (first | assumption | refine Keeps.onPart ?_ _ _))
    | split)

theorem State.closeSig_keeps {s u : State} (h : Keeps s u) (t : ThreadId) (p : PartId) :
    Keeps s (u.closeSig t p) := by
  unfold State.closeSig
  try dsimp only
  repeat' (first
    |(with_reducible (first | assumption | refine Keeps.onPart ?_ _ _ | apply State.emitSignal_keeps))
    | split)

theorem State.applyFetch_keeps {s u : State} (h : Keeps s u) (t : ThreadId) :
    Keeps s (u.applyFetch t) := by
  unfold State.applyFetch
  try dsimp only
  repeat' (first
    |(with_reducible (first
      | assumption | apply State.threadAccessFault_keeps | refine Keeps.onThreadSame ?_ _ rfl
      | refine Keeps.onRing ?_ _ _ | apply State.countLines_keeps | apply State.checkRing_keeps))
    | split)

theorem State.retireClause_keeps {s u : State} (h : Keeps s u) (t : ThreadId) (r : Fin 80) :
    Keeps s (u.retireClause t r) := by
  unfold State.retireClause
  try dsimp only
  repeat' (first
    |(with_reducible (first | assumption | refine Keeps.onThreadSame ?_ _ rfl | refine Keeps.onRing ?_ _ _))
    | split)

theorem State.clauseStep_keeps {s u : State} (h : Keeps s u) (t : ThreadId) (p : PartId) (r : Fin 80) :
    Keeps s ((u.clauseStep t p r).1) := by
  unfold State.clauseStep
  try dsimp only
  repeat' (first
    |(with_reducible (first
      | assumption | refine Keeps.onThreadSame ?_ _ rfl | refine Keeps.onThreadSame ?_ _ (Thread.advance_priv _)
      | apply State.threadFault_keeps | apply State.waitConj_keeps | apply State.runCtl_keeps
      | apply State.pushStream_keeps | apply State.openSig_keeps | apply State.pushVerb_keeps
      | apply State.emitSignal_keeps | apply State.closeSig_keeps | apply State.retireClause_keeps
      | refine Keeps.fst (by assumption) ?_))
    | split)

theorem State.runClause_keeps {s u : State} (h : Keeps s u) (t : ThreadId) (p : PartId) (r : Fin 80) (x : Nat) :
    Keeps s (u.runClause t p r x) := by
  induction x generalizing u with
  | zero => exact h
  | succ n ih =>
    unfold State.runClause
    try dsimp only
    repeat' (first
      |(with_reducible (first | assumption | apply ih | apply State.clauseStep_keeps | refine Keeps.fst (by assumption) ?_))
      | split)

theorem State.applyExecute_keeps {s u : State} (h : Keeps s u) (t : ThreadId) :
    Keeps s (u.applyExecute t) := by
  unfold State.applyExecute
  try dsimp only
  repeat' (first
    |(with_reducible (first | assumption | apply State.runClause_keeps | refine Keeps.onThreadSame ?_ _ rfl))
    | split)

theorem State.applyVerbPush_keeps {s u : State} (h : Keeps s u) (t : ThreadId) (second : Bool) (slot : BitVec 128) (adv : W32) (imm : Option W64) :
    Keeps s (u.applyVerbPush t second slot adv imm) := by
  unfold State.applyVerbPush
  try dsimp only
  repeat' (first
    |(with_reducible (first
      | assumption | apply State.threadFault_keeps | apply State.pushVerb_keeps
      | refine Keeps.fst (by assumption) ?_))
    | split)

theorem State.applyStreamPush_keeps {s u : State} (h : Keeps s u) (t : ThreadId) (v : W64) :
    Keeps s (u.applyStreamPush t v) := by
  unfold State.applyStreamPush
  try dsimp only
  repeat' (first
    |(with_reducible (first
      | assumption | apply State.threadFault_keeps | apply State.pushStream_keeps
      | refine Keeps.fst (by assumption) ?_))
    | split)

theorem State.applyWaitGe_keeps {s u : State} (h : Keeps s u) (t : ThreadId) (ref : W64) (v : W32) :
    Keeps s (u.applyWaitGe t ref v) := by
  unfold State.applyWaitGe
  try dsimp only
  repeat' (first
    |(with_reducible (first | assumption | apply State.waitConj_keeps | refine Keeps.fst (by assumption) ?_))
    | split)

theorem State.applySignalAtRetire_keeps {s u : State} (h : Keeps s u) (t : ThreadId) (ref : W64) (v : W32) :
    Keeps s (u.applySignalAtRetire t ref v) := by
  unfold State.applySignalAtRetire
  try dsimp only
  repeat' (first
    |(with_reducible (first | assumption | apply State.emitSignal_keeps | refine Keeps.onPart ?_ _ _))
    | split)

theorem State.applySignalNow_keeps {s u : State} (h : Keeps s u) (t : ThreadId) (ref : W64) (v : W32) :
    Keeps s (u.applySignalNow t ref v) := by
  unfold State.applySignalNow
  try dsimp only
  repeat' (first
    |(with_reducible (first | assumption | apply State.emitSignal_keeps))
    | split)

theorem State.applyMemoWaitEnd_keeps {s u : State} (h : Keeps s u) (t : ThreadId) :
    Keeps s (u.applyMemoWaitEnd t) := by
  unfold State.applyMemoWaitEnd
  try dsimp only
  repeat' (first
    |(with_reducible (first | assumption | refine Keeps.onThreadSame ?_ _ rfl | apply State.insn_keeps))
    | split)

theorem State.applyFenceRelease_keeps {s u : State} (h : Keeps s u) (t : ThreadId) :
    Keeps s (u.applyFenceRelease t) := by
  unfold State.applyFenceRelease
  try dsimp only
  repeat' (first
    |(with_reducible (first | assumption | apply State.resumeThread_keeps))
    | split)

end Sys2Proof.Machine
end

