-- ==== Sys2Proof/Laws/KeepsScoreboard.lean ====
section
/-!
SUPPORT. What the operations of Machine/Scoreboard.lean keep.
-/
namespace Sys2Proof.Machine

open Sys2Proof.Safety

theorem State.recorded_keeps {s u : State} (h : Keeps s u) (c : CoreId) (v : Verb) (l : List Span) :
    Keeps s (u.recorded c v l) := by
  unfold State.recorded
  try dsimp only
  repeat' (first
    |(with_reducible (first | assumption | refine Keeps.onPart ?_ _ _ | refine Keeps.onCore ?_ _ _))
    | split)

theorem State.applyRecord_keeps {s u : State} (h : Keeps s u) (c : CoreId) :
    Keeps s (u.applyRecord c) := by
  unfold State.applyRecord
  try dsimp only
  repeat' (first
    |(with_reducible (first
      | assumption | apply State.descFault_keeps | apply State.bump_keeps | refine Keeps.onCore ?_ _ _
      | apply State.recorded_keeps | apply State.verbFault_keeps))
    | split)

theorem State.admitVerb_keeps {s u : State} (h : Keeps s u) (c : CoreId) (v : Verb) (res : Nat) :
    Keeps s (u.admitVerb c v res) := by
  unfold State.admitVerb
  try dsimp only
  repeat' (first
    |(with_reducible (first | assumption | apply State.reserve_keeps | refine Keeps.onCore ?_ _ _))
    | split)

theorem State.pumpEnergy_keeps {s u : State} (h : Keeps s u) (p : PartId) (x : Nat) :
    Keeps s (u.pumpEnergy p x) := by
  induction x generalizing u with
  | zero => exact h
  | succ n ih =>
    unfold State.pumpEnergy
    try dsimp only
    repeat' (first
      |(with_reducible (first
      | assumption | apply ih | refine Keeps.onPart ?_ _ _ | apply State.admitVerb_keeps | apply State.bump_keeps
      | refine Keeps.onCore ?_ _ _ | apply State.verbFault_keeps))
      | split)

theorem State.applyAdmit_keeps {s u : State} (h : Keeps s u) (c : CoreId) :
    Keeps s (u.applyAdmit c) := by
  unfold State.applyAdmit
  try dsimp only
  repeat' (first
    |(with_reducible (first
      | assumption | apply State.recorded_keeps | apply State.bump_keeps | refine Keeps.onCore ?_ _ _
      | apply State.verbFault_keeps | refine Keeps.onPart ?_ _ _ | apply State.pumpEnergy_keeps))
    | split)

theorem State.applyEnergyWaitEnd_keeps {s u : State} (h : Keeps s u) (p : PartId) :
    Keeps s (u.applyEnergyWaitEnd p) := by
  unfold State.applyEnergyWaitEnd
  try dsimp only
  repeat' (first
    |(with_reducible (first
      | assumption | apply State.pumpEnergy_keeps | refine State.forEach_keeps (fun _ k => ?_) ?_
      | apply State.applyResume_keeps))
    | split)

theorem State.applyStart_keeps {s u : State} (h : Keeps s u) (c : CoreId) :
    Keeps s (u.applyStart c) := by
  unfold State.applyStart
  try dsimp only
  repeat' (first
    |(with_reducible (first | assumption | refine Keeps.onCore ?_ _ _))
    | split)

end Sys2Proof.Machine
end

