-- ==== Sys2Proof/Laws/KeepsVerbs.lean ====
section
/-!
SUPPORT. What the operations of Machine/Verbs.lean keep.
-/
namespace Sys2Proof.Machine

open Sys2Proof.Safety

/-- Every state that a fetch answers with keeps what `s` had. -/
def Fetched.keeps (s : State) : Fetched → Prop
  | .ready u | .wait u | .stop u => Keeps s u
  | .power => True

/-- Every state that a try answers with keeps what `s` had. -/
def Tried.keeps (s : State) : Tried → Prop
  | .next u => Keeps s u
  | _ => True

theorem State.countOverlaps_keeps {s u : State} (h : Keeps s u) (c : CoreId) (l : List LineReq) :
    Keeps s (u.countOverlaps c l) := by
  unfold State.countOverlaps
  try dsimp only
  repeat' (first
    |(with_reducible (first
      | assumption | apply State.addSat_keeps | refine Keeps.onCore ?_ _ _))
    | split)

theorem State.checkReads_keeps {s u : State} (h : Keeps s u) (c : CoreId) (l : List LineReq) :
    Keeps s (u.checkReads c l) := by
  unfold State.checkReads
  try dsimp only
  repeat' (first
    |(with_reducible (first
      | assumption | refine State.forEach_keeps (fun _ k => ?_) ?_ | apply State.checkRead_keeps))
    | split)

theorem Fetched.keeps_ready {s u : State} {x : Fetched} (e : x = .ready u) (h : x.keeps s) : Keeps s u := by
  subst e; exact h
theorem Fetched.keeps_wait {s u : State} {x : Fetched} (e : x = .wait u) (h : x.keeps s) : Keeps s u := by
  subst e; exact h
theorem Fetched.keeps_stop {s u : State} {x : Fetched} (e : x = .stop u) (h : x.keeps s) : Keeps s u := by
  subst e; exact h
theorem Fetched.of_ready {s u : State} (h : Keeps s u) : (Fetched.ready u).keeps s := h
theorem Fetched.of_wait {s u : State} (h : Keeps s u) : (Fetched.wait u).keeps s := h
theorem Fetched.of_stop {s u : State} (h : Keeps s u) : (Fetched.stop u).keeps s := h
theorem Fetched.of_power {s : State} : Fetched.power.keeps s := trivial
theorem Tried.keeps_next {s u : State} {x : Tried} (e : x = .next u) (h : x.keeps s) : Keeps s u := by
  subst e; exact h

theorem State.askRuns_keeps {s : State} (c : CoreId) (v : Verb) : ∀ (l : List (Nat × Nat)) {u : State}, Keeps s u →
    Keeps s (u.askRuns c v l)
  | [], _, h => h
  | r :: rs, u, h => by
    unfold State.askRuns
    dsimp only
    split
    · exact State.askRuns_keeps c v rs h
    · split
      · exact State.askRuns_keeps c v rs (State.sendReq_keeps h ..)
      · exact h

theorem State.clearOverlaps_keeps {s : State} (c : CoreId) (v : Verb) (l : List LineReq) : ∀ (n : Nat) {u : State},
    Keeps s u → (u.clearOverlaps c v l n).keeps s
  | 0, _, h => h
  | n + 1, u, h => by
    unfold State.clearOverlaps
    dsimp only
    split
    · exact h
    · split
      · split
        · exact State.clearOverlaps_keeps c v l n (State.commitOldest_keeps h c)
        · exact State.commitOldest_keeps h c
      · split
        · exact State.commitOldest_keeps h c
        · exact h

theorem State.countReads_keeps {s u : State} (h : Keeps s u) (c : CoreId) (l : List LineReq) :
    Keeps s (u.countReads c l) := by
  unfold State.countReads
  try dsimp only
  repeat' (first
    |(with_reducible (first
      | assumption | apply State.add64_keeps | refine foldl_keeps (fun _ k => ?_) ?_
      | refine foldl_fst_keeps (fun _ _ k => ?_) ?_ | apply State.takeLines_keeps))
    | split)

theorem State.fetchAll_keeps {s u : State} (h : Keeps s u) (c : CoreId) (v : Verb) (l : List (Nat × Nat)) :
    (u.fetchAll c v l).keeps s := by
  have k := State.clearOverlaps_keeps c v (lineReads l) (u.cores[c].wbuf.length + 1)
    (State.countOverlaps_keeps h c (lineReads l))
  unfold State.fetchAll
  dsimp only
  split
  · trivial
  · split
    · next s1 e =>
      have h1 := State.checkReads_keeps (Fetched.keeps_ready e k) c (lineReads l)
      split
      · exact State.verbFault_keeps h1 ..
      · split
        · exact h1
        · exact State.askRuns_keeps c v _ h1
    · exact k

theorem State.meshFault_keeps {s u : State} (h : Keeps s u) (c : CoreId) (v : Verb) (kcause mcause : Nat) :
    Keeps s (u.meshFault c v kcause mcause) := by
  unfold State.meshFault
  try dsimp only
  repeat' (first
    |(with_reducible (first | assumption | apply State.setSgl_keeps | apply State.verbFault_keeps))
    | split)

theorem State.meshTurn_keeps {s u : State} (h : Keeps s u) (c : CoreId) (v : Verb) : (u.meshTurn c v).keeps s := by
  unfold State.meshTurn
  dsimp only
  repeat' (first
    | (with_reducible (first
      | exact Fetched.of_ready h | exact Fetched.of_wait h | exact Fetched.of_power
      | exact Fetched.of_stop (State.meshFault_keeps h ..) | exact Fetched.of_wait (Keeps.onMesh h _)
      | exact Fetched.of_stop (State.verbFault_keeps (State.checkRead_keeps h ..) ..)
      | exact Fetched.of_ready (State.checkRead_keeps h ..)))
    | split)

theorem State.meshDone_keeps {s u : State} (h : Keeps s u) (c : CoreId) (v : Verb) (rows : List (List W32)) :
    Keeps s (u.meshDone c v rows) := by
  unfold State.meshDone
  try dsimp only
  repeat' (first
    |(with_reducible (first
      | assumption | apply State.storeWrite_keeps | apply State.setMeshCount_keeps | refine Keeps.onCore ?_ _ _
      | refine Keeps.onMesh ?_ _ | apply State.countLines_keeps))
    | split)

theorem State.issueAtoms_keeps {s : State} (c : CoreId) (v : Verb) (code : Nat) : ∀ (l : List (Nat × W32)) (i : Nat)
    {u : State}, Keeps s u → Keeps s (u.issueAtoms c v code l i).1
  | [], _, _, h => h
  | (a, x) :: l, i, u, h => by
    unfold State.issueAtoms
    dsimp only
    split
    · split
      · exact State.verbFault_keeps (State.checkRead_keeps h ..) ..
      · exact State.issueAtoms_keeps c v code l (i + 1) (State.atomLocal_keeps (State.checkRead_keeps h ..) ..)
    · split
      · exact State.issueAtoms_keeps c v code l (i + 1) (State.sendReq_keeps h ..)
      · exact h

theorem State.takeTap_keeps {s u : State} (h : Keeps s u) (c : CoreId) (v : Verb) :
    Keeps s (u.takeTap c v) := by
  unfold State.takeTap
  try dsimp only
  repeat' (first
    |(with_reducible (first | assumption | refine Keeps.onTap ?_ _ _))
    | split)

theorem State.tileDone_keeps {s u : State} (h : Keeps s u) (c : CoreId) (v : Verb) (out : TileOut) (lfsr : W32) (e : Keep) :
    Keeps s (u.tileDone c v out lfsr e) := by
  unfold State.tileDone
  try dsimp only
  repeat' (first
    |(with_reducible (first
      | assumption | refine Keeps.onCore ?_ _ _ | apply State.add64_keeps | refine Keeps.tickFree ?_
      | apply State.syncMesh_keeps | apply Keeps.tickFree))
    | split)

theorem State.runTile_keeps {s u : State} (h : Keeps s u) (c : CoreId) (v : Verb) (j : Job) (rows : List Nat)
    (reqs : List LineReq) : (u.runTile c v j rows reqs).keeps s := by
  unfold State.runTile
  extract_lets rd p k us rot free tap out
  split
  · trivial
  · split
    · exact h
    · have h1 : Keeps s ((u.countReads c reqs).addSat K.forwarded (k.forwards reqs)) :=
        State.addSat_keeps (State.countReads_keeps h c reqs) ..
      split
      · next s2 e => exact Keeps.fst e (State.issueAtoms_keeps _ _ _ _ _ h1)
      · next s2 i e =>
        have h2 : Keeps s s2 := Keeps.fst e (State.issueAtoms_keeps _ _ _ _ _ h1)
        split
        · exact h2.onCore _ _
        · have h3 : Keeps s (if v.isTap then s2.takeTap c v else s2) := Keeps.ite (State.takeTap_keeps h2 ..) h2
          exact State.tileDone_keeps (Keeps.ite (State.meshDone_keeps h3 ..) h3) ..

theorem State.tryTile_keeps {s u : State} (h : Keeps s u) (c : CoreId) : (u.tryTile c).keeps s := by
  unfold State.tryTile
  split
  · trivial
  · next v _ =>
    split
    · trivial
    · split
      · trivial
      · dsimp only
        split
        · trivial
        · next e => exact Fetched.keeps_wait e (State.fetchAll_keeps h ..)
        · next e => exact Fetched.keeps_stop e (State.fetchAll_keeps h ..)
        · next s1 e =>
          have h1 := Fetched.keeps_ready e (State.fetchAll_keeps h ..)
          split
          · exact State.verbFault_keeps h1 ..
          · split
            · exact State.verbFault_keeps h1 ..
            · split
              · trivial
              · next e => exact Fetched.keeps_wait e (State.fetchAll_keeps h1 ..)
              · next e => exact Fetched.keeps_stop e (State.fetchAll_keeps h1 ..)
              · next s2 e =>
                have h2 := Fetched.keeps_ready e (State.fetchAll_keeps h1 ..)
                split
                · split
                  · trivial
                  · next e => exact Fetched.keeps_wait e (State.meshTurn_keeps h2 ..)
                  · next e => exact Fetched.keeps_stop e (State.meshTurn_keeps h2 ..)
                  · next e => exact State.runTile_keeps (Fetched.keeps_ready e (State.meshTurn_keeps h2 ..)) ..
                · exact State.runTile_keeps h2 ..

theorem State.applyVerb_keeps {s u : State} (h : Keeps s u) (o : Op) (c : CoreId) : Keeps s (u.applyVerb o c) := by
  unfold State.applyVerb
  split
  · split
    · next e => exact Tried.keeps_next e (State.tryTile_keeps h c)
    · exact h
  · exact h

theorem State.applyCommit_keeps {s u : State} (h : Keeps s u) (c : CoreId) (waiting : Nat) :
    Keeps s (u.applyCommit c waiting) := by
  unfold State.applyCommit
  try dsimp only
  repeat' (first
    |(with_reducible (first
      | assumption | apply State.commitOldest_keeps | apply State.addSat_keeps))
    | split)

end Sys2Proof.Machine
end

