-- ==== Sys2Proof/Laws/KeepsPartitions.lean ====
section
/-!
SUPPORT. What the operations of Machine/Partitions.lean keep.
-/
namespace Sys2Proof.Machine

open Sys2Proof.Safety

theorem State.discardDoorbell_keeps {s u : State} (h : Keeps s u) (r : Fin 96) (v : Nat) :
    Keeps s (u.discardDoorbell r v) := by
  unfold State.discardDoorbell
  try dsimp only
  repeat' (first
    |(with_reducible (first | assumption | apply State.logRec_keeps))
    | split)

theorem State.dropHeldDoorbells_keeps {s u : State} (h : Keeps s u) (p : PartId) :
    Keeps s (u.dropHeldDoorbells p) := by
  unfold State.dropHeldDoorbells
  try dsimp only
  repeat' (first
    |(with_reducible (first
      | assumption | refine Keeps.onAon ?_ ⟨rfl, rfl, rfl⟩ | refine State.forEach_keeps (fun _ k => ?_) ?_
      | apply State.discardDoorbell_keeps))
    | split)

theorem State.setDoorbell_keeps {s u : State} (h : Keeps s u) (r : Fin 96) (v : W32) :
    Keeps s (u.setDoorbell r v) := by
  unfold State.setDoorbell
  try dsimp only
  repeat' (first
    |(with_reducible (first | assumption | refine Keeps.onLink ?_ _))
    | split)

theorem State.zeroRing_keeps {s u : State} (h : Keeps s u) (r : Fin 80) :
    Keeps s (u.zeroRing r) := by
  unfold State.zeroRing
  try dsimp only
  repeat' (first
    |(with_reducible (first | assumption | refine Keeps.onRing ?_ _ _ | apply State.setDoorbell_keeps))
    | split)

theorem State.zeroCompl_keeps {s u : State} (h : Keeps s u) (p : PartId) :
    Keeps s (u.zeroCompl p) := by
  unfold State.zeroCompl
  try dsimp only
  repeat' (first
    |(with_reducible (first | assumption | refine Keeps.onPart ?_ _ _ | apply State.setDoorbell_keeps))
    | split)

theorem State.seedCore_keeps {s u : State} (h : Keeps s u) (c : CoreId) :
    Keeps s (u.seedCore c) := by
  unfold State.seedCore
  try dsimp only
  repeat' (first
    |(with_reducible (first | assumption | refine Keeps.onCore ?_ _ _))
    | split)

theorem State.abandonOn_keeps {s u : State} (h : Keeps s u) (p : PartId) (c : CoreId) :
    Keeps s (u.abandonOn p c) := by
  unfold State.abandonOn
  try dsimp only
  repeat' (first
    |(with_reducible (first | assumption | refine State.forEach_keeps (fun _ k => ?_) ?_ | apply State.abandon_keeps))
    | split)

theorem State.clearCore_keeps {s u : State} (h : Keeps s u) (c : CoreId) :
    Keeps s (u.clearCore c) := by
  unfold State.clearCore
  try dsimp only
  repeat' (first
    |(with_reducible (first | assumption | refine Keeps.onCore ?_ _ _))
    | split)

theorem State.clearThread_keeps {s u : State} (h : Keeps s u) (t : ThreadId) :
    Keeps s (u.clearThread t) := by
  unfold State.clearThread
  try dsimp only
  repeat' (first
    |(with_reducible (first
      | assumption | refine Keeps.onThreadSame ?_ _ rfl | refine Keeps.onThread ?_ _ (fun _ => Thread.reset_priv_wf)))
    | split)

theorem State.clearMeshCounts_keeps {s u : State} (h : Keeps s u) (p : PartId) :
    Keeps s (u.clearMeshCounts p) := by
  unfold State.clearMeshCounts
  try dsimp only
  repeat' (first
    |(with_reducible (first | assumption | apply State.setDom_keeps))
    | split)

theorem State.clearPartCore_keeps {s u : State} (h : Keeps s u) (p : PartId) (c : CoreId) :
    Keeps s (u.clearPartCore p c) := by
  unfold State.clearPartCore
  try dsimp only
  repeat' (first
    |(with_reducible (first
      | assumption | apply State.clearCore_keeps | refine Keeps.onCore ?_ _ _))
    | split)

theorem State.resetEffects_keeps {s u : State} (h : Keeps s u) (p : PartId) :
    Keeps s (u.resetEffects p) := by
  unfold State.resetEffects
  try dsimp only
  repeat' (first
    |(with_reducible (first
      | assumption | refine State.forEach_keeps (fun _ k => ?_) ?_ | apply State.abandonOn_keeps
      | refine Keeps.onFab ?_ _ | apply State.clearCore_keeps | apply State.clearThread_keeps
      | apply State.dropHeldDoorbells_keeps | apply State.zeroRing_keeps | apply State.zeroCompl_keeps
      | refine Keeps.onPart ?_ _ _ | apply State.clearMeshCounts_keeps | apply State.setSgl_keeps
      | apply State.setDom_keeps | apply State.clearPartCore_keeps))
    | split)

theorem State.beginReset_keeps {s u : State} (h : Keeps s u) (p : PartId) :
    Keeps s (u.beginReset p) := by
  unfold State.beginReset
  try dsimp only
  repeat' (first
    |(with_reducible (first | assumption | refine Keeps.onPart ?_ _ _))
    | split)

theorem State.applyResetComplete_keeps {s u : State} (h : Keeps s u) (p : PartId) :
    Keeps s (u.applyResetComplete p) := by
  unfold State.applyResetComplete
  try dsimp only
  repeat' (first
    |(with_reducible (first | assumption | apply State.resetEffects_keeps | apply State.bump32_keeps))
    | split)

theorem State.resetAllParts_keeps {s u : State} (h : Keeps s u) :
    Keeps s (u.resetAllParts) := by
  unfold State.resetAllParts
  try dsimp only
  repeat' (first
    |(with_reducible (first
      | assumption | refine State.forEach_keeps (fun _ k => ?_) ?_ | apply State.resetEffects_keeps
      | apply State.clearThread_keeps | apply State.clearCore_keeps))
    | split)

theorem State.withdraw_keeps {s u : State} (h : Keeps s u) (t : ThreadId) :
    Keeps s (u.withdraw t) := by
  unfold State.withdraw
  try dsimp only
  repeat' (first
    |(with_reducible (first
      | assumption | refine Keeps.onThreadSame ?_ _ rfl | refine Keeps.onPart ?_ _ _
      | refine State.forEach_keeps (fun _ k => ?_) ?_ | apply State.emitSignal_keeps))
    | split)

theorem State.removeCore_keeps {s u : State} (h : Keeps s u) (p : PartId) (c : CoreId) :
    Keeps s ((u.removeCore p c).1) := by
  unfold State.removeCore
  try dsimp only
  repeat' (first
    |(with_reducible (first
      | assumption | refine State.forEach_keeps (fun _ k => ?_) ?_ | apply State.abandon_keeps
      | apply State.bump_keeps | refine Keeps.onCore ?_ _ _ | apply State.withdraw_keeps))
    | split)

theorem State.removeCores_keeps {s u : State} (h : Keeps s u) (p : PartId) (cs : List CoreId) :
    Keeps s (u.removeCores p cs) := by
  unfold State.removeCores
  try dsimp only
  repeat' (first
    |(with_reducible (first
      | assumption | apply State.removeCore_keeps | apply State.logRec_keeps | refine Keeps.fst (by assumption) ?_
      | refine foldl_keeps (fun _ k => ?_) ?_ | refine foldl_fst_keeps (fun _ _ k => ?_) ?_))
    | split)

theorem State.flushCore_keeps {s z : State} (h : Keeps s z) (u : ThreadId) (directed : Bool) (v : Nat) (c : CoreId) :
    Keeps s (z.flushCore u directed v c) := by
  unfold State.flushCore
  try dsimp only
  repeat' (first
    |(with_reducible (first
      | assumption | refine State.forEach_keeps (fun _ k => ?_) ?_ | apply State.flushAbandon_keeps
      | refine Keeps.onCore ?_ _ _))
    | split)

theorem State.applyFlush_keeps {s z : State} (h : Keeps s z) (u : ThreadId) (p : PartId) (v : Nat) :
    Keeps s (z.applyFlush u p v) := by
  unfold State.applyFlush
  try dsimp only
  repeat' (first
    |(with_reducible (first
      | assumption | refine Keeps.onThreadSame ?_ _ rfl | apply State.withdraw_keeps | apply State.flushCore_keeps
      | refine Keeps.onCore ?_ _ _ | refine State.forEach_keeps (fun _ k => ?_) ?_))
    | split)

theorem State.applyFlushComplete_keeps {s u : State} (h : Keeps s u) (t : ThreadId) :
    Keeps s (u.applyFlushComplete t) := by
  unfold State.applyFlushComplete
  try dsimp only
  repeat' (first
    |(with_reducible (first
      | assumption | refine Keeps.onRing ?_ _ _ | refine Keeps.onThreadSame ?_ _ rfl | apply State.logRec_keeps))
    | split)

theorem State.applyCoreFlushComplete_keeps {s u : State} (h : Keeps s u) (c : CoreId) :
    Keeps s (u.applyCoreFlushComplete c) := by
  unfold State.applyCoreFlushComplete
  try dsimp only
  repeat' (first
    |(with_reducible (first | assumption | refine Keeps.onCore ?_ _ _ | apply State.logRec_keeps))
    | split)

theorem State.applyHalted_keeps {s u : State} (h : Keeps s u) (p : PartId) :
    Keeps s (u.applyHalted p) := by
  unfold State.applyHalted
  try dsimp only
  repeat' (first
    |(with_reducible (first | assumption | refine Keeps.onPart ?_ _ _))
    | split)

theorem State.applyPartitionFault_keeps {s u : State} (h : Keeps s u) (p : PartId) (f : FaultInfo) :
    Keeps s (u.applyPartitionFault p f) := by
  unfold State.applyPartitionFault
  try dsimp only
  repeat' (first
    |(with_reducible (first
      | assumption | apply State.raiseFault_keeps | apply State.holdThread_keeps | apply State.abandon_keeps))
    | split)

theorem State.release_keeps {s u : State} (h : Keeps s u) (p : PartId) :
    Keeps s (u.release p) := by
  unfold State.release
  try dsimp only
  repeat' (first
    |(with_reducible (first
      | assumption | refine Keeps.onPart ?_ _ _ | refine State.forEach_keeps (fun _ k => ?_) ?_
      | refine Keeps.onThreadSame ?_ _ rfl | apply State.logRec_keeps))
    | split)

theorem State.applyStopReached_keeps {s u : State} (h : Keeps s u) (p : PartId) :
    Keeps s (u.applyStopReached p) := by
  unfold State.applyStopReached
  try dsimp only
  repeat' (first
    |(with_reducible (first
      | assumption | refine Keeps.onPart ?_ _ _ | apply State.setSgl_keeps | apply State.logRec_keeps))
    | split)

theorem State.applyStopAfter_keeps {s u : State} (h : Keeps s u) (p : PartId) (n : Nat) :
    Keeps s (u.applyStopAfter p n) := by
  unfold State.applyStopAfter
  try dsimp only
  repeat' (first
    |(with_reducible (first
      | assumption | apply State.setSgl_keeps | refine State.forEach_keeps (fun _ k => ?_) ?_
      | refine Keeps.onThreadSame ?_ _ rfl))
    | split)

theorem State.applyStalemate_keeps {s u : State} (h : Keeps s u) (p : PartId) :
    Keeps s (u.applyStalemate p) := by
  unfold State.applyStalemate
  try dsimp only
  repeat' (first
    |(with_reducible (first
      | assumption | apply State.setSgl_keeps | apply State.bump_keeps | apply State.setDom_keeps
      | refine Keeps.onPart ?_ _ _ | apply State.logRec_keeps | apply State.notify_keeps))
    | split)

end Sys2Proof.Machine
end

