-- ==== Sys2Proof/Laws/KeepsDictionary.lean ====
section
/-!
SUPPORT. What the operations of Machine/Dictionary.lean keep.
-/
namespace Sys2Proof.Machine

open Sys2Proof.Safety

theorem State.readEffect_keeps {s u : State} (h : Keeps s u) (i j : Nat) :
    Keeps s (u.readEffect i j) := by
  unfold State.readEffect
  try dsimp only
  repeat' (first
    |(with_reducible (first
      | assumption | apply State.setDom_keeps | apply State.countLines_keeps | apply State.addSat_keeps
      | apply State.checkRead_keeps))
    | split)

end Sys2Proof.Machine
end

