-- ==== Sys2Proof/Laws/KeepsTap.lean ====
section
/-!
SUPPORT. What the operations of Machine/Tap.lean keep.
-/
namespace Sys2Proof.Machine

open Sys2Proof.Safety

theorem State.tapError_keeps {s u : State} (h : Keeps s u) (h : ChanId) (cause bank dest : Nat) :
    Keeps s (u.tapError h cause bank dest) := by
  unfold State.tapError
  try dsimp only
  repeat' (first
    |(with_reducible (first | assumption | apply State.setSgl_keeps))
    | split)

theorem State.tapErrorLogged_keeps {s u : State} (h : Keeps s u) (h : ChanId) (cause bank dest : Nat) :
    Keeps s (u.tapErrorLogged h cause bank dest) := by
  unfold State.tapErrorLogged
  try dsimp only
  repeat' (first
    |(with_reducible (first | assumption | apply State.tapError_keeps | apply State.logRec_keeps))
    | split)

theorem State.rejectOffer_keeps {s u : State} (h : Keeps s u) (h : ChanId) (cause bank dest : Nat) :
    Keeps s (u.rejectOffer h cause bank dest) := by
  unfold State.rejectOffer
  try dsimp only
  repeat' (first
    |(with_reducible (first
      | assumption | apply State.bump_keeps | apply State.tapErrorLogged_keeps | apply State.output_keeps))
    | split)

theorem State.applyTapOffer_keeps {s u : State} (h : Keeps s u) (h : ChanId) (bank : BitVec 6) (fmt : Byte) (dest : CoreId) :
    Keeps s (u.applyTapOffer h bank fmt dest) := by
  unfold State.applyTapOffer
  try dsimp only
  repeat' (first
    |(with_reducible (first
      | assumption | apply State.bump_keeps | apply State.tapErrorLogged_keeps | apply State.output_keeps
      | refine Keeps.onTap ?_ _ _ | apply State.rejectOffer_keeps))
    | split)

theorem State.applyTapGrant_keeps {s u : State} (h : Keeps s u) (h : ChanId) :
    Keeps s (u.applyTapGrant h) := by
  unfold State.applyTapGrant
  try dsimp only
  repeat' (first
    |(with_reducible (first
      | assumption | refine Keeps.onTap ?_ _ _ | apply State.output_keeps | apply State.rejectOffer_keeps))
    | split)

theorem State.burstFault_keeps {s u : State} (h : Keeps s u) (b : Burst) :
    Keeps s (u.burstFault b) := by
  unfold State.burstFault
  try dsimp only
  repeat' (first
    |(with_reducible (first | assumption | apply State.verbFault_keeps))
    | split)

theorem State.burstClean_keeps {s u : State} (h : Keeps s u) (h : ChanId) (b : Burst) (data : List W32) :
    Keeps s (u.burstClean h b data) := by
  unfold State.burstClean
  try dsimp only
  repeat' (first
    |(with_reducible (first
      | assumption | refine Keeps.onTap ?_ _ _ | apply State.output_keeps | apply State.add64_keeps))
    | split)

theorem State.burstBad_keeps {s u : State} (h : Keeps s u) (h : ChanId) (b : Burst) (cause : Nat) :
    Keeps s (u.burstBad h b cause) := by
  unfold State.burstBad
  try dsimp only
  repeat' (first
    |(with_reducible (first
      | assumption | refine Keeps.onTap ?_ _ _ | apply State.output_keeps | apply State.tapErrorLogged_keeps
      | apply State.burstFault_keeps | apply State.tapError_keeps | apply State.bump_keeps))
    | split)

theorem State.applyBurstEnd_keeps {s u : State} (h : Keeps s u) (h : ChanId) (d : TapBurst) :
    Keeps s (u.applyBurstEnd h d) := by
  unfold State.applyBurstEnd
  try dsimp only
  repeat' (first
    |(with_reducible (first
      | assumption | apply State.addSat_keeps | apply State.burstBad_keeps | apply State.burstClean_keeps))
    | split)

theorem State.applyTapAbort_keeps {s u : State} (h : Keeps s u) (h : ChanId) :
    Keeps s (u.applyTapAbort h) := by
  unfold State.applyTapAbort
  try dsimp only
  repeat' (first
    |(with_reducible (first
      | assumption | refine Keeps.onTap ?_ _ _ | apply State.bump_keeps | apply State.tapError_keeps))
    | split)

theorem State.applyBurstTimeout_keeps {s u : State} (h : Keeps s u) (h : ChanId) :
    Keeps s (u.applyBurstTimeout h) := by
  unfold State.applyBurstTimeout
  try dsimp only
  repeat' (first
    |(with_reducible (first
      | assumption | refine Keeps.onTap ?_ _ _ | apply State.output_keeps | apply State.bump_keeps
      | apply State.tapError_keeps))
    | split)

theorem State.applyTapWait_keeps {s u : State} (h : Keeps s u) (c : CoreId) :
    Keeps s (u.applyTapWait c) := by
  unfold State.applyTapWait
  try dsimp only
  repeat' (first
    |(with_reducible (first | assumption | apply State.tapError_keeps | apply State.verbFault_keeps))
    | split)

theorem State.applyStrayBeat_keeps {s u : State} (h : Keeps s u) (h : ChanId) :
    Keeps s (u.applyStrayBeat h) := by
  unfold State.applyStrayBeat
  try dsimp only
  repeat' (first
    |(with_reducible (first | assumption | apply State.tapError_keeps))
    | split)

theorem State.tapTrain_keeps {s u : State} (h : Keeps s u) (h : ChanId) :
    Keeps s (u.tapTrain h) := by
  unfold State.tapTrain
  try dsimp only
  repeat' (first
    |(with_reducible (first | assumption | refine Keeps.onTap ?_ _ _))
    | split)

theorem State.tapTrainAll_keeps {s u : State} (h : Keeps s u) :
    Keeps s (u.tapTrainAll) := by
  unfold State.tapTrainAll
  try dsimp only
  repeat' (first
    |(with_reducible (first | assumption | refine State.forEach_keeps (fun _ k => ?_) ?_ | apply State.tapTrain_keeps))
    | split)

theorem State.tapFall_keeps {s u : State} (h : Keeps s u) (h : ChanId) (f : TapCh → TapCh) :
    Keeps s (u.tapFall h f) := by
  unfold State.tapFall
  try dsimp only
  repeat' (first
    |(with_reducible (first | assumption | apply State.tapError_keeps | refine Keeps.onTap ?_ _ _))
    | split)

theorem State.tapDown_keeps {s u : State} (h : Keeps s u) (h : ChanId) :
    Keeps s (u.tapDown h) := by
  unfold State.tapDown
  try dsimp only
  repeat' (first
    |(with_reducible (first | assumption | apply State.tapFall_keeps))
    | split)

theorem State.tapDownAll_keeps {s u : State} (h : Keeps s u) :
    Keeps s (u.tapDownAll) := by
  unfold State.tapDownAll
  try dsimp only
  repeat' (first
    |(with_reducible (first | assumption | refine State.forEach_keeps (fun _ k => ?_) ?_ | apply State.tapDown_keeps))
    | split)

theorem State.tapAfterSwap_keeps {s u : State} (h : Keeps s u) :
    Keeps s (u.tapAfterSwap) := by
  unfold State.tapAfterSwap
  try dsimp only
  repeat' (first
    |(with_reducible (first
      | assumption | refine State.forEach_keeps (fun _ k => ?_) ?_ | apply State.tapTrain_keeps
      | apply State.tapDown_keeps))
    | split)

theorem State.applyLinkRise_keeps {s u : State} (h : Keeps s u) (h : ChanId) :
    Keeps s (u.applyLinkRise h) := by
  unfold State.applyLinkRise
  try dsimp only
  repeat' (first
    |(with_reducible (first | assumption | refine Keeps.onTap ?_ _ _ | apply State.tapTrain_keeps))
    | split)

theorem State.applyTrainingEnd_keeps {s u : State} (h : Keeps s u) (h : ChanId) (ok : Bool) :
    Keeps s (u.applyTrainingEnd h ok) := by
  unfold State.applyTrainingEnd
  try dsimp only
  repeat' (first
    |(with_reducible (first
      | assumption | refine Keeps.onTap ?_ _ _ | refine Keeps.tickFree ?_ | apply State.tapErrorLogged_keeps))
    | split)

theorem State.applyLinkFall_keeps {s u : State} (h : Keeps s u) (h : ChanId) :
    Keeps s (u.applyLinkFall h) := by
  unfold State.applyLinkFall
  try dsimp only
  repeat' (first
    |(with_reducible (first | assumption | apply State.tapFall_keeps))
    | split)

theorem State.applyClockStop_keeps {s u : State} (h : Keeps s u) (h : ChanId) :
    Keeps s (u.applyClockStop h) := by
  unfold State.applyClockStop
  try dsimp only
  repeat' (first
    |(with_reducible (first | assumption | apply State.tapFall_keeps))
    | split)

end Sys2Proof.Machine
end

