-- ==== Sys2Proof/Laws/KeepsLight.lean ====
section
/-!
SUPPORT. What the operations of Machine/Light.lean keep.
-/
namespace Sys2Proof.Machine

open Sys2Proof.Safety

theorem State.lockLoops_keeps {s u : State} (h : Keeps s u) :
    Keeps s (u.lockLoops) := by
  unfold State.lockLoops
  try dsimp only
  repeat' (first
    |(with_reducible (first
      | assumption | refine State.forEach_keeps (fun _ k => ?_) ?_ | refine Keeps.onPort ?_ _ _
      | apply Keeps.tickFree))
    | split)

theorem State.maintPort_keeps {s u : State} (h : Keeps s u) (q : PortId) :
    Keeps s (u.maintPort q) := by
  unfold State.maintPort
  try dsimp only
  repeat' (first
    |(with_reducible (first | assumption | apply State.notify_keeps))
    | split)

theorem State.maintMesh_keeps {s u : State} (h : Keeps s u) :
    Keeps s (u.maintMesh) := by
  unfold State.maintMesh
  try dsimp only
  repeat' (first
    |(with_reducible (first | assumption | apply State.notify_keeps))
    | split)

theorem State.modIssue_keeps {s u : State} (h : Keeps s u) (write : Bool) (sub value : Nat) :
    Keeps s (u.modIssue write sub value) := by
  unfold State.modIssue
  try dsimp only
  repeat' (first
    |(with_reducible (first | assumption | refine Keeps.onPho ?_ _ | apply State.output_keeps))
    | split)

theorem State.modSend_keeps {s u : State} (h : Keeps s u) (write : Bool) (sub value : Nat) :
    Keeps s (u.modSend write sub value) := by
  unfold State.modSend
  try dsimp only
  repeat' (first
    |(with_reducible (first | assumption | refine Keeps.onPho ?_ _ | apply State.modIssue_keeps))
    | split)

theorem State.modNext_keeps {s u : State} (h : Keeps s u) :
    Keeps s (u.modNext) := by
  unfold State.modNext
  try dsimp only
  repeat' (first
    |(with_reducible (first | assumption | refine Keeps.onPho ?_ _ | apply State.modIssue_keeps))
    | split)

theorem State.failRing_keeps {s u : State} (h : Keeps s u) (q : PortId) (rx : Bool) (k : LineId) :
    Keeps s (u.failRing q rx k) := by
  unfold State.failRing
  try dsimp only
  repeat' (first
    |(with_reducible (first
      | assumption | refine Keeps.onPort ?_ _ _ | apply State.logRec_keeps | apply State.maintPort_keeps))
    | split)

theorem State.endSession_keeps {s u : State} (h : Keeps s u) (q : PortId) (drop : Bool) :
    Keeps s (u.endSession q drop) := by
  unfold State.endSession
  try dsimp only
  repeat' (first
    |(with_reducible (first
      | assumption | refine Keeps.onPort ?_ _ _ | refine Keeps.onFab ?_ _ | apply State.addSat_keeps
      | apply State.logRec_keeps))
    | split)

theorem State.portStop_keeps {s u : State} (h : Keeps s u) (q : PortId) (bySwap : Bool) :
    Keeps s (u.portStop q bySwap) := by
  unfold State.portStop
  try dsimp only
  repeat' (first
    |(with_reducible (first
      | assumption | refine Keeps.onPort ?_ _ _ | refine Keeps.tickFree ?_ | apply State.endSession_keeps))
    | split)

theorem State.followLight_keeps {s u : State} (h : Keeps s u) :
    Keeps s (u.followLight) := by
  unfold State.followLight
  try dsimp only
  repeat' (first
    |(with_reducible (first
      | assumption | refine State.forEach_keeps (fun _ k => ?_) ?_ | refine Keeps.onPort ?_ _ _
      | apply State.portStop_keeps | refine Keeps.onMesh ?_ _))
    | split)

theorem State.lightUp_keeps {s u : State} (h : Keeps s u) :
    Keeps s (u.lightUp) := by
  unfold State.lightUp
  try dsimp only
  repeat' (first
    |(with_reducible (first | assumption | refine Keeps.onPho ?_ _ | apply State.modSend_keeps))
    | split)

theorem State.lightDown_keeps {s u : State} (h : Keeps s u) :
    Keeps s (u.lightDown) := by
  unfold State.lightDown
  try dsimp only
  repeat' (first
    |(with_reducible (first | assumption | apply State.modSend_keeps | refine Keeps.onPho ?_ _))
    | split)

theorem State.syncLight_keeps {s u : State} (h : Keeps s u) :
    Keeps s (u.syncLight) := by
  unfold State.syncLight
  try dsimp only
  repeat' (first
    |(with_reducible (first
      | assumption | apply State.lightUp_keeps | apply State.lightDown_keeps | refine Keeps.onPho ?_ _
      | apply State.followLight_keeps))
    | split)

theorem State.lightOff_keeps {s u : State} (h : Keeps s u) :
    Keeps s (u.lightOff) := by
  unfold State.lightOff
  try dsimp only
  repeat' (first
    |(with_reducible (first
      | assumption | apply State.modSend_keeps | refine Keeps.onPho ?_ _ | apply State.followLight_keeps))
    | split)

end Sys2Proof.Machine
end

