-- ==== Sys2Proof/Laws/KeepsPhotonics.lean ====
section
/-!
SUPPORT. What the operations of Machine/Photonics.lean keep.
-/
namespace Sys2Proof.Machine

open Sys2Proof.Safety

theorem State.announceOn_keeps {s u : State} (h : Keeps s u) (r : Nat) (q : PortId) :
    Keeps s (u.announceOn r q) := by
  unfold State.announceOn
  try dsimp only
  repeat' (first
    |(with_reducible (first
      | assumption | apply State.output_keeps))
    | split)

theorem State.calDueAt_keeps {s u : State} (h : Keeps s u) (q : PortId) :
    Keeps s (u.calDueAt q) := by
  unfold State.calDueAt
  try dsimp only
  repeat' (first
    |(with_reducible (first
      | assumption | refine Keeps.onPho ?_ _ | apply State.announceOn_keeps))
    | split)

theorem State.handoverDone_keeps {s u : State} (h : Keeps s u) :
    Keeps s (u.handoverDone) := by
  unfold State.handoverDone
  try dsimp only
  repeat' (first
    |(with_reducible (first
      | assumption | apply State.setDom_keeps | refine Keeps.tickFree ?_ | refine Keeps.onPho ?_ _
      | apply State.modSend_keeps | apply State.bump32_keeps | apply State.logRec_keeps))
    | split)

theorem State.lineSwitched_keeps {s u : State} (h : Keeps s u) (value : Nat) :
    Keeps s (u.lineSwitched value) := by
  unfold State.lineSwitched
  try dsimp only
  repeat' (first
    |(with_reducible (first
      | assumption | refine Keeps.onPho ?_ _ | refine Keeps.onMesh ?_ _ | apply State.handoverDone_keeps
      | refine State.forEach_keeps (fun _ k => ?_) ?_ | refine Keeps.onPort ?_ _ _))
    | split)

theorem State.modAnswer_keeps {s u : State} (h : Keeps s u) (q : ModReq) (r : ModResp) :
    Keeps s (u.modAnswer q r) := by
  unfold State.modAnswer
  try dsimp only
  repeat' (first
    |(with_reducible (first
      | assumption | apply State.lineSwitched_keeps | apply State.modSend_keeps | refine Keeps.onPho ?_ _))
    | split)

theorem State.applyModResponse_keeps {s u : State} (h : Keeps s u) (r : ModResp) :
    Keeps s (u.applyModResponse r) := by
  unfold State.applyModResponse
  try dsimp only
  repeat' (first
    |(with_reducible (first
      | assumption | refine Keeps.onPho ?_ _ | apply State.modAnswer_keeps | apply State.modNext_keeps))
    | split)

theorem State.applyModTimeout_keeps {s u : State} (h : Keeps s u) :
    Keeps s (u.applyModTimeout) := by
  unfold State.applyModTimeout
  try dsimp only
  repeat' (first
    |(with_reducible (first
      | assumption | refine Keeps.onPho ?_ _ | apply State.output_keeps | apply State.bump_keeps
      | apply State.logRec_keeps))
    | split)

theorem State.applyModRetry_keeps {s u : State} (h : Keeps s u) :
    Keeps s (u.applyModRetry) := by
  unfold State.applyModRetry
  try dsimp only
  repeat' (first
    |(with_reducible (first | assumption | refine Keeps.onPho ?_ _ | apply State.output_keeps))
    | split)

theorem State.searchRing_keeps {s u : State} (h : Keeps s u) (q : PortId) (rx : Bool) (found : List RingFind) (k : LineId) :
    Keeps s (u.searchRing q rx found k) := by
  unfold State.searchRing
  try dsimp only
  repeat' (first
    |(with_reducible (first | assumption | refine Keeps.onPort ?_ _ _ | apply State.failRing_keeps))
    | split)

theorem State.applyPilots_keeps {s u : State} (h : Keeps s u) (q : PortId) (rx : Bool) (found : List RingFind) :
    Keeps s (u.applyPilots q rx found) := by
  unfold State.applyPilots
  try dsimp only
  repeat' (first
    |(with_reducible (first
      | assumption | refine Keeps.onPort ?_ _ _ | refine State.forEach_keeps (fun _ k => ?_) ?_
      | apply State.searchRing_keeps))
    | split)

theorem State.applyCalibrated_keeps {s u : State} (h : Keeps s u) (q : PortId) (rx : Bool) :
    Keeps s (u.applyCalibrated q rx) := by
  unfold State.applyCalibrated
  try dsimp only
  repeat' (first
    |(with_reducible (first
      | assumption | refine Keeps.onPort ?_ _ _ | apply State.output_keeps | apply Keeps.tickFree))
    | split)

theorem State.foundMislock_keeps {s u : State} (h : Keeps s u) (q : PortId) (rx : Bool) (k : LineId) (line : Nat) (ev : LineId) :
    Keeps s (u.foundMislock q rx k line ev) := by
  unfold State.foundMislock
  try dsimp only
  repeat' (first
    |(with_reducible (first
      | assumption | refine Keeps.onPort ?_ _ _ | apply State.bump_keeps | apply State.logRec_keeps
      | apply State.latch_keeps))
    | split)

theorem State.applyOutOfLock_keeps {s u : State} (h : Keeps s u) (q : PortId) (rx : Bool) (k : LineId) (found : RingFind) :
    Keeps s (u.applyOutOfLock q rx k found) := by
  unfold State.applyOutOfLock
  try dsimp only
  repeat' (first
    |(with_reducible (first | assumption | refine Keeps.onPort ?_ _ _ | apply State.foundMislock_keeps))
    | split)

theorem State.applyPilotCheck_keeps {s u : State} (h : Keeps s u) (q : PortId) (rx : Bool) (k line : LineId) :
    Keeps s (u.applyPilotCheck q rx k line) := by
  unfold State.applyPilotCheck
  try dsimp only
  repeat' (first
    |(with_reducible (first | assumption | refine Keeps.onPort ?_ _ _ | apply State.foundMislock_keeps))
    | split)

theorem State.announceMove_keeps {s u : State} (h : Keeps s u) (r : Nat) :
    Keeps s (u.announceMove r) := by
  unfold State.announceMove
  try dsimp only
  repeat' (first
    |(with_reducible (first
      | assumption | refine State.forEach_keeps (fun _ k => ?_) ?_ | apply State.output_keeps
      | apply State.announceOn_keeps))
    | split)

theorem State.beginMislock_keeps {s u : State} (h : Keeps s u) (q : PortId) (k : LineId) (relock fails : Bool) :
    Keeps s (u.beginMislock q k relock fails) := by
  unfold State.beginMislock
  try dsimp only
  repeat' (first
    |(with_reducible (first | assumption | refine Keeps.onPho ?_ _ | apply State.announceMove_keeps))
    | split)

theorem State.applyMislock_keeps {s u : State} (h : Keeps s u) (q : PortId) (rx : Bool) (k line : LineId) :
    Keeps s (u.applyMislock q rx k line) := by
  unfold State.applyMislock
  try dsimp only
  repeat' (first
    |(with_reducible (first
      | assumption | apply State.output_keeps | apply State.failRing_keeps | apply State.maintPort_keeps
      | apply State.latch_keeps | apply State.beginMislock_keeps))
    | split)

theorem State.moveAll_keeps {s u : State} (h : Keeps s u) (r : Nat) :
    Keeps s (u.moveAll r) := by
  unfold State.moveAll
  try dsimp only
  repeat' (first
    |(with_reducible (first
      | assumption | refine State.forEach_keeps (fun _ k => ?_) ?_ | apply State.putNull_keeps
      | refine Keeps.onPort ?_ _ _ | refine Keeps.onPho ?_ _ | apply State.add64_keeps))
    | split)

theorem State.relock_keeps {s u : State} (h : Keeps s u) (q : PortId) (k : LineId) (f : RingFind) (fails : Bool) :
    Keeps s (u.relock q k f fails) := by
  unfold State.relock
  try dsimp only
  repeat' (first
    |(with_reducible (first | assumption | refine Keeps.onPort ?_ _ _ | apply State.failRing_keeps))
    | split)

theorem State.applyMislockMove_keeps {s u : State} (h : Keeps s u) (k : LineId) (f : RingFind) :
    Keeps s (u.applyMislockMove k f) := by
  unfold State.applyMislockMove
  try dsimp only
  repeat' (first
    |(with_reducible (first
      | assumption | apply State.moveAll_keeps | refine Keeps.onPho ?_ _ | apply State.relock_keeps))
    | split)

theorem State.applyCalDue_keeps {s u : State} (h : Keeps s u) :
    Keeps s (u.applyCalDue) := by
  unfold State.applyCalDue
  try dsimp only
  repeat' (first
    |(with_reducible (first
      | assumption | refine Keeps.onPho ?_ _ | apply State.announceMove_keeps
      | refine State.forEach_keeps (fun _ k => ?_) ?_ | apply State.calDueAt_keeps))
    | split)

theorem State.applyRotation_keeps {s u : State} (h : Keeps s u) :
    Keeps s (u.applyRotation) := by
  unfold State.applyRotation
  try dsimp only
  repeat' (first
    |(with_reducible (first | assumption | apply State.moveAll_keeps))
    | split)

theorem State.applyCalStep_keeps {s u : State} (h : Keeps s u) (q : PortId) (rx last : Bool) :
    Keeps s (u.applyCalStep q rx last) := by
  unfold State.applyCalStep
  try dsimp only
  repeat' (first
    |(with_reducible (first
      | assumption | refine Keeps.onPort ?_ _ _ | apply State.output_keeps | apply Keeps.tickFree))
    | split)

theorem State.applyCalOverdue_keeps {s u : State} (h : Keeps s u) (q : PortId) (rx : Bool) :
    Keeps s (u.applyCalOverdue q rx) := by
  unfold State.applyCalOverdue
  try dsimp only
  repeat' (first
    |(with_reducible (first | assumption | apply State.bump_keeps))
    | split)

theorem State.startWarm_keeps {s u : State} (h : Keeps s u) :
    Keeps s (u.startWarm) := by
  unfold State.startWarm
  try dsimp only
  repeat' (first
    |(with_reducible (first | assumption | refine Keeps.onPho ?_ _ | apply State.modSend_keeps))
    | split)

theorem State.raiseFade_keeps {s u : State} (h : Keeps s u) (mesh : Bool) (prev : Option (List Int)) (d : List Int) (ks : List Nat) :
    Keeps s (u.raiseFade mesh prev d ks) := by
  unfold State.raiseFade
  try dsimp only
  repeat' (first
    |(with_reducible (first | assumption | apply State.latch_keeps))
    | split)

theorem State.applyFadeSample_keeps {s u : State} (h : Keeps s u) (mon : List Int) :
    Keeps s (u.applyFadeSample mon) := by
  unfold State.applyFadeSample
  try dsimp only
  repeat' (first
    |(with_reducible (first
      | assumption | apply State.setDom_keeps | refine Keeps.onPho ?_ _ | apply State.raiseFade_keeps
      | apply State.startWarm_keeps))
    | split)

theorem State.applyFade_keeps {s u : State} (h : Keeps s u) (mesh : Bool) (line : LineId) (loss : Nat) :
    Keeps s (u.applyFade mesh line loss) := by
  unfold State.applyFade
  try dsimp only
  repeat' (first
    |(with_reducible (first
      | assumption | refine Keeps.onPho ?_ _ | apply State.logRec_keeps | apply State.maintMesh_keeps
      | apply State.maintPort_keeps))
    | split)

theorem State.applySpareNotReady_keeps {s u : State} (h : Keeps s u) :
    Keeps s (u.applySpareNotReady) := by
  unfold State.applySpareNotReady
  try dsimp only
  repeat' (first
    |(with_reducible (first | assumption | refine Keeps.onPho ?_ _ | apply State.logRec_keeps))
    | split)

theorem State.switchLine_keeps {s u : State} (h : Keeps s u) (k : Nat) :
    Keeps s (u.switchLine k) := by
  unfold State.switchLine
  try dsimp only
  repeat' (first
    |(with_reducible (first
      | assumption | refine Keeps.onMesh ?_ _ | refine Keeps.onPho ?_ _ | apply State.modSend_keeps))
    | split)

theorem State.applySpareReady_keeps {s u : State} (h : Keeps s u) :
    Keeps s (u.applySpareReady) := by
  unfold State.applySpareReady
  try dsimp only
  repeat' (first
    |(with_reducible (first | assumption | refine Keeps.onPho ?_ _ | apply State.switchLine_keeps))
    | split)

theorem State.applyHandover_keeps {s u : State} (h : Keeps s u) :
    Keeps s (u.applyHandover) := by
  unfold State.applyHandover
  try dsimp only
  repeat' (first
    |(with_reducible (first | assumption | apply State.switchLine_keeps))
    | split)

theorem State.commission_keeps {s u : State} (h : Keeps s u) :
    Keeps s (u.commission) := by
  unfold State.commission
  try dsimp only
  repeat' (first
    |(with_reducible (first
      | assumption | apply State.setDom_keeps | refine State.forEach_keeps (fun _ k => ?_) ?_
      | apply State.setSgl_keeps | refine Keeps.onPho ?_ _))
    | split)

theorem State.applyLoss_keeps {s u : State} (h : Keeps s u) (q : PortId) (mon far : List Int) :
    Keeps s (u.applyLoss q mon far) := by
  unfold State.applyLoss
  try dsimp only
  repeat' (first
    |(with_reducible (first | assumption | apply State.setDom_keeps | apply State.setSgl_keeps))
    | split)

theorem State.applyAnnounce_keeps {s u : State} (h : Keeps s u) (q : PortId) (slot : Fin 16) (ring : LineId) :
    Keeps s (u.applyAnnounce q slot ring) := by
  unfold State.applyAnnounce
  try dsimp only
  repeat' (first
    |(with_reducible (first | assumption | refine Keeps.onPort ?_ _ _))
    | split)

theorem State.applySpareRequest_keeps {s u : State} (h : Keeps s u) (q : PortId) (k : LineId) :
    Keeps s (u.applySpareRequest q k) := by
  unfold State.applySpareRequest
  try dsimp only
  repeat' (first
    |(with_reducible (first | assumption | apply State.beginMislock_keeps))
    | split)

theorem State.applyCalMsg_keeps {s u : State} (h : Keeps s u) (_q : PortId) :
    Keeps s (u.applyCalMsg _q) := by
  unfold State.applyCalMsg
  try dsimp only
  repeat' (first
    |(with_reducible (first | assumption))
    | split)

theorem State.applyCalDone_keeps {s u : State} (h : Keeps s u) (q : PortId) :
    Keeps s (u.applyCalDone q) := by
  unfold State.applyCalDone
  try dsimp only
  repeat' (first
    |(with_reducible (first | assumption | refine Keeps.onPort ?_ _ _))
    | split)

end Sys2Proof.Machine
end

