-- ==== Sys2Proof/Laws/KeepsFabric.lean ====
section
/-!
SUPPORT. What the operations of Machine/Fabric.lean keep.
-/
namespace Sys2Proof.Machine

open Sys2Proof.Safety

theorem State.failPort_keeps {s u : State} (h : Keeps s u) (q : PortId) (cause : Nat) :
    Keeps s (u.failPort q cause) := by
  unfold State.failPort
  try dsimp only
  repeat' (first
    |(with_reducible (first | assumption | refine Keeps.onPort ?_ _ _ | apply State.logRec_keeps))
    | split)

theorem State.openSession_keeps {s u : State} (h : Keeps s u) (q : PortId) :
    Keeps s (u.openSession q) := by
  unfold State.openSession
  try dsimp only
  repeat' (first
    |(with_reducible (first
      | assumption | refine Keeps.onPort ?_ _ _ | refine Keeps.onFab ?_ _ | apply State.addSat_keeps
      | apply State.bump32_keeps | apply State.logRec_keeps))
    | split)

theorem State.resend_keeps {s u : State} (h : Keeps s u) (q : PortId) :
    Keeps s (u.resend q) := by
  unfold State.resend
  try dsimp only
  repeat' (first
    |(with_reducible (first
      | assumption | refine State.forEach_keeps (fun _ k => ?_) ?_ | apply State.putFlit_keeps
      | apply State.addSat_keeps))
    | split)

theorem State.linkUp_keeps {s u : State} (h : Keeps s u) (q : PortId) (m : TrainMsg) :
    Keeps s (u.linkUp q m) := by
  unfold State.linkUp
  try dsimp only
  repeat' (first
    |(with_reducible (first
      | assumption | apply State.openSession_keeps | refine Keeps.onPort ?_ _ _ | apply State.resend_keeps))
    | split)

theorem State.answer_keeps {s u : State} (h : Keeps s u) (m : Msg) (type aux : Nat) (data : List Byte) :
    Keeps s (u.answer m type aux data) := by
  unfold State.answer
  try dsimp only
  repeat' (first
    |(with_reducible (first | assumption | apply State.sendMsg_keeps))
    | split)

theorem State.refuse_keeps {s u : State} (h : Keeps s u) (m : Msg) (cause : Nat) :
    Keeps s (u.refuse m cause) := by
  unfold State.refuse
  try dsimp only
  repeat' (first
    |(with_reducible (first | assumption | apply State.answer_keeps))
    | split)

theorem State.refuseAddr_keeps {s u : State} (h : Keeps s u) (m : Msg) (cause : Nat) :
    Keeps s (u.refuseAddr m cause) := by
  unfold State.refuseAddr
  try dsimp only
  repeat' (first
    |(with_reducible (first
      | assumption | apply State.bump_keeps | apply State.addrFaultRec_keeps | apply State.refuse_keeps))
    | split)

theorem State.checked_keeps {s u : State} (h : Keeps s u) (m : Msg) {go : State} (hg : Keeps s go) :
    Keeps s (u.checked m go) := by
  unfold State.checked
  repeat' (first
    | (with_reducible (first | assumption | apply State.refuse_keeps | apply State.refuseAddr_keeps))
    | split)

theorem State.doRead_keeps {s u : State} (h : Keeps s u) (m : Msg) :
    Keeps s (u.doRead m) := by
  unfold State.doRead
  try dsimp only
  repeat' (first
    |(with_reducible (first
      | assumption | refine State.checked_keeps ?_ _ ?_ | apply State.answer_keeps | apply State.countLines_keeps
      | apply State.refuse_keeps | apply State.checked_keeps | apply State.checkRead_keeps))
    | split)

theorem State.doWrite_keeps {s u : State} (h : Keeps s u) (m : Msg) :
    Keeps s (u.doWrite m) := by
  unfold State.doWrite
  try dsimp only
  repeat' (first
    |(with_reducible (first
      | assumption | apply State.storeWrite_keeps | refine State.checked_keeps ?_ _ ?_ | apply State.refuse_keeps
      | apply State.answer_keeps))
    | split)

theorem State.doAtomic_keeps {s u : State} (h : Keeps s u) (m : Msg) :
    Keeps s (u.doAtomic m) := by
  unfold State.doAtomic
  try dsimp only
  repeat' (first
    |(with_reducible (first
      | assumption | refine State.checked_keeps ?_ _ ?_ | apply State.refuse_keeps | apply State.atomLocal_keeps
      | apply State.answer_keeps | refine Keeps.snd (by assumption) ?_ | apply State.checked_keeps
      | apply State.checkRead_keeps))
    | split)

theorem State.doSignal_keeps {s u : State} (h : Keeps s u) (m : Msg) :
    Keeps s (u.doSignal m) := by
  unfold State.doSignal
  try dsimp only
  repeat' (first
    |(with_reducible (first | assumption | apply State.bump_keeps | apply State.applySignal_keeps))
    | split)

theorem State.doWaitReg_keeps {s u : State} (h : Keeps s u) (m : Msg) :
    Keeps s (u.doWaitReg m) := by
  unfold State.doWaitReg
  try dsimp only
  repeat' (first
    |(with_reducible (first
      | assumption | refine Keeps.onFab ?_ _ | refine State.checked_keeps ?_ _ ?_ | apply State.answer_keeps))
    | split)

theorem State.grantTile_keeps {s u : State} (h : Keeps s u) (m : Msg) (b : Fin 16) :
    Keeps s (u.grantTile m b) := by
  unfold State.grantTile
  try dsimp only
  repeat' (first
    |(with_reducible (first | assumption | refine Keeps.onFab ?_ _ | apply State.answer_keeps))
    | split)

theorem State.doTileOpen_keeps {s u : State} (h : Keeps s u) (m : Msg) :
    Keeps s (u.doTileOpen m) := by
  unfold State.doTileOpen
  try dsimp only
  repeat' (first
    |(with_reducible (first
      | assumption | refine State.checked_keeps ?_ _ ?_ | apply State.grantTile_keeps | refine Keeps.onFab ?_ _))
    | split)

theorem State.releaseBuf_keeps {s u : State} (h : Keeps s u) (b : Fin 16) :
    Keeps s (u.releaseBuf b) := by
  unfold State.releaseBuf
  try dsimp only
  repeat' (first
    |(with_reducible (first | assumption | refine Keeps.onFab ?_ _ | apply State.grantTile_keeps))
    | split)

theorem State.commitRemote_keeps {s u : State} (h : Keeps s u) (m : Msg) (b : Fin 16) (t : CommitBuf) :
    Keeps s (u.commitRemote m b t) := by
  unfold State.commitRemote
  try dsimp only
  repeat' (first
    |(with_reducible (first
      | assumption | apply State.storeWrite_keeps | apply State.refuse_keeps | apply State.answer_keeps
      | apply State.releaseBuf_keeps))
    | split)

theorem State.doTileData_keeps {s u : State} (h : Keeps s u) (m : Msg) :
    Keeps s (u.doTileData m) := by
  unfold State.doTileData
  try dsimp only
  repeat' (first
    |(with_reducible (first
      | assumption | refine State.checked_keeps ?_ _ ?_ | apply State.releaseBuf_keeps | refine Keeps.onFab ?_ _
      | apply State.commitRemote_keeps))
    | split)

theorem State.closeReq_keeps {s u : State} (h : Keeps s u) (tag : BitVec 16) :
    Keeps s (u.closeReq tag) := by
  unfold State.closeReq
  try dsimp only
  repeat' (first
    |(with_reducible (first | assumption | refine Keeps.onFab ?_ _))
    | split)

theorem State.answered_keeps {s u : State} (h : Keeps s u) (m : Msg) {f : State → RemReq → State}
    (hf : ∀ {v : State} (r : RemReq), Keeps s v → Keeps s (f v r)) : Keeps s (u.answered m f) := by
  unfold State.answered
  split
  · exact hf _ (State.closeReq_keeps h _)
  · split
    · exact State.bump_keeps (h.onFab _) _
    · exact h

theorem State.threadAnswer_keeps {s u : State} (h : Keeps s u) (r : RemReq) (value : Option W64) :
    Keeps s (u.threadAnswer r value) := by
  unfold State.threadAnswer
  try dsimp only
  repeat' (first
    |(with_reducible (first | assumption | apply State.setS_keeps | apply State.resumeThread_keeps))
    | split)

theorem State.doReadData_keeps {s u : State} (h : Keeps s u) (m : Msg) :
    Keeps s (u.doReadData m) := by
  unfold State.doReadData
  try dsimp only
  repeat' (first
    |(with_reducible (first
      | assumption | refine State.answered_keeps ?_ _ (fun _ k => ?_) | apply State.threadAnswer_keeps
      | refine Keeps.onCore ?_ _ _))
    | split)

theorem State.doWriteAck_keeps {s u : State} (h : Keeps s u) (m : Msg) :
    Keeps s (u.doWriteAck m) := by
  unfold State.doWriteAck
  try dsimp only
  repeat' (first
    |(with_reducible (first
      | assumption | refine State.answered_keeps ?_ _ (fun _ k => ?_) | apply State.threadAnswer_keeps))
    | split)

theorem State.doAtomicData_keeps {s u : State} (h : Keeps s u) (m : Msg) :
    Keeps s (u.doAtomicData m) := by
  unfold State.doAtomicData
  try dsimp only
  repeat' (first
    |(with_reducible (first
      | assumption | refine State.answered_keeps ?_ _ (fun _ k => ?_) | apply State.threadAnswer_keeps))
    | split)

theorem State.sendRuns_keeps {s : State} (r : RemReq) : ∀ (l : List (SMap (Byte × Byte))) {u : State}, Keeps s u →
    Keeps s (u.sendRuns r l)
  | [], _, h => h
  | x :: l, u, h => by
    unfold State.sendRuns
    exact State.sendRuns_keeps r l (State.sendMsg_keeps h.tickFree _)

theorem State.doTileGrant_keeps {s u : State} (h : Keeps s u) (m : Msg) :
    Keeps s (u.doTileGrant m) := by
  unfold State.doTileGrant
  try dsimp only
  repeat' (first
    |(with_reducible (first
      | assumption | refine State.answered_keeps ?_ _ (fun _ k => ?_) | refine Keeps.onFab ?_ _
      | apply State.sendRuns_keeps | refine Keeps.fst (by assumption) ?_))
    | split)

theorem State.doTileAck_keeps {s u : State} (h : Keeps s u) (m : Msg) :
    Keeps s (u.doTileAck m) := by
  unfold State.doTileAck
  try dsimp only
  repeat' (first
    |(with_reducible (first
      | assumption | refine State.answered_keeps ?_ _ (fun _ k => ?_) | refine Keeps.onCore ?_ _ _))
    | split)

theorem State.doWaitAnswer_keeps {s u : State} (h : Keeps s u) (m : Msg) : Keeps s (u.doWaitAnswer m) := by
  unfold State.doWaitAnswer
  split
  · exact h
  · split
    · exact State.resumeThread_keeps h _
    · refine Keeps.onThreadSame h _ ?_
      split <;> rfl

theorem State.reqFault_keeps {s u : State} (h : Keeps s u) (r : RemReq) (kind cause : Nat) :
    Keeps s (u.reqFault r kind cause) := by
  unfold State.reqFault
  try dsimp only
  repeat' (first
    |(with_reducible (first
      | assumption | refine Keeps.onThreadSame ?_ _ rfl | apply State.threadAccessFault_keeps
      | apply State.verbFault_keeps | refine Keeps.onCore ?_ _ _))
    | split)

theorem State.doError_keeps {s u : State} (h : Keeps s u) (m : Msg) :
    Keeps s (u.doError m) := by
  unfold State.doError
  try dsimp only
  repeat' (first
    |(with_reducible (first
      | assumption | apply State.bump_keeps | apply State.setSgl_keeps | refine Keeps.onThreadSame ?_ _ rfl
      | apply State.threadAccessFault_keeps | refine State.answered_keeps ?_ _ (fun _ k => ?_)
      | apply State.reqFault_keeps))
    | split)

theorem State.deliver_keeps {s u : State} (h : Keeps s u) (m : Msg) :
    Keeps s (u.deliver m) := by
  unfold State.deliver
  try dsimp only
  repeat' (first
    |(with_reducible (first
      | assumption | apply State.doRead_keeps | apply State.doWrite_keeps | apply State.doTileOpen_keeps
      | apply State.doTileData_keeps | apply State.doAtomic_keeps | apply State.doSignal_keeps
      | apply State.doWaitReg_keeps | apply State.doReadData_keeps | apply State.doWriteAck_keeps
      | apply State.doTileGrant_keeps | apply State.doTileAck_keeps | apply State.doAtomicData_keeps
      | apply State.doWaitAnswer_keeps | apply State.doError_keeps | apply State.bump_keeps))
    | split)

theorem State.freeEntry_keeps {s u : State} (h : Keeps s u) (q : PortId) (ch : Nat) :
    Keeps s (u.freeEntry q ch) := by
  unfold State.freeEntry
  try dsimp only
  repeat' (first
    |(with_reducible (first | assumption | refine Keeps.onPort ?_ _ _))
    | split)

theorem State.pumpBuf_keeps {s : State} (q : PortId) : ∀ (l : List (Nat × Msg)) (b : List Nat) (k : List (Nat × Msg))
    {u : State}, Keeps s u → Keeps s (u.pumpBuf q l b k)
  | [], _, _, _, h => h.onPort _ _
  | e :: l, b, k, u, h => by
    unfold State.pumpBuf
    dsimp only
    split
    · exact State.pumpBuf_keeps q l _ _ h
    · split
      · split
        · exact State.pumpBuf_keeps q l _ _ ((State.freeEntry_keeps (State.deliver_keeps h ..) ..).onFab _)
        · exact State.pumpBuf_keeps q l _ _ h
      · split
        · next s1 e1 => exact State.pumpBuf_keeps q l _ _ (State.freeEntry_keeps (Keeps.fst e1 (State.trySend_keeps h ..)) ..)
        · next s1 e1 => exact State.pumpBuf_keeps q l _ _ (Keeps.fst e1 (State.trySend_keeps h ..))

theorem State.pump_keeps {s u : State} (h : Keeps s u) :
    Keeps s (u.pump) := by
  unfold State.pump
  try dsimp only
  repeat' (first
    |(with_reducible (first
      | assumption | apply State.drain_keeps | refine State.forEach_keeps (fun _ k => ?_) ?_
      | apply State.pumpBuf_keeps | refine Keeps.fst (by assumption) ?_))
    | split)

theorem State.takeHeader_keeps {s u : State} (h : Keeps s u) (q : PortId) (bs : List Byte) (taken : Bool) :
    Keeps s (u.takeHeader q bs taken) := by
  unfold State.takeHeader
  try dsimp only
  repeat' (first
    |(with_reducible (first | assumption | refine Keeps.onPort ?_ _ _ | apply State.resend_keeps))
    | split)

theorem State.takeMarker_keeps {s u : State} (h : Keeps s u) (q : PortId) (bs : List Byte) :
    Keeps s (u.takeMarker q bs) := by
  unfold State.takeMarker
  try dsimp only
  repeat' (first
    |(with_reducible (first | assumption | refine Keeps.onPort ?_ _ _))
    | split)

theorem State.acceptFlit_keeps {s u : State} (h : Keeps s u) (q : PortId) (ch : Nat) (bs : List Byte) :
    Keeps s (u.acceptFlit q ch bs) := by
  unfold State.acceptFlit
  try dsimp only
  repeat' (first
    |(with_reducible (first
      | assumption | refine Keeps.onPort ?_ _ _ | refine Keeps.onFab ?_ _ | apply State.add64_keeps
      | apply State.freeEntry_keeps))
    | split)

theorem State.applyFlit_keeps {s u : State} (h : Keeps s u) (q : PortId) (bs : List Byte) :
    Keeps s (u.applyFlit q bs) := by
  unfold State.applyFlit
  try dsimp only
  repeat' (first
    |(with_reducible (first
      | assumption | apply State.bump_keeps | apply State.putNull_keeps | apply State.takeHeader_keeps
      | apply State.takeMarker_keeps | apply State.pump_keeps | apply State.acceptFlit_keeps))
    | split)

theorem State.applyTrain_keeps {s u : State} (h : Keeps s u) (q : PortId) (m : TrainMsg) :
    Keeps s (u.applyTrain q m) := by
  unfold State.applyTrain
  try dsimp only
  repeat' (first
    |(with_reducible (first
      | assumption | refine Keeps.onPort ?_ _ _ | apply State.failPort_keeps | apply State.linkUp_keeps
      | apply State.pump_keeps))
    | split)

theorem State.applyTrainTimeout_keeps {s u : State} (h : Keeps s u) (q : PortId) :
    Keeps s (u.applyTrainTimeout q) := by
  unfold State.applyTrainTimeout
  try dsimp only
  repeat' (first
    |(with_reducible (first | assumption | apply State.failPort_keeps))
    | split)

theorem State.applyLinkDown_keeps {s u : State} (h : Keeps s u) (q : PortId) :
    Keeps s (u.applyLinkDown q) := by
  unfold State.applyLinkDown
  try dsimp only
  repeat' (first
    |(with_reducible (first
      | assumption | refine Keeps.onPort ?_ _ _ | apply State.bump_keeps | apply State.output_keeps))
    | split)

theorem State.applyRetrainLimit_keeps {s u : State} (h : Keeps s u) (q : PortId) :
    Keeps s (u.applyRetrainLimit q) := by
  unfold State.applyRetrainLimit
  try dsimp only
  repeat' (first
    |(with_reducible (first | assumption | apply State.failPort_keeps))
    | split)

theorem State.applyMsg_keeps {s u : State} (h : Keeps s u) (t : Nat) (m : Msg) {f : State → State}
    (hf : ∀ {v : State}, Keeps s v → Keeps s (f v)) : Keeps s (u.applyMsg t m f) := by
  unfold State.applyMsg
  split
  · exact State.pump_keeps (hf (h.onFab _))
  · exact h

theorem State.applyAnswer_keeps {s u : State} (h : Keeps s u) (t : Nat) (m : Msg) {f : State → State}
    (hf : ∀ {v : State}, Keeps s v → Keeps s (f v)) : Keeps s (u.applyAnswer t m f) := by
  unfold State.applyAnswer
  split
  · exact State.applyMsg_keeps h t m hf
  · exact h

theorem State.applyRemoteTimeout_keeps {s u : State} (h : Keeps s u) (tag : BitVec 16) :
    Keeps s (u.applyRemoteTimeout tag) := by
  unfold State.applyRemoteTimeout
  try dsimp only
  repeat' (first
    |(with_reducible (first
      | assumption | apply State.closeReq_keeps | apply State.setSgl_keeps | refine Keeps.onFab ?_ _
      | apply State.reqFault_keeps))
    | split)

theorem State.applyReregister_keeps {s u : State} (h : Keeps s u) (t : ThreadId) :
    Keeps s (u.applyReregister t) := by
  unfold State.applyReregister
  try dsimp only
  repeat' (first
    |(with_reducible (first | assumption | refine Keeps.onThreadSame ?_ _ rfl | apply State.sendMsg_keeps))
    | split)

end Sys2Proof.Machine
end

