-- ==== Sys2Proof/Laws/KeepsMesh.lean ====
section
/-!
SUPPORT. What the operations of Machine/Mesh.lean keep.
-/
namespace Sys2Proof.Machine

open Sys2Proof.Safety

theorem State.loadSlot_keeps {s u : State} (h : Keeps s u) (x : Nat) :
    Keeps s (u.loadSlot x) := by
  unfold State.loadSlot
  try dsimp only
  repeat' (first
    |(with_reducible (first | assumption | refine Keeps.onMesh ?_ _ | apply State.bump_keeps))
    | split)

theorem State.applySlotLoad_keeps {s u : State} (h : Keeps s u) (x : Fin 8) :
    Keeps s (u.applySlotLoad x) := by
  unfold State.applySlotLoad
  try dsimp only
  repeat' (first
    |(with_reducible (first | assumption | apply State.loadSlot_keeps))
    | split)

theorem State.applyBringup_keeps {s u : State} (h : Keeps s u) :
    Keeps s (u.applyBringup) := by
  unfold State.applyBringup
  try dsimp only
  repeat' (first
    |(with_reducible (first | assumption | refine Keeps.onMesh ?_ _ | apply State.loadSlot_keeps))
    | split)

theorem State.stepTaken_keeps {s u : State} (h : Keeps s u) :
    Keeps s (u.stepTaken) := by
  unfold State.stepTaken
  try dsimp only
  repeat' (first
    |(with_reducible (first | assumption | refine Keeps.onMesh ?_ _ | apply State.add64_keeps))
    | split)

theorem State.applyGain_keeps {s u : State} (h : Keeps s u) (mon : Int) :
    Keeps s (u.applyGain mon) := by
  unfold State.applyGain
  try dsimp only
  repeat' (first
    |(with_reducible (first | assumption | apply State.stepTaken_keeps | refine Keeps.onMesh ?_ _))
    | split)

theorem State.meshFails_keeps {s u : State} (h : Keeps s u) (x : Fin 64) :
    Keeps s (u.meshFails x) := by
  unfold State.meshFails
  try dsimp only
  repeat' (first
    |(with_reducible (first
      | assumption | refine Keeps.onMesh ?_ _ | apply State.setSgl_keeps | apply State.logRec_keeps
      | apply State.maintMesh_keeps))
    | split)

theorem State.stepInput_keeps {s u : State} (h : Keeps s u) (x : Fin 64) (r : StepResult) :
    Keeps s (u.stepInput x r) := by
  unfold State.stepInput
  try dsimp only
  repeat' (first
    |(with_reducible (first
      | assumption | apply State.stepTaken_keeps | refine Keeps.onMesh ?_ _ | apply State.setDom_keeps
      | apply State.setSgl_keeps | apply State.meshFails_keeps))
    | split)

theorem State.applyInputStep_keeps {s u : State} (h : Keeps s u) (r : StepResult) :
    Keeps s (u.applyInputStep r) := by
  unfold State.applyInputStep
  try dsimp only
  repeat' (first
    |(with_reducible (first | assumption | apply State.stepInput_keeps))
    | split)

theorem State.applyStepDue_keeps {s u : State} (h : Keeps s u) :
    Keeps s (u.applyStepDue) := by
  unfold State.applyStepDue
  try dsimp only
  repeat' (first
    |(with_reducible (first | assumption | refine Keeps.onMesh ?_ _))
    | split)

theorem State.applyMeshTemp_keeps {s u : State} (h : Keeps s u) (temp : W32) :
    Keeps s (u.applyMeshTemp temp) := by
  unfold State.applyMeshTemp
  try dsimp only
  repeat' (first
    |(with_reducible (first
      | assumption | refine Keeps.onMesh ?_ _ | refine foldl_keeps (fun _ k => ?_) ?_
      | refine foldl_fst_keeps (fun _ _ k => ?_) ?_))
    | split)

theorem State.applyMeshPower_keeps {s u : State} (h : Keeps s u) (mon : Int) :
    Keeps s (u.applyMeshPower mon) := by
  unfold State.applyMeshPower
  try dsimp only
  repeat' (first
    |(with_reducible (first | assumption | apply State.setDom_keeps | refine Keeps.onMesh ?_ _))
    | split)

theorem State.applyMeshOverdue_keeps {s u : State} (h : Keeps s u) :
    Keeps s (u.applyMeshOverdue) := by
  unfold State.applyMeshOverdue
  try dsimp only
  repeat' (first
    |(with_reducible (first | assumption | refine Keeps.onMesh ?_ _ | apply State.addSat_keeps))
    | split)

theorem State.grantMesh_keeps {s u : State} (h : Keeps s u) (c : Nat) :
    Keeps s (u.grantMesh c) := by
  unfold State.grantMesh
  try dsimp only
  repeat' (first
    |(with_reducible (first
      | assumption | refine Keeps.onMesh ?_ _ | apply State.add64_keeps | apply State.bump_keeps))
    | split)

theorem State.applyMeshGrant_keeps {s u : State} (h : Keeps s u) :
    Keeps s (u.applyMeshGrant) := by
  unfold State.applyMeshGrant
  try dsimp only
  repeat' (first
    |(with_reducible (first | assumption | apply State.grantMesh_keeps))
    | split)

end Sys2Proof.Machine
end

