-- ==== Sys2Proof/Laws/KeepsMoods.lean ====
section
/-!
SUPPORT. What the operations of Machine/Moods.lean keep.
-/
namespace Sys2Proof.Machine

open Sys2Proof.Safety

theorem Store.lose_canon {t : Store} (lo hi : Nat) (h : t.canon) : (t.lose lo hi).canon := ⟨SMap.clear_wf lo hi h.1, h.2⟩

/-- Putting cells that differ from what an unlisted byte reads as keeps the canonical form. -/
theorem Memory.foldl_put_wf (g : Nat → Nat) : ∀ (l : List (Nat × Byte)) {m : Memory}, (∀ e ∈ l, e.2 ≠ (0 : Byte)) →
    m.wf = true → Memory.wf (l.foldl (fun (m : Memory) e => SMap.put m (g e.1) e.2) m) = true
  | [], _, _, h => h
  | e :: l, _, hl, h => Memory.foldl_put_wf g l (fun x hx => hl x (List.mem_cons_of_mem _ hx))
      (SMap.put_wfFrom (g e.1) e.2 (Nat.zero_le _) (hl e List.mem_cons_self) h)

/-- Copying a stretch keeps the store's form. -/
theorem Store.copy_canon {t : Store} (src dst n : Nat) (h : t.canon) : (t.copy src dst n).canon :=
  ⟨Memory.foldl_put_wf (fun a => a - src + dst) _ (fun e he => SMap.mem_ne h.1 e (List.mem_filter.1 he).1)
    (SMap.clear_wf _ _ h.1), h.2⟩

theorem State.driveRails_keeps {s u : State} (h : Keeps s u) (w : BitVec 5) :
    Keeps s (u.driveRails w) := by
  unfold State.driveRails
  try dsimp only
  repeat' (first
    |(with_reducible (first | assumption | refine Keeps.onAon ?_ ⟨rfl, rfl, rfl⟩))
    | split)

theorem State.syncPower_keeps {s u : State} (h : Keeps s u) :
    Keeps s (u.syncPower) := by
  unfold State.syncPower
  try dsimp only
  repeat' (first
    |(with_reducible (first | assumption | apply State.driveRails_keeps | apply State.syncLight_keeps))
    | split)

theorem State.moveStretch_keeps {s u : State} (h : Keeps s u) (src dst n : Nat) :
    Keeps s (u.moveStretch src dst n) := by
  unfold State.moveStretch
  try dsimp only
  repeat' (first
    |(with_reducible (first
      | assumption | apply State.checkRead_keeps | refine Keeps.onStore ?_ (fun x => Store.copy_canon _ _ _ x)
      | apply State.countLines_keeps))
    | split)

theorem State.enterPhase_keeps {s u : State} (h : Keeps s u) (t : Trans) (n : Nat) :
    Keeps s (u.enterPhase t n) := by
  unfold State.enterPhase
  try dsimp only
  repeat' (first
    |(with_reducible (first
      | assumption | refine Keeps.onMood ?_ _ | apply State.syncPower_keeps | apply State.tapTrainAll_keeps))
    | split)

theorem State.spillOne_keeps {s u : State} (h : Keeps s u) (store : Bool) (e : Fin 8) : Keeps s (u.spillOne store e) := by
  unfold State.spillOne
  split
  · exact h
  · exact (State.moveStretch_keeps h ..).onStoreSame ⟨rfl, rfl⟩

theorem State.spillArrays_keeps {s u : State} (h : Keeps s u) (store : Bool) : Keeps s (u.spillArrays store) :=
  Keeps.onStore (State.forEach_keeps (fun e k => State.spillOne_keeps k store e) h) (fun x => Store.lose_canon _ _ x)

theorem State.fillOne_keeps {s u : State} (h : Keeps s u) (store : Bool) (e : Fin 8) : Keeps s (u.fillOne store e) := by
  unfold State.fillOne
  split
  · split
    · exact Keeps.onStoreSame h (f := fun t => { t with spilled := vmod t.spilled e (fun x => setSpilled x store false) })
        ⟨rfl, rfl⟩
    · exact (State.moveStretch_keeps h ..).onStoreSame ⟨rfl, rfl⟩
  · exact h

theorem State.fillArrays_keeps {s u : State} (h : Keeps s u) (store : Bool) : Keeps s (u.fillArrays store) :=
  State.forEach_keeps (fun e k => State.fillOne_keeps k store e) (Keeps.onStore h (fun x => Store.lose_canon _ _ x))

theorem State.setRefresh_keeps {s u : State} (h : Keeps s u) (b : Bool) :
    Keeps s (u.setRefresh b) := by
  unfold State.setRefresh
  try dsimp only
  repeat' (first
    |(with_reducible (first | assumption | refine Keeps.onStoreSame ?_ ⟨rfl, rfl⟩))
    | split)

theorem State.loseKeep_keeps {s u : State} (h : Keeps s u) : Keeps s u.loseKeep := by
  unfold State.loseKeep
  refine Keeps.onStore (State.forEach_keeps (fun c k => ?_) h)
    (f := fun t => { t.blank with sigAccepted := t.sigAccepted, sigApplied := t.sigApplied }) (fun _ => ⟨rfl, rfl⟩)
  split
  · exact State.logRec_keeps (State.abandon_keeps k ..) ..
  · exact k

theorem State.leaveCold_keeps {s u : State} (h : Keeps s u) : Keeps s u.leaveCold :=
  Keeps.onStore (State.resetAllParts_keeps h) (f := fun t => { (t.lose descBase 0xF0500000) with conj := [] })
    (fun x => ⟨(Store.lose_canon _ _ x).1, rfl⟩)

theorem State.enterMood_keeps {s u : State} (h : Keeps s u) (m target : Mood) :
    Keeps s (u.enterMood m target) := by
  unfold State.enterMood
  try dsimp only
  repeat' (first
    |(with_reducible (first
      | assumption | refine Keeps.onMood ?_ _ | apply State.bump32_keeps | apply State.logRec_keeps
      | apply State.notify_keeps))
    | split)

theorem State.markStart_keeps {s u : State} (h : Keeps s u) :
    Keeps s (u.markStart) := by
  unfold State.markStart
  try dsimp only
  repeat' (first
    |(with_reducible (first | assumption | refine Keeps.onMood ?_ _))
    | split)

theorem State.enterQuiesce_keeps {s u : State} (h : Keeps s u) (target : Mood) :
    Keeps s (u.enterQuiesce target) := by
  unfold State.enterQuiesce
  try dsimp only
  repeat' (first
    |(with_reducible (first
      | assumption | refine Keeps.onMood ?_ _ | apply State.enterMood_keeps | apply State.markStart_keeps
      | apply State.syncPower_keeps))
    | split)

theorem State.preemptCores_keeps {s u : State} (h : Keeps s u) (l : List CoreId) :
    Keeps s (u.preemptCores l) := by
  unfold State.preemptCores
  try dsimp only
  repeat' (first
    |(with_reducible (first | assumption | refine State.forEach_keeps (fun _ k => ?_) ?_ | refine Keeps.onCore ?_ _ _))
    | split)

theorem State.flushTiles_keeps {s u : State} (h : Keeps s u) (c : CoreId) :
    Keeps s (u.flushTiles c) := by
  unfold State.flushTiles
  try dsimp only
  repeat' (first
    |(with_reducible (first
      | assumption | refine State.forEach_keeps (fun _ k => ?_) ?_ | apply State.commitOldest_keeps))
    | split)

theorem State.quiesceEnd_keeps {s u : State} (h : Keeps s u) :
    Keeps s (u.quiesceEnd) := by
  unfold State.quiesceEnd
  try dsimp only
  repeat' (first
    |(with_reducible (first
      | assumption | apply State.loseKeep_keeps | apply State.setRefresh_keeps | apply State.leaveCold_keeps
      | refine Keeps.onLink ?_ _ | refine Keeps.onMood ?_ _ | apply State.enterMood_keeps
      | apply State.syncPower_keeps))
    | split)

theorem State.quiesceSpill_keeps {s u : State} (h : Keeps s u) :
    Keeps s (u.quiesceSpill) := by
  unfold State.quiesceSpill
  try dsimp only
  repeat' (first
    |(with_reducible (first | assumption | apply State.spillArrays_keeps))
    | split)

theorem State.applyQuiesceStep_keeps {s u : State} (h : Keeps s u) :
    Keeps s (u.applyQuiesceStep) := by
  unfold State.applyQuiesceStep
  try dsimp only
  repeat' (first
    |(with_reducible (first
      | assumption | refine Keeps.onMood ?_ _ | apply State.preemptCores_keeps | apply State.syncPower_keeps
      | refine State.forEach_keeps (fun _ k => ?_) ?_ | apply State.flushTiles_keeps | apply State.tapDownAll_keeps
      | apply State.quiesceSpill_keeps | apply State.quiesceEnd_keeps))
    | split)

theorem State.startWake_keeps {s u : State} (h : Keeps s u) (d : Mood) :
    Keeps s (u.startWake d) := by
  unfold State.startWake
  try dsimp only
  repeat' (first
    |(with_reducible (first
      | assumption | refine Keeps.onMood ?_ _ | apply State.preemptCores_keeps | apply State.markStart_keeps
      | apply State.syncPower_keeps))
    | split)

theorem State.plainHush_keeps {s u : State} (h : Keeps s u) :
    Keeps s (u.plainHush) := by
  unfold State.plainHush
  try dsimp only
  repeat' (first
    |(with_reducible (first
      | assumption | apply State.leaveCold_keeps | apply State.loseKeep_keeps | apply State.enterMood_keeps
      | apply State.markStart_keeps | apply State.syncPower_keeps))
    | split)

theorem State.startMove_keeps {s u : State} (h : Keeps s u) (d : Mood) :
    Keeps s (u.startMove d) := by
  unfold State.startMove
  try dsimp only
  repeat' (first
    |(with_reducible (first
      | assumption | apply State.startWake_keeps | apply State.enterQuiesce_keeps | apply State.plainHush_keeps))
    | split)

theorem State.freshPoints_keeps {s u : State} (h : Keeps s u) (wake : Bool) :
    Keeps s (u.freshPoints wake) := by
  unfold State.freshPoints
  try dsimp only
  repeat' (first
    |(with_reducible (first | assumption | refine Keeps.onAon ?_ ⟨rfl, rfl, rfl⟩))
    | split)

theorem State.arrive_keeps {s u : State} (h : Keeps s u) (t : Trans) :
    Keeps s (u.arrive t) := by
  unfold State.arrive
  try dsimp only
  repeat' (first
    |(with_reducible (first
      | assumption | apply State.leaveCold_keeps | refine Keeps.onMood ?_ _ | apply State.setRefresh_keeps
      | apply State.freshPoints_keeps | apply State.enterMood_keeps | apply State.syncPower_keeps
      | apply State.tapTrainAll_keeps))
    | split)

theorem State.endWake_keeps {s u : State} (h : Keeps s u) (t : Trans) : Keeps s (u.endWake t) := by
  unfold State.endWake
  split
  · have h2 := Keeps.onStore ((State.tapDownAll_keeps h).onMood (fun d => { d.unbrace with trans := none, phase := 0, target := t.start, halved := false }))
      (f := fun u => { u.blank with sigAccepted := u.sigAccepted, sigApplied := u.sigApplied }) (fun _ => ⟨rfl, rfl⟩)
    exact State.syncPower_keeps (Keeps.ite (State.enterMood_keeps h2 ..) h2)
  · exact State.enterQuiesce_keeps h ..

theorem State.phaseWork_keeps {s u : State} (h : Keeps s u) (t : Trans) (x : Nat) : Keeps s (u.phaseWork t x) := by
  unfold State.phaseWork
  split
  · exact State.setRefresh_keeps h _
  · exact Keeps.onStore h (fun x => Store.lose_canon _ _ x)
  · split
    · exact Keeps.onStore h (fun x => Store.lose_canon _ _ x)
    · dsimp only
      repeat' (first
        | (with_reducible (first | assumption | apply State.fillArrays_keeps))
        | split)
  · exact h

theorem State.lowerInBrace_keeps {s u : State} (h : Keeps s u) :
    Keeps s (u.lowerInBrace) := by
  unfold State.lowerInBrace
  try dsimp only
  repeat' (first
    |(with_reducible (first
      | assumption | refine Keeps.onMood ?_ _ | apply State.freshPoints_keeps | apply State.syncPower_keeps))
    | split)

theorem State.applyPhase_keeps {s u : State} (h : Keeps s u) :
    Keeps s (u.applyPhase) := by
  unfold State.applyPhase
  try dsimp only
  repeat' (first
    |(with_reducible (first
      | assumption | apply State.phaseWork_keeps | refine Keeps.onMood ?_ _ | apply State.lowerInBrace_keeps
      | apply State.endWake_keeps | apply State.arrive_keeps | apply State.syncPower_keeps
      | apply State.enterPhase_keeps))
    | split)

theorem State.enterBrace_keeps {s u : State} (h : Keeps s u) :
    Keeps s (u.enterBrace) := by
  unfold State.enterBrace
  try dsimp only
  repeat' (first
    |(with_reducible (first
      | assumption | refine Keeps.onMood ?_ _ | apply State.bump32_keeps | apply State.enterMood_keeps
      | apply State.markStart_keeps | refine Keeps.onAon ?_ ⟨rfl, rfl, rfl⟩))
    | split)

theorem State.warnAct_keeps {s u : State} (h : Keeps s u) (m : MonId) (fresh : Bool) :
    Keeps s (u.warnAct m fresh) := by
  unfold State.warnAct
  try dsimp only
  repeat' (first
    |(with_reducible (first
      | assumption | apply State.bump_keeps | refine Keeps.onMood ?_ _ | apply State.enterBrace_keeps
      | apply State.logRec_keeps))
    | split)

theorem State.applyWarning_keeps {s u : State} (h : Keeps s u) (m : MonId) :
    Keeps s (u.applyWarning m) := by
  unfold State.applyWarning
  try dsimp only
  repeat' (first
    |(with_reducible (first | assumption | refine Keeps.onAon ?_ ⟨rfl, rfl, rfl⟩ | apply State.warnAct_keeps))
    | split)

theorem State.applyBraceExit_keeps {s u : State} (h : Keeps s u) :
    Keeps s (u.applyBraceExit) := by
  unfold State.applyBraceExit
  try dsimp only
  repeat' (first
    |(with_reducible (first
      | assumption | refine Keeps.onMood ?_ _ | apply State.enterMood_keeps | apply State.markStart_keeps
      | apply State.syncPower_keeps | apply State.arrive_keeps | refine Keeps.onAon ?_ ⟨rfl, rfl, rfl⟩
      | apply State.enterPhase_keeps))
    | split)

theorem State.applyBraceLimit_keeps {s u : State} (h : Keeps s u) :
    Keeps s (u.applyBraceLimit) := by
  unfold State.applyBraceLimit
  try dsimp only
  repeat' (first
    |(with_reducible (first | assumption | apply State.enterQuiesce_keeps))
    | split)

theorem State.tripAct_keeps {s u : State} (h : Keeps s u) :
    Keeps s (u.tripAct) := by
  unfold State.tripAct
  try dsimp only
  repeat' (first
    |(with_reducible (first
      | assumption | apply State.enterQuiesce_keeps | apply State.endWake_keeps | refine Keeps.onMood ?_ _))
    | split)

theorem State.applyTrip_keeps {s u : State} (h : Keeps s u) (n : SensorId) :
    Keeps s (u.applyTrip n) := by
  unfold State.applyTrip
  try dsimp only
  repeat' (first
    |(with_reducible (first
      | assumption | refine Keeps.onAon ?_ ⟨rfl, rfl, rfl⟩ | apply State.bump_keeps | apply State.logRec_keeps
      | apply State.tripAct_keeps))
    | split)

theorem State.applyTripClear_keeps {s u : State} (h : Keeps s u) :
    Keeps s (u.applyTripClear) := by
  unfold State.applyTripClear
  try dsimp only
  repeat' (first
    |(with_reducible (first | assumption | refine Keeps.onAon ?_ ⟨rfl, rfl, rfl⟩))
    | split)

theorem State.takeVector_keeps {s u : State} (h : Keeps s u) : Keeps s u.takeVector := by
  unfold State.takeVector
  split
  · exact (State.setSgl_keeps h ..).onLink _
  · exact h

theorem State.wipeCore_keeps {s u : State} (h : Keeps s u) : Keeps s u.wipeCore := by
  unfold State.wipeCore
  extract_lets s1 s2 tr s3 mb s4 s5 s6
  have k1 : Keeps s s1 := State.resetAllParts_keeps (State.takeVector_keeps h)
  clear_value s1
  have k2 : Keeps s s2 := k1.onStore (fun _ => ⟨rfl, rfl⟩)
  clear_value s2
  have k3 : Keeps s s3 := k2.same rfl rfl rfl rfl rfl rfl
  clear_value s3
  have k4 : Keeps s s4 := k3.onLink _
  clear_value s4
  have k5 : Keeps s s5 := k4.onAon ⟨rfl, rfl, rfl⟩
  clear_value s5
  have k6 : Keeps s s6 := State.lightOff_keeps (k5.onMood _)
  clear_value s6
  exact k6.same rfl rfl rfl rfl rfl rfl

theorem State.toHush_keeps {s u : State} (h : Keeps s u) (cause : Nat) :
    Keeps s (u.toHush cause) := by
  unfold State.toHush
  try dsimp only
  repeat' (first
    |(with_reducible (first
      | assumption | apply State.wipeCore_keeps | apply State.setSgl_keeps | apply State.logRec_keeps
      | refine Keeps.onMood ?_ _ | apply State.enterMood_keeps | apply State.syncPower_keeps
      | apply State.markStart_keeps))
    | split)

theorem State.supplyReset_keeps {s u : State} (h : Keeps s u) (m : MonId) :
    Keeps s (u.supplyReset m) := by
  unfold State.supplyReset
  try dsimp only
  repeat' (first
    |(with_reducible (first
      | assumption | apply State.bump_keeps | apply State.endWake_keeps | apply State.toHush_keeps))
    | split)

theorem State.applySupplyReset_keeps {s u : State} (h : Keeps s u) (m : MonId) :
    Keeps s (u.applySupplyReset m) := by
  unfold State.applySupplyReset
  try dsimp only
  repeat' (first
    |(with_reducible (first | assumption | refine Keeps.onAon ?_ ⟨rfl, rfl, rfl⟩ | apply State.supplyReset_keeps))
    | split)

theorem State.applyPgTimeout_keeps {s u : State} (h : Keeps s u) (r : Fin 4) (m : MonId) :
    Keeps s (u.applyPgTimeout r m) := by
  unfold State.applyPgTimeout
  try dsimp only
  repeat' (first
    |(with_reducible (first | assumption | apply State.supplyReset_keeps))
    | split)

theorem State.applyPgFall_keeps {s u : State} (h : Keeps s u) (r : Fin 4) (m : MonId) :
    Keeps s (u.applyPgFall r m) := by
  unfold State.applyPgFall
  try dsimp only
  repeat' (first
    |(with_reducible (first | assumption | refine Keeps.onAon ?_ ⟨rfl, rfl, rfl⟩ | apply State.supplyReset_keeps))
    | split)

theorem State.applyRstN_keeps {s u : State} (h : Keeps s u) :
    Keeps s (u.applyRstN) := by
  unfold State.applyRstN
  try dsimp only
  repeat' (first
    |(with_reducible (first | assumption | refine Keeps.onMood ?_ _ | apply State.toHush_keeps))
    | split)

theorem State.applyRstRelease_keeps {s u : State} (h : Keeps s u) :
    Keeps s (u.applyRstRelease) := by
  unfold State.applyRstRelease
  try dsimp only
  repeat' (first
    |(with_reducible (first | assumption | refine Keeps.onMood ?_ _))
    | split)

theorem State.resetCore_keeps {s u : State} (h : Keeps s u) :
    Keeps s (u.resetCore) := by
  unfold State.resetCore
  try dsimp only
  repeat' (first
    |(with_reducible (first | assumption | apply State.toHush_keeps))
    | split)

theorem State.loadBuild_keeps {s u : State} (h : Keeps s u) :
    Keeps s (u.loadBuild) := by
  unfold State.loadBuild
  try dsimp only
  repeat' (first
    |(with_reducible (first
      | assumption | apply State.setSgl_keeps | apply State.setAct_keeps | apply State.setShd_keeps))
    | split)

theorem Dict.reload_canon {d : Dict} (h : d.canon) : d.reload.canon :=
  ⟨rfl, rfl, SMap.filter_wfFrom _ h.2.2.1, rfl, rfl, SMap.filter_wfFrom _ h.2.2.2.2.2⟩

/-- Threads as they are at reset. -/
theorem Keeps.freshThreads {s u v : State} (h : Keeps s u) (e1 : v.aon = u.aon) (e2 : v.dict = u.dict)
    (e3 : v.ledger = u.ledger) (e4 : v.store = u.store) (e5 : v.threads = Vector.replicate 80 Thread.reset)
    (e6 : v.pending = u.pending) : Keeps s v :=
  ⟨e6.trans h.pending, (congrArg Aon.tick e1).trans h.tick, (congrArg Aon.node e1).trans h.node,
    (congrArg Aon.sled e1).trans h.sled, fun x => by
      have y := h.sound x
      simp only [Safety.sound, ledgerOk, memoriesOk, mapsOk, e2, e3, e4] at y ⊢
      refine ⟨y.1, ⟨y.2.1.1, fun i => ?_⟩, y.2.2⟩
      rw [e5, Fin.getElem_fin, Vector.getElem_replicate]
      exact Thread.reset_priv_wf⟩

theorem State.resetConfig_keeps {s u : State} (h : Keeps s u) : Keeps s u.resetConfig := by
  unfold State.resetConfig
  split
  · exact h
  · extract_lets s1 pr ms s2 th s3 s4 s5
    have k1 : Keeps s s1 := State.wipeCore_keeps h
    clear_value s1
    have k : Keeps s ((s1.onLedger (fun _ => Ledger.reset)).onDict Dict.reload) :=
      (k1.onLedger (fun _ => Ledger.reset_ok)).onDict Dict.reload_canon
    have k2 : Keeps s s2 := State.loadBuild_keeps (k.freshThreads rfl rfl rfl rfl rfl rfl)
    clear_value s2
    have k3 : Keeps s s3 := k2.onAon ⟨rfl, rfl, rfl⟩
    clear_value s3
    have k4 : Keeps s s4 := k3.onLink _
    clear_value s4
    have k5 : Keeps s s5 := k4.onMood _
    clear_value s5
    exact State.syncPower_keeps (State.markStart_keeps
      (State.enterMood_keeps (State.logRec_keeps (State.setSgl_keeps k5 ..) ..) ..))



theorem State.enterFault_keeps {s u : State} (h : Keeps s u) (mask code detail : Nat) (expected found : Int) :
    Keeps s (u.enterFault mask code detail expected found) := by
  unfold State.enterFault
  try dsimp only
  repeat' (first
    |(with_reducible (first
      | assumption | refine Keeps.onMood ?_ _ | apply State.tapDownAll_keeps | apply State.setSgl_keeps
      | refine Keeps.onAon ?_ ⟨rfl, rfl, rfl⟩ | apply State.enterMood_keeps | apply State.logRec_keeps
      | apply State.markStart_keeps))
    | split)

theorem State.applyEnterFault_keeps {s u : State} (h : Keeps s u) (id : Fin 8) (inst sub : Byte) :
    Keeps s (u.applyEnterFault id inst sub) := by
  unfold State.applyEnterFault
  try dsimp only
  repeat' (first
    |(with_reducible (first | assumption | apply State.enterFault_keeps))
    | split)

theorem State.followBounds_keeps {s u : State} (h : Keeps s u) :
    Keeps s (u.followBounds) := by
  unfold State.followBounds
  try dsimp only
  repeat' (first
    |(with_reducible (first | assumption | refine Keeps.onMood ?_ _ | apply State.startMove_keeps))
    | split)

theorem State.applyBounds_keeps {s u : State} (h : Keeps s u) :
    Keeps s (u.applyBounds) := by
  unfold State.applyBounds
  try dsimp only
  repeat' (first
    |(with_reducible (first | assumption | refine Keeps.onMood ?_ _ | apply State.startMove_keeps))
    | split)

theorem State.applyWakeN_keeps {s u : State} (h : Keeps s u) :
    Keeps s (u.applyWakeN) := by
  unfold State.applyWakeN
  try dsimp only
  repeat' (first
    |(with_reducible (first | assumption | refine Keeps.onMood ?_ _ | apply State.startMove_keeps))
    | split)

theorem State.applyLinger_keeps {s u : State} (h : Keeps s u) :
    Keeps s (u.applyLinger) := by
  unfold State.applyLinger
  try dsimp only
  repeat' (first
    |(with_reducible (first | assumption | apply State.startMove_keeps))
    | split)

theorem State.countHeld_keeps {s u : State} (h : Keeps s u) (l : List (Nat × Mood)) :
    Keeps s (u.countHeld l) := by
  unfold State.countHeld
  try dsimp only
  repeat' (first
    |(with_reducible (first
      | assumption | apply State.addSat_keeps | refine Keeps.onMood ?_ _ | refine Keeps.onLink ?_ _))
    | split)

theorem State.evalDemands_keeps {s u : State} (h : Keeps s u) :
    Keeps s (u.evalDemands) := by
  unfold State.evalDemands
  try dsimp only
  repeat' (first
    |(with_reducible (first | assumption | apply State.countHeld_keeps | apply State.startMove_keeps))
    | split)

theorem State.applyTapWake_keeps {s u : State} (h : Keeps s u) :
    Keeps s (u.applyTapWake) := by
  unfold State.applyTapWake
  try dsimp only
  repeat' (first
    |(with_reducible (first | assumption | refine Keeps.onMood ?_ _ | apply State.evalDemands_keeps))
    | split)

theorem State.applyClusterStop_keeps {s u : State} (h : Keeps s u) (k : ClusterId) :
    Keeps s (u.applyClusterStop k) := by
  unfold State.applyClusterStop
  try dsimp only
  repeat' (first
    |(with_reducible (first | assumption | refine Keeps.onAon ?_ ⟨rfl, rfl, rfl⟩))
    | split)

theorem State.applyTickLock_keeps {s u : State} (h : Keeps s u) :
    Keeps s (u.applyTickLock) := by
  unfold State.applyTickLock
  try dsimp only
  repeat' (first
    |(with_reducible (first | assumption | refine Keeps.onAon ?_ ⟨rfl, rfl, rfl⟩ | apply State.logRec_keeps))
    | split)

theorem State.applyHoldover_keeps {s u : State} (h : Keeps s u) :
    Keeps s (u.applyHoldover) := by
  unfold State.applyHoldover
  try dsimp only
  repeat' (first
    |(with_reducible (first
      | assumption | refine Keeps.onAon ?_ ⟨rfl, rfl, rfl⟩ | apply State.bump_keeps | apply State.logRec_keeps))
    | split)

theorem State.applyEdges_keeps {s u : State} (h : Keeps s u) :
    Keeps s (u.applyEdges) := by
  unfold State.applyEdges
  try dsimp only
  repeat' (first
    |(with_reducible (first | assumption | refine Keeps.onAon ?_ ⟨rfl, rfl, rfl⟩))
    | split)

theorem State.applyRelock_keeps {s u : State} (h : Keeps s u) :
    Keeps s (u.applyRelock) := by
  unfold State.applyRelock
  try dsimp only
  repeat' (first
    |(with_reducible (first | assumption | refine Keeps.onAon ?_ ⟨rfl, rfl, rfl⟩ | apply State.logRec_keeps))
    | split)

end Sys2Proof.Machine
end

