-- ==== Sys2Proof/Laws/KeepsSwap.lean ====
section
/-!
SUPPORT. What the operations of Machine/Swap.lean keep.
-/
namespace Sys2Proof.Machine

open Sys2Proof.Safety

theorem State.shadowView_keeps {s u : State} (h : Keeps s u) : Keeps s u.shadowView :=
  Keeps.onDict h (f := fun d => { d with act := d.shd, dact := d.dshd }) (fun x => ⟨x.2.1, x.2.1, x.2.2.1, x.2.2.2.2.1, x.2.2.2.2.1, x.2.2.2.2.2⟩)

theorem State.applySwapRequest_keeps {s u : State} (h : Keeps s u) :
    Keeps s ((u.applySwapRequest).2) := by
  unfold State.applySwapRequest
  try dsimp only
  repeat' (first
    |(with_reducible (first | assumption | apply State.setSgl_keeps | refine Keeps.onAon ?_ ⟨rfl, rfl, rfl⟩))
    | split)

theorem State.swapLeave_keeps {s u : State} (h : Keeps s u) (v : State) :
    Keeps s (u.swapLeave v) := by
  unfold State.swapLeave
  try dsimp only
  repeat' (first
    |(with_reducible (first
      | assumption | refine State.forEach_keeps (fun _ k => ?_) ?_ | apply State.resetEffects_keeps
      | apply State.bump32_keeps | apply State.removeCores_keeps | apply State.beginReset_keeps))
    | split)

theorem State.exchange_keeps {s u : State} (h : Keeps s u) : Keeps s u.exchange :=
  Keeps.onDict h (f := fun d => { d with act := d.shd, dact := d.dshd }) (fun x => ⟨x.2.1, x.2.1, x.2.2.1, x.2.2.2.2.1, x.2.2.2.2.1, x.2.2.2.2.2⟩)

theorem State.joinCore_keeps {s u : State} (h : Keeps s u) (c : CoreId) :
    Keeps s (u.joinCore c) := by
  unfold State.joinCore
  try dsimp only
  repeat' (first
    |(with_reducible (first
      | assumption | apply State.seedCore_keeps | apply State.zeroRing_keeps | refine Keeps.onThreadSame ?_ _ rfl))
    | split)

theorem State.swapEnter_keeps {s u : State} (h : Keeps s u) (o : State) :
    Keeps s (u.swapEnter o) := by
  unfold State.swapEnter
  try dsimp only
  repeat' (first
    |(with_reducible (first
      | assumption | refine State.forEach_keeps (fun _ k => ?_) ?_ | refine Keeps.onPart ?_ _ _
      | apply State.joinCore_keeps | apply State.seedCore_keeps | apply State.zeroRing_keeps
      | apply State.zeroCompl_keeps))
    | split)

theorem State.swapLogs_keeps {s u : State} (h : Keeps s u) (l : List Nat) :
    Keeps s (u.swapLogs l) := by
  unfold State.swapLogs
  try dsimp only
  repeat' (first
    |(with_reducible (first
      | assumption | refine State.forEach_keeps (fun _ k => ?_) ?_ | refine Keeps.onCore ?_ _ _
      | apply State.clearMeshCounts_keeps))
    | split)

theorem State.swapSlot_keeps {s u : State} (h : Keeps s u) (l : List Nat) :
    Keeps s (u.swapSlot l) := by
  unfold State.swapSlot
  try dsimp only
  repeat' (first
    |(with_reducible (first | assumption | apply State.loadSlot_keeps))
    | split)

theorem State.swapWatch_keeps {s u : State} (h : Keeps s u) (l : List Nat) :
    Keeps s (u.swapWatch l) := by
  unfold State.swapWatch
  try dsimp only
  repeat' (first
    |(with_reducible (first | assumption | refine Keeps.onAon ?_ ⟨rfl, rfl, rfl⟩))
    | split)

theorem State.takeSwap_keeps {s u : State} (h : Keeps s u) :
    Keeps s (u.takeSwap) := by
  unfold State.takeSwap
  try dsimp only
  repeat' (first
    |(with_reducible (first
      | assumption | apply State.shadowView_keeps | apply State.swapLeave_keeps | apply State.exchange_keeps
      | apply State.swapEnter_keeps | refine Keeps.onAon ?_ ⟨rfl, rfl, rfl⟩ | apply State.bump32_keeps
      | apply State.swapLogs_keeps | apply State.swapWatch_keeps | apply State.notify_keeps
      | apply State.tapAfterSwap_keeps | apply State.syncPower_keeps | apply State.swapSlot_keeps
      | refine Keeps.onMood ?_ _ | apply State.followBounds_keeps))
    | split)

theorem State.applySwapEffect_keeps {s u : State} (h : Keeps s u) :
    Keeps s (u.applySwapEffect) := by
  unfold State.applySwapEffect
  try dsimp only
  repeat' (first
    |(with_reducible (first | assumption | apply State.takeSwap_keeps))
    | split)

theorem State.applySwapForce_keeps {s u : State} (h : Keeps s u) :
    Keeps s (u.applySwapForce) := by
  unfold State.applySwapForce
  try dsimp only
  repeat' (first
    |(with_reducible (first
      | assumption | refine Keeps.onAon ?_ ⟨rfl, rfl, rfl⟩ | apply State.logRec_keeps
      | refine State.forEach_keeps (fun _ k => ?_) ?_ | apply State.preemptAll_keeps))
    | split)

theorem State.revertShadow_keeps {s u : State} (h : Keeps s u) : Keeps s u.revertShadow :=
  Keeps.onDict h (f := fun d => { d with shd := d.act, dshd := d.dact }) (fun x => ⟨x.1, x.1, x.2.2.1, x.2.2.2.1, x.2.2.2.1, x.2.2.2.2.2⟩)

end Sys2Proof.Machine
end

