-- ==== Sys2Proof/Laws/KeepsPlanner.lean ====
section
/-!
SUPPORT. What the operations of Machine/Planner.lean keep.
-/
namespace Sys2Proof.Machine

open Sys2Proof.Safety

theorem State.syncFeed_keeps {s u : State} (h : Keeps s u) :
    Keeps s (u.syncFeed) := by
  unfold State.syncFeed
  try dsimp only
  repeat' (first
    |(with_reducible (first | assumption | refine Keeps.onAon ?_ ⟨rfl, rfl, rfl⟩ | apply State.logRec_keeps))
    | split)

theorem State.applyBattery_keeps {s u : State} (h : Keeps s u) (k v : Nat) :
    Keeps s (u.applyBattery k v) := by
  unfold State.applyBattery
  try dsimp only
  repeat' (first
    |(with_reducible (first | assumption | apply State.setSgl_keeps | apply State.syncFeed_keeps))
    | split)

theorem State.sense_keeps {s u : State} (h : Keeps s u) (ts : List W32) :
    Keeps s (u.sense ts) := by
  unfold State.sense
  try dsimp only
  repeat' (first
    |(with_reducible (first | assumption | refine Keeps.onAon ?_ ⟨rfl, rfl, rfl⟩))
    | split)

theorem State.thermalTick_keeps {s u : State} (h : Keeps s u) :
    Keeps s (u.thermalTick) := by
  unfold State.thermalTick
  try dsimp only
  repeat' (first
    |(with_reducible (first
      | assumption | refine Keeps.onAon ?_ ⟨rfl, rfl, rfl⟩ | refine Keeps.tickFree ?_
      | refine foldl_keeps (fun _ k => ?_) ?_ | refine foldl_fst_keeps (fun _ _ k => ?_) ?_))
    | split)

theorem State.countCycles_keeps {s u : State} (h : Keeps s u) (m : Meters) :
    Keeps s (u.countCycles m) := by
  unfold State.countCycles
  try dsimp only
  repeat' (first
    |(with_reducible (first
      | assumption | refine State.forEach_keeps (fun _ k => ?_) ?_ | apply State.setSgl_keeps
      | apply State.add64_keeps))
    | split)

theorem State.setDeadline_keeps {s u : State} (h : Keeps s u) (p : PartId) (v : Nat) :
    Keeps s (u.setDeadline p v) := by
  unfold State.setDeadline
  try dsimp only
  repeat' (first
    |(with_reducible (first | assumption | apply State.setSgl_keeps | refine Keeps.onPart ?_ _ _))
    | split)

theorem State.missDeadlines_keeps {s u : State} (h : Keeps s u) :
    Keeps s (u.missDeadlines) := by
  unfold State.missDeadlines
  try dsimp only
  repeat' (first
    |(with_reducible (first
      | assumption | refine State.forEach_keeps (fun _ k => ?_) ?_ | refine Keeps.onPart ?_ _ _
      | apply State.bump_keeps))
    | split)

theorem State.fundTopUps_keeps {s u v : State} (h : Keeps s u) (k : ClusterId) (scale : Nat)
    (e : u.fundTopUps k scale = some v) : Keeps s v := by
  unfold State.fundTopUps at e
  dsimp only at e
  split at e
  · cases e
    exact State.forEach_keeps (fun _ k => k.onCore _ _) (State.forEach_keeps (fun _ k => State.reserve_keeps k ..) h)
  · cases e

theorem State.fundAll_keeps {s u : State} (h : Keeps s u) (w : Points) : Keeps s (u.fundAll w).1 := by
  unfold State.fundAll
  refine foldl_fst_keeps (fun x k hk => ?_) h
  dsimp only
  split
  · exact hk
  · split
    · next e => exact State.fundTopUps_keeps hk _ _ e
    · exact hk

theorem State.choosePoints_keeps {s u : State} (h : Keeps s u) (m : Meters) :
    Keeps s (u.choosePoints m) := by
  unfold State.choosePoints
  try dsimp only
  repeat' (first
    |(with_reducible (first
      | assumption | apply State.fundAll_keeps | refine Keeps.onAon ?_ ⟨rfl, rfl, rfl⟩ | refine Keeps.tickFree ?_
      | apply State.setSgl_keeps | refine Keeps.fst (by assumption) ?_))
    | split)

theorem State.plannerMove_keeps {s u : State} (h : Keeps s u) :
    Keeps s (u.plannerMove) := by
  unfold State.plannerMove
  try dsimp only
  repeat' (first
    |(with_reducible (first | assumption | apply State.startMove_keeps))
    | split)

theorem State.applyPlanner_keeps {s u : State} (h : Keeps s u) (m : Meters) :
    Keeps s (u.applyPlanner m) := by
  unfold State.applyPlanner
  try dsimp only
  repeat' (first
    |(with_reducible (first
      | assumption | refine Keeps.onLedger ?_ (fun x => Ledger.withResidue_ok _ x)
      | apply State.setSgl_keeps | apply State.baseCharge_keeps | apply State.autoGrants_keeps
      | apply State.sense_keeps | apply State.countCycles_keeps | apply State.thermalTick_keeps
      | apply State.choosePoints_keeps | apply State.plannerMove_keeps | refine Keeps.onAon ?_ ⟨rfl, rfl, rfl⟩))
    | split)

theorem State.applyStale_keeps {s u : State} (h : Keeps s u) :
    Keeps s (u.applyStale) := by
  unfold State.applyStale
  try dsimp only
  repeat' (first
    |(with_reducible (first | assumption | apply State.syncFeed_keeps))
    | split)

end Sys2Proof.Machine
end

