-- ==== Sys2Proof/Laws/KeepsDoorbells.lean ====
section
/-!
SUPPORT. What the operations of Machine/Doorbells.lean keep.
-/
namespace Sys2Proof.Machine

open Sys2Proof.Safety

theorem State.rejectDoorbell_keeps {s u : State} (h : Keeps s u) (r : Fin 96) (k p : Nat) (v : W32) :
    Keeps s (u.rejectDoorbell r k p v) := by
  unfold State.rejectDoorbell
  try dsimp only
  repeat' (first
    |(with_reducible (first | assumption | apply State.bump_keeps | apply State.logRec_keeps))
    | split)

theorem State.acceptDoorbell_keeps {s u : State} (h : Keeps s u) (r : Fin 96) (p : PartId) (v : W32) :
    Keeps s (u.acceptDoorbell r p v) := by
  unfold State.acceptDoorbell
  try dsimp only
  repeat' (first
    |(with_reducible (first | assumption | apply State.setDoorbell_keeps | refine Keeps.onPart ?_ _ _))
    | split)

theorem State.tailDoorbell_keeps {s u : State} (h : Keeps s u) (r : Fin 96) (ring : Fin 80) (p : PartId) (k : Nat) (v : W32) :
    Keeps s (u.tailDoorbell r ring p k v) := by
  unfold State.tailDoorbell
  try dsimp only
  repeat' (first
    |(with_reducible (first
      | assumption | refine Keeps.onRing ?_ _ _ | apply State.acceptDoorbell_keeps
      | apply State.rejectDoorbell_keeps))
    | split)

theorem State.complDoorbell_keeps {s u : State} (h : Keeps s u) (r : Fin 96) (p : PartId) (v : W32) :
    Keeps s (u.complDoorbell r p v) := by
  unfold State.complDoorbell
  try dsimp only
  repeat' (first
    |(with_reducible (first
      | assumption | refine Keeps.onPart ?_ _ _ | apply State.acceptDoorbell_keeps
      | apply State.rejectDoorbell_keeps))
    | split)

theorem State.applyDoorbell_keeps {s u : State} (h : Keeps s u) (r : Fin 96) (v : W32) :
    Keeps s (u.applyDoorbell r v) := by
  unfold State.applyDoorbell
  try dsimp only
  repeat' (first
    |(with_reducible (first
      | assumption | apply State.discardDoorbell_keeps | apply State.tailDoorbell_keeps
      | apply State.complDoorbell_keeps))
    | split)

theorem State.holdBell_keeps {s u : State} (h : Keeps s u) (r : Fin 96) (v : W32) :
    Keeps s (u.holdBell r v) := by
  unfold State.holdBell
  try dsimp only
  repeat' (first
    |(with_reducible (first | assumption | refine Keeps.onAon ?_ ⟨rfl, rfl, rfl⟩))
    | split)

theorem State.offerBell_keeps {s u : State} (h : Keeps s u) (r : Fin 96) (v : W32) :
    Keeps s (u.offerBell r v) := by
  unfold State.offerBell
  try dsimp only
  repeat' (first
    |(with_reducible (first | assumption | apply State.holdBell_keeps | apply State.applyDoorbell_keeps))
    | split)

theorem State.ringBell_keeps {s u : State} (h : Keeps s u) (r : Fin 96) (v : W32) :
    Keeps s (u.ringBell r v) := by
  unfold State.ringBell
  try dsimp only
  repeat' (first
    |(with_reducible (first | assumption | apply State.offerBell_keeps))
    | split)

theorem State.badBell_keeps {s u : State} (h : Keeps s u) (r : Fin 96) (size : Nat) (v : W64) :
    Keeps s (u.badBell r size v) := by
  unfold State.badBell
  try dsimp only
  repeat' (first
    |(with_reducible (first | assumption | apply State.discardDoorbell_keeps))
    | split)

end Sys2Proof.Machine
end

