-- ==== Sys2Proof/Laws/KeepsBar2.lean ====
section
/-!
SUPPORT. What the operations of Machine/Bar2.lean keep.
-/
namespace Sys2Proof.Machine

open Sys2Proof.Safety

theorem State.scrubPlace_keeps {s u : State} (h : Keeps s u) :
    Keeps s (u.scrubPlace) := by
  unfold State.scrubPlace
  try dsimp only
  repeat' (first
    |(with_reducible (first
      | assumption | refine Keeps.onStoreSame ?_ ⟨rfl, rfl⟩))
    | split)

theorem State.served_keeps {s u : State} (h : Keeps s u) (x : BgUnit) :
    Keeps s (u.served x) := by
  unfold State.served
  try dsimp only
  repeat' (first
    |(with_reducible (first
      | assumption | refine Keeps.onStoreSame ?_ ⟨rfl, rfl⟩))
    | split)

theorem Store.scrubNext_mem (t : Store) (deep : Bool) :
    (t.scrubNext deep).mem = t.mem ∧ (t.scrubNext deep).conj = t.conj := by
  unfold Store.scrubNext; split <;> exact ⟨rfl, rfl⟩

theorem State.barFault_keeps {s u : State} (h : Keeps s u) (off : Nat) :
    Keeps s (u.barFault off) := by
  unfold State.barFault
  try dsimp only
  repeat' (first
    |(with_reducible (first | assumption | apply State.addrFaultRec_keeps | apply State.output_keeps))
    | split)

theorem State.barRead_keeps {s u : State} (h : Keeps s u) (off n : Nat) :
    Keeps s (u.barRead off n) := by
  unfold State.barRead
  try dsimp only
  repeat' (first
    |(with_reducible (first
      | assumption | apply State.barFault_keeps | apply State.output_keeps | apply State.countLines_keeps
      | apply State.checkRead_keeps))
    | split)

theorem State.barWrite_keeps {s u : State} (h : Keeps s u) (off : Nat) (data : List Byte) :
    Keeps s (u.barWrite off data) := by
  unfold State.barWrite
  try dsimp only
  repeat' (first
    |(with_reducible (first
      | assumption | apply State.barFault_keeps | apply State.applySignal_keeps | apply State.storeWrite_keeps))
    | split)

theorem State.barAtomic_keeps {s u : State} (h : Keeps s u) (code w off opnd cmp : Nat) :
    Keeps s (u.barAtomic code w off opnd cmp) := by
  unfold State.barAtomic
  try dsimp only
  repeat' (first
    |(with_reducible (first
      | assumption | apply State.output_keeps | apply State.barFault_keeps | apply State.atomLocal_keeps
      | refine Keeps.snd (by assumption) ?_ | apply State.checkRead_keeps))
    | split)

theorem State.barServe_keeps {s u : State} (h : Keeps s u) (x : HeldBar2) :
    Keeps s (u.barServe x) := by
  unfold State.barServe
  try dsimp only
  repeat' (first
    |(with_reducible (first
      | assumption | apply State.barRead_keeps | apply State.barWrite_keeps | apply State.barAtomic_keeps))
    | split)

theorem State.barOffer_keeps {s u : State} (h : Keeps s u) (r : HeldBar2) :
    Keeps s (u.barOffer r) := by
  unfold State.barOffer
  try dsimp only
  repeat' (first
    |(with_reducible (first | assumption | apply State.barServe_keeps | refine Keeps.onLink ?_ _))
    | split)

theorem State.barDrain_keeps {s u : State} (h : Keeps s u) (x : Nat) :
    Keeps s (u.barDrain x) := by
  induction x generalizing u with
  | zero => exact h
  | succ n ih =>
    unfold State.barDrain
    try dsimp only
    repeat' (first
      |(with_reducible (first | assumption | apply ih | refine Keeps.onLink ?_ _ | apply State.barServe_keeps))
      | split)

theorem State.barAll_keeps {s u : State} (h : Keeps s u) :
    Keeps s (u.barAll) := by
  unfold State.barAll
  try dsimp only
  repeat' (first
    |(with_reducible (first | assumption | apply State.barDrain_keeps))
    | split)

theorem State.applyCas128_keeps {s u : State} (h : Keeps s u) (off : Nat) :
    Keeps s (u.applyCas128 off) := by
  unfold State.applyCas128
  try dsimp only
  repeat' (first
    |(with_reducible (first
      | assumption | apply State.output_keeps | apply State.barFault_keeps))
    | split)

/-- A scrub visit leaves the contents and the conjunction counters. -/
theorem Store.scrubFound_mem (t : Store) (deep : Bool) (w : Nat) (f : Finding) :
    ((t.scrubNext deep).found w f).mem = t.mem ∧ ((t.scrubNext deep).found w f).conj = t.conj := by
  have k := Store.scrubNext_mem t deep
  unfold Store.found
  split
  · exact k
  · cases f <;> exact k

theorem State.applyScrub_keeps {s u : State} (h : Keeps s u) (deep : Bool) (f : Finding) :
    Keeps s (u.applyScrub deep f) := by
  unfold State.applyScrub
  try dsimp only
  repeat' (first
    |(with_reducible (first
      | assumption | refine Keeps.onStoreSame ?_ (Store.scrubFound_mem _ _ _ _) | apply State.countLines_keeps
      | refine Keeps.tickFree ?_ | apply State.scrubPlace_keeps | apply State.checkRead_keeps | apply State.served_keeps))
    | split)

theorem State.applyRefresh_keeps {s u : State} (h : Keeps s u) (_ch : Fin 16) :
    Keeps s (u.applyRefresh _ch) := by
  unfold State.applyRefresh
  try dsimp only
  repeat' (first
    |(with_reducible (first
      | assumption | apply State.served_keeps))
    | split)

theorem State.applyOverdue_keeps {s z : State} (h : Keeps s z) (u : BgUnit) :
    Keeps s (z.applyOverdue u) := by
  unfold State.applyOverdue
  try dsimp only
  repeat' (first
    |(with_reducible (first
      | assumption | apply State.bump_keeps | refine Keeps.onStoreSame ?_ ⟨rfl, rfl⟩))
    | split)

theorem State.applySelfRefresh_keeps {s u : State} (h : Keeps s u) (ch : Fin 16) :
    Keeps s (u.applySelfRefresh ch) := by
  unfold State.applySelfRefresh
  try dsimp only
  repeat' (first
    |(with_reducible (first | assumption | refine Keeps.onStoreSame ?_ ⟨rfl, rfl⟩))
    | split)

end Sys2Proof.Machine
end

