-- ==== Sys2Proof/Laws/KeepsTransports.lean ====
section
/-!
SUPPORT. What the operations of Machine/Transports.lean keep.
-/
namespace Sys2Proof.Machine

open Sys2Proof.Safety

theorem State.t1sQueue_keeps {s u : State} (h : Keeps s u) (dst : Mac) (pdu : List Byte) :
    Keeps s (u.t1sQueue dst pdu) := by
  unfold State.t1sQueue
  try dsimp only
  repeat' (first
    |(with_reducible (first | assumption | refine Keeps.onLink ?_ _))
    | split)

theorem State.applyOpportunity_keeps {s u : State} (h : Keeps s u) :
    Keeps s (u.applyOpportunity) := by
  unfold State.applyOpportunity
  try dsimp only
  repeat' (first
    |(with_reducible (first | assumption | refine Keeps.onLink ?_ _ | apply State.output_keeps))
    | split)

theorem State.onI3c_keeps {s u : State} (h : Keeps s u) (f : I3c → I3c) :
    Keeps s (u.onI3c f) := by
  unfold State.onI3c
  try dsimp only
  repeat' (first
    |(with_reducible (first | assumption | refine Keeps.onLink ?_ _))
    | split)

theorem State.i3cRaise_keeps {s u : State} (h : Keeps s u) :
    Keeps s (u.i3cRaise) := by
  unfold State.i3cRaise
  try dsimp only
  repeat' (first
    |(with_reducible (first | assumption | apply State.output_keeps))
    | split)

theorem State.i3cRespond_keeps {s u : State} (h : Keeps s u) (b : List Byte) :
    Keeps s (u.i3cRespond b) := by
  unfold State.i3cRespond
  try dsimp only
  repeat' (first
    |(with_reducible (first | assumption | apply State.onI3c_keeps | apply State.i3cRaise_keeps))
    | split)

theorem State.applyPrivateRead_keeps {s u : State} (h : Keeps s u) (taken : Nat) :
    Keeps s (u.applyPrivateRead taken) := by
  unfold State.applyPrivateRead
  try dsimp only
  repeat' (first
    |(with_reducible (first
      | assumption | apply State.output_keeps | apply State.onI3c_keeps | apply State.i3cRaise_keeps
      | refine Keeps.onLink ?_ _))
    | split)

theorem State.applyEvents_keeps {s u : State} (h : Keeps s u) (on : Bool) :
    Keeps s (u.applyEvents on) := by
  unfold State.applyEvents
  try dsimp only
  repeat' (first
    |(with_reducible (first
      | assumption | apply State.onI3c_keeps | apply State.output_keeps | apply State.i3cRaise_keeps))
    | split)

theorem State.applyRstdaa_keeps {s u : State} (h : Keeps s u) :
    Keeps s (u.applyRstdaa) := by
  unfold State.applyRstdaa
  try dsimp only
  repeat' (first
    |(with_reducible (first | assumption | apply State.onI3c_keeps | apply State.output_keeps))
    | split)

theorem State.applyEntdaa_keeps {s u : State} (h : Keeps s u) (dyn : BitVec 7) :
    Keeps s (u.applyEntdaa dyn) := by
  unfold State.applyEntdaa
  try dsimp only
  repeat' (first
    |(with_reducible (first
      | assumption | apply State.onI3c_keeps | apply State.output_keeps | apply State.i3cRaise_keeps))
    | split)

theorem State.applySetdasa_keeps {s u : State} (h : Keeps s u) (static dyn : BitVec 7) :
    Keeps s (u.applySetdasa static dyn) := by
  unfold State.applySetdasa
  try dsimp only
  repeat' (first
    |(with_reducible (first
      | assumption | apply State.output_keeps | apply State.onI3c_keeps | apply State.i3cRaise_keeps))
    | split)

theorem State.i3cGet_keeps {s u : State} (h : Keeps s u) (b : List Byte) :
    Keeps s (u.i3cGet b) := by
  unfold State.i3cGet
  try dsimp only
  repeat' (first
    |(with_reducible (first | assumption | apply State.output_keeps))
    | split)

theorem State.i3cSetMax_keeps {s u : State} (h : Keeps s u) (n : BitVec 16) (f : I3c → I3c) :
    Keeps s (u.i3cSetMax n f) := by
  unfold State.i3cSetMax
  try dsimp only
  repeat' (first
    |(with_reducible (first | assumption | apply State.output_keeps | apply State.onI3c_keeps))
    | split)

theorem State.i3cFree_keeps {s u : State} (h : Keeps s u) :
    Keeps s (u.i3cFree) := by
  unfold State.i3cFree
  try dsimp only
  repeat' (first
    |(with_reducible (first | assumption | apply State.i3cGet_keeps | refine Keeps.tickFree ?_))
    | split)

theorem State.applyRstact_keeps {s u : State} (h : Keeps s u) (a : Byte) :
    Keeps s (u.applyRstact a) := by
  unfold State.applyRstact
  try dsimp only
  repeat' (first
    |(with_reducible (first | assumption | apply State.output_keeps | apply State.onI3c_keeps))
    | split)

theorem State.applyResetPattern_keeps {s u : State} (h : Keeps s u) :
    Keeps s (u.applyResetPattern) := by
  unfold State.applyResetPattern
  try dsimp only
  repeat' (first
    |(with_reducible (first | assumption | apply State.onI3c_keeps | refine Keeps.onLink ?_ _))
    | split)

theorem State.onMbox_keeps {s u : State} (h : Keeps s u) (f : Mbox → Mbox) :
    Keeps s (u.onMbox f) := by
  unfold State.onMbox
  try dsimp only
  repeat' (first
    |(with_reducible (first | assumption | refine Keeps.onLink ?_ _))
    | split)

theorem State.mboxPut_keeps {s u : State} (h : Keeps s u) (b : List Byte) :
    Keeps s (u.mboxPut b) := by
  unfold State.mboxPut
  try dsimp only
  repeat' (first
    |(with_reducible (first | assumption | apply State.onMbox_keeps | apply State.msix_keeps))
    | split)

theorem State.mboxRespond_keeps {s u : State} (h : Keeps s u) (b : List Byte) :
    Keeps s (u.mboxRespond b) := by
  unfold State.mboxRespond
  try dsimp only
  repeat' (first
    |(with_reducible (first | assumption | apply State.mboxPut_keeps | apply State.onMbox_keeps))
    | split)

theorem State.mboxNext_keeps {s u : State} (h : Keeps s u) :
    Keeps s (u.mboxNext) := by
  unfold State.mboxNext
  try dsimp only
  repeat' (first
    |(with_reducible (first
      | assumption | apply State.onMbox_keeps | apply State.mboxPut_keeps | apply State.takeVector_keeps))
    | split)

theorem State.applyRspClear_keeps {s u : State} (h : Keeps s u) :
    Keeps s (u.applyRspClear) := by
  unfold State.applyRspClear
  try dsimp only
  repeat' (first
    |(with_reducible (first | assumption | apply State.onMbox_keeps | apply State.mboxNext_keeps))
    | split)

theorem State.applyRestore_keeps {s u : State} (h : Keeps s u) :
    Keeps s (u.applyRestore) := by
  unfold State.applyRestore
  try dsimp only
  repeat' (first
    |(with_reducible (first
      | assumption | apply State.onMbox_keeps | apply State.msix_keeps | apply State.mboxNext_keeps))
    | split)

theorem State.respond_keeps {s u : State} (h : Keeps s u) (req : Requester) (b : List Byte) :
    Keeps s (u.respond req b) := by
  unfold State.respond
  try dsimp only
  repeat' (first
    |(with_reducible (first
      | assumption | apply State.output_keeps | apply State.mboxRespond_keeps | apply State.i3cRespond_keeps
      | apply State.t1sQueue_keeps))
    | split)

theorem State.notifyPut_keeps {s u : State} (h : Keeps s u) (b : List Byte) :
    Keeps s (u.notifyPut b) := by
  unfold State.notifyPut
  try dsimp only
  repeat' (first
    |(with_reducible (first
      | assumption | apply State.onMbox_keeps | apply State.msix_keeps | apply State.t1sQueue_keeps))
    | split)

theorem State.offerNotify_keeps {s u : State} (h : Keeps s u) :
    Keeps s (u.offerNotify) := by
  unfold State.offerNotify
  try dsimp only
  repeat' (first
    |(with_reducible (first | assumption | refine Keeps.onLink ?_ _ | apply State.i3cRaise_keeps))
    | split)

theorem State.handNotify_keeps {s u : State} (h : Keeps s u) :
    Keeps s (u.handNotify) := by
  unfold State.handNotify
  try dsimp only
  repeat' (first
    |(with_reducible (first
      | assumption | refine Keeps.onLink ?_ _ | apply State.notifyPut_keeps | apply State.offerNotify_keeps))
    | split)

theorem State.handAll_keeps {s u : State} (h : Keeps s u) :
    Keeps s (u.handAll) := by
  unfold State.handAll
  try dsimp only
  repeat' (first
    |(with_reducible (first
      | assumption | apply State.handNotify_keeps | refine foldl_keeps (fun _ k => ?_) ?_
      | refine foldl_fst_keeps (fun _ _ k => ?_) ?_))
    | split)

theorem State.applyNtfClear_keeps {s u : State} (h : Keeps s u) :
    Keeps s (u.applyNtfClear) := by
  unfold State.applyNtfClear
  try dsimp only
  repeat' (first
    |(with_reducible (first | assumption | apply State.onMbox_keeps | apply State.handNotify_keeps))
    | split)

theorem State.setNotify_keeps {s u : State} (h : Keeps s u) (n : Nat) :
    Keeps s (u.setNotify n) := by
  unfold State.setNotify
  try dsimp only
  repeat' (first
    |(with_reducible (first | assumption | apply State.setSgl_keeps | refine Keeps.onLink ?_ _))
    | split)

end Sys2Proof.Machine
end

