-- ==== Sys2Proof/Laws/KeepsRequests.lean ====
section
/-!
SUPPORT. What the operations of Machine/Requests.lean keep.
-/
namespace Sys2Proof.Machine

open Sys2Proof.Safety

theorem State.applyPut_keeps {s u : State} (h : Keeps s u) (k : Nat) (v : List Byte) :
    Keeps s (u.applyPut k v) := by
  unfold State.applyPut
  try dsimp only
  repeat' (first
    |(with_reducible (first
      | refine Keeps.ite ?_ ?_
      | assumption | apply State.setDomShd_keeps | apply State.setDom_keeps | apply State.setShd_keeps
      | apply State.setSgl_keeps | apply State.applySwapRequest_keeps | apply State.revertShadow_keeps
      | apply State.startMove_keeps | apply State.resetCore_keeps | apply State.resetConfig_keeps
      | apply State.applyDeposit_keeps | apply State.applyBattery_keeps | apply State.setNotify_keeps
      | apply State.setConj_keeps | apply State.ringOwner_keeps | apply State.answerWaits_keeps
      | apply State.commission_keeps | apply State.storeWrite_keeps | apply State.applyGrant_keeps
      | apply State.setDeadline_keeps | apply State.beginReset_keeps | apply State.release_keeps
      | apply State.applyStopAfter_keeps | apply State.applyFlush_keeps | refine Keeps.snd (by assumption) ?_))
    | split)

theorem State.applyEff_keeps {s u : State} (h : Keeps s u) (req : Requester) (x : Eff) :
    Keeps s (u.applyEff req x) := by
  unfold State.applyEff
  try dsimp only
  repeat' (first
    |(with_reducible (first
      | assumption | apply State.readEffect_keeps | apply State.applyPut_keeps | apply State.applySwapRequest_keeps
      | refine Keeps.onLink ?_ _ | refine Keeps.snd (by assumption) ?_ | apply State.onMbox_keeps))
    | split)

theorem State.keepDup_keeps {s u : State} (h : Keeps s u) (req : Requester) (q : Pdu) (resp : List Byte) :
    Keeps s (u.keepDup req q resp) := by
  unfold State.keepDup
  try dsimp only
  repeat' (first
    |(with_reducible (first | assumption | refine Keeps.onLink ?_ _))
    | split)

theorem State.expireDups_keeps {s u : State} (h : Keeps s u) :
    Keeps s (u.expireDups) := by
  unfold State.expireDups
  try dsimp only
  repeat' (first
    |(with_reducible (first | assumption | refine Keeps.onLink ?_ _))
    | split)

theorem State.handle_keeps {s u : State} (h : Keeps s u) (req : Requester) (acts : Bool) (b : List Byte) :
    Keeps s (u.handle req acts b) := by
  unfold State.handle
  try dsimp only
  repeat' (first
    |(with_reducible (first
      | assumption | apply State.bump_keeps | apply State.onMbox_keeps | apply State.respond_keeps
      | apply State.keepDup_keeps | refine State.forEach_keeps (fun _ k => ?_) ?_ | apply State.applyEff_keeps))
    | split)

theorem State.receive_keeps {s u : State} (h : Keeps s u) (req : Requester) (b : List Byte) :
    Keeps s (u.receive req b) := by
  unfold State.receive
  try dsimp only
  repeat' (first
    |(with_reducible (first
      | assumption | apply State.bump_keeps | apply State.output_keeps | refine Keeps.onLink ?_ _
      | apply State.onMbox_keeps))
    | split)

theorem State.applyReceive_keeps {s u : State} (h : Keeps s u) (t : Transport) (f : Frame) (b : List Byte) :
    Keeps s (u.applyReceive t f b) := by
  unfold State.applyReceive
  try dsimp only
  repeat' (first
    |(with_reducible (first | assumption | apply State.bump_keeps | apply State.receive_keeps))
    | split)

theorem State.request_keeps {s u : State} (h : Keeps s u) (req : Requester) (b : List Byte) :
    Keeps s (u.request req b) := by
  unfold State.request
  try dsimp only
  repeat' (first
    |(with_reducible (first
      | assumption | apply State.receive_keeps | apply State.bump_keeps | apply State.onMbox_keeps
      | apply State.handle_keeps))
    | split)

theorem State.ask_keeps {s u : State} (h : Keeps s u) (h : Head) (op : Nat) (o : ObjRef) (data : List Byte) :
    Keeps s (u.ask h op o data) := by
  unfold State.ask
  try dsimp only
  repeat' (first
    |(with_reducible (first | assumption | apply State.request_keeps))
    | split)

theorem State.askRead_keeps {s u : State} (h : Keeps s u) (h : Head) (k : Nat) :
    Keeps s (u.askRead h k) := by
  unfold State.askRead
  try dsimp only
  repeat' (first
    |(with_reducible (first | assumption | apply State.ask_keeps))
    | split)

theorem State.askSegRead_keeps {s u : State} (h : Keeps s u) (h : Head) (k : Nat) :
    Keeps s (u.askSegRead h k) := by
  unfold State.askSegRead
  try dsimp only
  repeat' (first
    |(with_reducible (first | assumption | apply State.ask_keeps))
    | split)

theorem State.askWrite_keeps {s u : State} (h : Keeps s u) (h : Head) (k v : Nat) :
    Keeps s (u.askWrite h k v) := by
  unfold State.askWrite
  try dsimp only
  repeat' (first
    |(with_reducible (first | assumption | apply State.ask_keeps))
    | split)

theorem State.applyReqGo_keeps {s u : State} (h : Keeps s u) (buf : List Byte) :
    Keeps s (u.applyReqGo buf) := by
  unfold State.applyReqGo
  try dsimp only
  repeat' (first
    |(with_reducible (first
      | assumption | apply State.receive_keeps | apply State.onMbox_keeps))
    | split)

theorem State.applySegTimeout_keeps {s u : State} (h : Keeps s u) (t : Transport) :
    Keeps s (u.applySegTimeout t) := by
  unfold State.applySegTimeout
  try dsimp only
  repeat' (first
    |(with_reducible (first | assumption | refine Keeps.onLink ?_ _ | apply State.bump_keeps))
    | split)

end Sys2Proof.Machine
end

