-- ==== Sys2Proof/Laws/KeepsTick.lean ====
section
/-!
SUPPORT. What the operations of Machine/Tick.lean keep.
-/
namespace Sys2Proof.Machine

open Sys2Proof.Safety

theorem State.samplePg_keeps {s u : State} (h : Keeps s u) (pg : BitVec 4) (m : MonId) :
    Keeps s (u.samplePg pg m) := by
  unfold State.samplePg
  try dsimp only
  repeat' (first
    |(with_reducible (first
      | assumption | refine State.forEach_keeps (fun _ k => ?_) ?_ | apply State.applyPgFall_keeps
      | apply State.applyPgTimeout_keeps))
    | split)

theorem State.coolTick_keeps {s u : State} (h : Keeps s u) (i : TickInputs) :
    Keeps s (u.coolTick i) := by
  unfold State.coolTick
  try dsimp only
  repeat' (first
    |(with_reducible (first
      | assumption | refine Keeps.onAon ?_ ⟨rfl, rfl, rfl⟩))
    | split)

theorem State.reportData_keeps {s u : State} (h : Keeps s u) (evs : List Event) (near : Bool) :
    Keeps s (u.reportData evs near) := by
  unfold State.reportData
  try dsimp only
  repeat' (first
    |(with_reducible (first
      | assumption | apply State.logRec_keeps))
    | split)

theorem State.markArrivals_keeps {s u : State} (h : Keeps s u) (arr : List Event) :
    Keeps s (u.markArrivals arr) := by
  unfold State.markArrivals
  try dsimp only
  repeat' (first
    |(with_reducible (first
      | assumption | refine State.forEach_keeps (fun _ k => ?_) ?_ | apply State.markWord_keeps))
    | split)

theorem State.failAudit_keeps {s u : State} (h : Keeps s u) (l : List Broken) (errs : List Failure) :
    Keeps s (u.failAudit l errs) := by
  unfold State.failAudit
  try dsimp only
  repeat' (first
    |(with_reducible (first | assumption | apply State.enterFault_keeps))
    | split)

theorem State.riseGood_keeps {s u : State} (h : Keeps s u) (pg : BitVec 4) :
    Keeps s (u.riseGood pg) := by
  unfold State.riseGood
  try dsimp only
  repeat' (first
    |(with_reducible (first | assumption | refine Keeps.onAon ?_ ⟨rfl, rfl, rfl⟩))
    | split)

theorem State.sampleMons_keeps {s u : State} (h : Keeps s u) (i : TickInputs) :
    Keeps s (u.sampleMons i) := by
  unfold State.sampleMons
  try dsimp only
  repeat' (first
    |(with_reducible (first | assumption | refine Keeps.onAon ?_ ⟨rfl, rfl, rfl⟩))
    | split)

theorem State.class1_keeps {s u : State} (h : Keeps s u) (pg : BitVec 4) :
    Keeps s (u.class1 pg) := by
  unfold State.class1
  try dsimp only
  repeat' (first
    |(with_reducible (first
      | assumption | refine State.forEach_keeps (fun _ k => ?_) ?_ | apply State.applySupplyReset_keeps
      | apply State.applyPgFall_keeps | apply State.applyPgTimeout_keeps | apply State.samplePg_keeps))
    | split)

theorem State.class2_keeps {s u : State} (h : Keeps s u) (o : State) :
    Keeps s (u.class2 o) := by
  unfold State.class2
  try dsimp only
  repeat' (first
    |(with_reducible (first | assumption | refine State.forEach_keeps (fun _ k => ?_) ?_ | apply State.warnAct_keeps))
    | split)

theorem State.class3_keeps {s u : State} (h : Keeps s u) (i : TickInputs) :
    Keeps s (u.class3 i) := by
  unfold State.class3
  try dsimp only
  repeat' (first
    |(with_reducible (first
      | assumption | apply State.applyTripClear_keeps | apply State.tripAct_keeps
      | refine State.forEach_keeps (fun _ k => ?_) ?_ | apply State.applyTrip_keeps | apply State.coolTick_keeps))
    | split)

theorem State.serve_keeps {s u : State} (h : Keeps s u) (acts : Bool) (p : RxPdu) :
    Keeps s (u.serve acts p) := by
  unfold State.serve
  try dsimp only
  repeat' (first
    |(with_reducible (first | assumption | refine Keeps.onLink ?_ _ | apply State.handle_keeps))
    | split)

theorem State.serveAll_keeps {s u : State} (h : Keeps s u) (heads : List RxPdu) (c src : Nat) :
    Keeps s (u.serveAll heads c src) := by
  unfold State.serveAll
  try dsimp only
  repeat' (first
    |(with_reducible (first | assumption | refine State.forEach_keeps (fun _ k => ?_) ?_ | apply State.serve_keeps))
    | split)

theorem State.class4Reset_keeps {s u : State} (h : Keeps s u) (heads : List RxPdu) (rst : Bool) :
    Keeps s (u.class4Reset heads rst) := by
  unfold State.class4Reset
  try dsimp only
  repeat' (first
    |(with_reducible (first
      | assumption | refine Keeps.onMood ?_ _ | refine State.forEach_keeps (fun _ k => ?_) ?_
      | apply State.serve_keeps | apply State.applyRstN_keeps))
    | split)

theorem State.class4_keeps {s u : State} (h : Keeps s u) (heads : List RxPdu) (rst : Bool) :
    Keeps s (u.class4 heads rst) := by
  unfold State.class4
  try dsimp only
  repeat' (first
    |(with_reducible (first
      | assumption | refine State.forEach_keeps (fun _ k => ?_) ?_ | apply State.serve_keeps
      | apply State.applyRstN_keeps | refine Keeps.onMood ?_ _ | apply State.serveAll_keeps
      | apply State.class4Reset_keeps))
    | split)

theorem State.class9_keeps {s u : State} (h : Keeps s u) (x : Nat) :
    Keeps s (u.class9 x) := by
  induction x generalizing u with
  | zero => exact h
  | succ n ih =>
    unfold State.class9
    try dsimp only
    repeat' (first
      |(with_reducible (first | assumption | apply ih | apply State.serve_keeps))
      | split)

theorem State.class5_keeps {s u : State} (h : Keeps s u) (evs : List Event) (bad : List Broken) :
    Keeps s (u.class5 evs bad) := by
  unfold State.class5
  try dsimp only
  repeat' (first
    |(with_reducible (first
      | assumption | apply State.failAudit_keeps | apply State.logRec_keeps | refine Keeps.onAon ?_ ⟨rfl, rfl, rfl⟩
      | apply State.reportData_keeps))
    | split)

theorem State.class8_keeps {s u : State} (h : Keeps s u) :
    Keeps s (u.class8) := by
  unfold State.class8
  try dsimp only
  repeat' (first
    |(with_reducible (first
      | assumption | refine State.forEach_keeps (fun _ k => ?_) ?_ | apply State.offerBell_keeps
      | refine Keeps.onAon ?_ ⟨rfl, rfl, rfl⟩))
    | split)

theorem State.class10_keeps {s u : State} (h : Keeps s u) (level : Bool) :
    Keeps s (u.class10 level) := by
  unfold State.class10
  try dsimp only
  repeat' (first
    |(with_reducible (first | assumption | refine Keeps.onMood ?_ _ | apply State.applyWakeN_keeps))
    | split)

theorem State.class11_keeps {s u : State} (h : Keeps s u) (i : TickInputs) :
    Keeps s (u.class11 i) := by
  unfold State.class11
  try dsimp only
  repeat' (first
    |(with_reducible (first
      | assumption | refine Keeps.onMood ?_ _ | apply State.applyBraceExit_keeps | apply State.applyBraceLimit_keeps
      | apply State.applySwapForce_keeps | refine State.forEach_keeps (fun _ k => ?_) ?_
      | apply State.applyStalemate_keeps | refine Keeps.onPart ?_ _ _ | apply State.applyLinger_keeps
      | apply State.applyPlanner_keeps | apply State.missDeadlines_keeps))
    | split)

theorem State.mislockOf_keeps {s u : State} (h : Keeps s u) (q : PortId) (x : Event) :
    Keeps s (u.mislockOf q x) := by
  unfold State.mislockOf
  try dsimp only
  repeat' (first
    |(with_reducible (first | assumption | apply State.applyMislock_keeps))
    | split)

theorem State.fadeOf_keeps {s u : State} (h : Keeps s u) (mesh : Bool) (x : Event) :
    Keeps s (u.fadeOf mesh x) := by
  unfold State.fadeOf
  try dsimp only
  repeat' (first
    |(with_reducible (first | assumption | apply State.applyFade_keeps))
    | split)

theorem State.class12_keeps {s u : State} (h : Keeps s u) (evs : List Event) :
    Keeps s (u.class12 evs) := by
  unfold State.class12
  try dsimp only
  repeat' (first
    |(with_reducible (first
      | assumption | refine State.forEach_keeps (fun _ k => ?_) ?_ | apply State.mislockOf_keeps
      | apply State.fadeOf_keeps | apply State.applyCalDue_keeps | apply State.calDueAt_keeps))
    | split)

theorem State.noteOver_keeps {s u : State} (h : Keeps s u) :
    Keeps s (u.noteOver) := by
  unfold State.noteOver
  try dsimp only
  repeat' (first
    |(with_reducible (first | assumption | refine Keeps.onAon ?_ ⟨rfl, rfl, rfl⟩))
    | split)

theorem State.class13_keeps {s u : State} (h : Keeps s u) (l : List (Fin 16 × Nat)) :
    Keeps s (u.class13 l) := by
  unfold State.class13
  try dsimp only
  repeat' (first
    |(with_reducible (first
      | assumption | refine State.forEach_keeps (fun _ k => ?_) ?_ | apply State.logRec_keeps
      | apply State.notify_keeps | refine foldl_keeps (fun _ k => ?_) ?_
      | refine foldl_fst_keeps (fun _ _ k => ?_) ?_))
    | split)

theorem State.countTick_keeps {s u : State} (h : Keeps s u) :
    Keeps s (u.countTick) := by
  unfold State.countTick
  try dsimp only
  repeat' (first
    |(with_reducible (first
      | assumption | refine Keeps.onMood ?_ _ | refine State.forEach_keeps (fun _ k => ?_) ?_
      | refine Keeps.onPart ?_ _ _ | refine Keeps.onAon ?_ ⟨rfl, rfl, rfl⟩))
    | split)

theorem State.returnCredits_keeps {s u : State} (h : Keeps s u) :
    Keeps s (u.returnCredits) := by
  unfold State.returnCredits
  try dsimp only
  repeat' (first
    |(with_reducible (first | assumption | refine State.forEach_keeps (fun _ k => ?_) ?_ | apply State.putNull_keeps))
    | split)

theorem State.afterTick_keeps {s u : State} (h : Keeps s u) :
    Keeps s (u.afterTick) := by
  unfold State.afterTick
  try dsimp only
  repeat' (first
    |(with_reducible (first
      | assumption | apply State.applyBounds_keeps | apply State.evalDemands_keeps | apply State.countTick_keeps
      | refine State.forEach_keeps (fun _ k => ?_) ?_ | apply State.applyClusterStop_keeps
      | apply State.syncFeed_keeps | apply State.sampleLows_keeps | apply State.barAll_keeps
      | apply State.applySegTimeout_keeps | apply State.expireDups_keeps | apply State.returnCredits_keeps
      | apply State.handAll_keeps))
    | split)


/-- Bit errors in the cells leave the contents and the conjunction counters. -/
theorem Store.strike_mem (t : Store) (w : Nat) (n : Bool) :
    (t.strike w n).mem = t.mem ∧ (t.strike w n).conj = t.conj := by
  unfold Store.strike
  repeat' (first | exact ⟨rfl, rfl⟩ | split)

theorem Store.strikes_mem (l : List (Nat × Bool)) (t : Store) :
    (l.foldl (fun t u => t.strike (u.1 / 8 * 8) u.2) t).mem = t.mem ∧
      (l.foldl (fun t u => t.strike (u.1 / 8 * 8) u.2) t).conj = t.conj := by
  induction l generalizing t with
  | nil => exact ⟨rfl, rfl⟩
  | cons u l ih =>
    have k := Store.strike_mem t (u.1 / 8 * 8) u.2
    have j := ih (t.strike (u.1 / 8 * 8) u.2)
    exact ⟨j.1.trans k.1, j.2.trans k.2⟩

theorem State.boundary_keeps {s u : State} (i : TickInputs) (h : Keeps s (u.openTick i.arr)) : Keeps s (u.boundary i) := by
  unfold State.boundary
  refine State.forEach_keeps (fun _ k => State.applyStopReached_keeps (State.applyHalted_keeps k ..) ..) ?_
  exact State.applyRestore_keeps (Keeps.onMood (State.addSat_keeps (State.lockLoops_keeps
    (State.markArrivals_keeps (h.onStoreSame (Store.strikes_mem _ _)) ..)) ..) _)

/-- A tick follows from its opening. -/
theorem State.applyTick_keeps {s u : State} (i : TickInputs) (h : Keeps s (u.openTick i.arr)) (hm : u.mood ≠ .off) :
    Keeps s (u.applyTick i) := by
  unfold State.applyTick
  rw [if_neg hm]
  extract_lets evs b heads bad b1 cross b2 g m c3 c4 c5 c6 c6' c7 c10 c13
  have k0 : Keeps s b := State.boundary_keeps i h
  clear_value b
  have k1 : Keeps s b1 := Keeps.ite k0 (State.setSgl_keeps k0 ..)
  clear_value b1
  have k2 : Keeps s b2 := Keeps.ite (State.sense_keeps (State.noteOver_keeps k1 ..) ..) (State.noteOver_keeps k1 ..)
  clear_value b2
  have k3 : Keeps s g := State.syncPower_keeps (State.riseGood_keeps k2 ..) ..
  clear_value g
  have k4 : Keeps s m := State.sampleMons_keeps k3 ..
  clear_value m
  have k5 : Keeps s c3 := State.class3_keeps (State.class2_keeps (State.class1_keeps k4 ..) ..) ..
  clear_value c3
  have k6 : Keeps s c4 := State.class4_keeps k5 ..
  clear_value c4
  have k7 : Keeps s c5 := State.class5_keeps k6 ..
  clear_value c5
  have k8 : Keeps s c6 := Keeps.ite (State.applySwapEffect_keeps k7 ..) k7
  clear_value c6
  have k9 : Keeps s c6' := Keeps.ite k8 (State.serveAll_keeps k8 ..)
  clear_value c6'
  have k10 : Keeps s c7 := State.forEach_keeps (fun _ k => State.serveAll_keeps k ..) k9
  clear_value c7
  have k11 : Keeps s c10 := State.class10_keeps (State.class9_keeps (State.class8_keeps k10 ..) ..) ..
  clear_value c10
  exact State.afterTick_keeps (State.class13_keeps (State.class12_keeps (State.class11_keeps k11 ..) ..) ..)

end Sys2Proof.Machine
end

