-- ==== Sys2Proof/Laws/Objects.lean ====
section
/-!
SUPPORT. Objects as the counting operations leave them, and the record that `logRec` adds.
-/
namespace Sys2Proof.Machine

/-- The plain objects are in canonical form. -/
def State.sglWf (s : State) : Prop := SMap.wf objDflt s.dict.sgl = true

/-- Two states that agree in every object but plain ones, and in the canonical form of these. -/
structure SameSets (s u : State) : Prop where
  wf : s.sglWf → u.sglWf
  rest : { u.dict with sgl := s.dict.sgl } = s.dict

namespace SameSets

theorem refl (s : State) : SameSets s s := ⟨id, rfl⟩

theorem trans {s u v : State} (h : SameSets s u) (k : SameSets u v) : SameSets s v :=
  ⟨fun x => k.wf (h.wf x), by
    have a := h.rest
    have b := k.rest
    cases hs : s.dict; cases hu : u.dict; cases hv : v.dict
    simp_all⟩

theorem act {s u : State} (h : SameSets s u) (k : Nat) : u.act k = s.act k := by
  unfold State.act; rw [← h.rest]

theorem shd {s u : State} (h : SameSets s u) (k : Nat) : u.shd k = s.shd k := by
  unfold State.shd; rw [← h.rest]

theorem dact {s u : State} (h : SameSets s u) (k : Nat) : u.dact k = s.dact k := by
  unfold State.dact; rw [← h.rest]

theorem dsgl {s u : State} (h : SameSets s u) (k : Nat) : u.dsgl k = s.dsgl k := by
  unfold State.dsgl; rw [← h.rest]

/-- States with the same dictionary. -/
theorem of_dict {s u : State} (h : u.dict = s.dict) : SameSets s u :=
  ⟨fun x => by unfold State.sglWf at *; rw [h]; exact x, by rw [h]⟩

end SameSets

/-! Plain objects. -/

theorem State.setSgl_sets (s : State) (k v : Nat) : SameSets s (s.setSgl k v) := ⟨fun h => SMap.set_wf k v h, rfl⟩

theorem State.sgl_setSgl {s : State} (h : s.sglWf) (k v j : Nat) :
    (s.setSgl k v).sgl j = if j = k then v else s.sgl j := SMap.get_set k j v h

theorem State.addSat_sets (s : State) (k n : Nat) : SameSets s (s.addSat k n) := s.setSgl_sets _ _
theorem State.bump_sets (s : State) (k : Nat) : SameSets s (s.bump k) := s.setSgl_sets _ _
theorem State.bump32_sets (s : State) (k : Nat) : SameSets s (s.bump32 k) := s.setSgl_sets _ _
theorem State.add64_sets (s : State) (k n : Nat) : SameSets s (s.add64 k n) := s.setSgl_sets _ _

theorem State.sgl_addSat {s : State} (h : s.sglWf) (k n j : Nat) :
    (s.addSat k n).sgl j = if j = k then min (s.sgl k + n) 0xFFFFFFFF else s.sgl j := State.sgl_setSgl h _ _ _
theorem State.sgl_bump {s : State} (h : s.sglWf) (k j : Nat) :
    (s.bump k).sgl j = if j = k then min (s.sgl k + 1) 0xFFFFFFFF else s.sgl j := State.sgl_setSgl h _ _ _
theorem State.sgl_bump32 {s : State} (h : s.sglWf) (k j : Nat) :
    (s.bump32 k).sgl j = if j = k then (s.sgl k + 1) % 2 ^ 32 else s.sgl j := State.sgl_setSgl h _ _ _
theorem State.sgl_add64 {s : State} (h : s.sglWf) (k n j : Nat) :
    (s.add64 k n).sgl j = if j = k then (s.sgl k + n) % 2 ^ 64 else s.sgl j := State.sgl_setSgl h _ _ _

/-! Notifications and records. -/

theorem State.msix_dict (s : State) (v : Nat) : (s.msix v).dict = s.dict := by simp

/-- A notification counts at most in NOTIFY_DROPPED. -/
theorem State.notify_sets (s : State) (src k v : Nat) : SameSets s (s.notify src k v) := by
  unfold State.notify
  split
  · exact SameSets.refl s
  · split
    · exact SameSets.trans (u := s.onLink _) (SameSets.of_dict rfl) (State.bump_sets _ _)
    · exact SameSets.of_dict rfl

theorem State.sgl_notify {s : State} (h : s.sglWf) (src k v j : Nat) (hj : j ≠ K.notifyDropped) :
    (s.notify src k v).sgl j = s.sgl j := by
  unfold State.notify
  split
  · rfl
  · split
    · rw [State.sgl_bump (s := s.onLink _) h, if_neg hj]; rfl
    · rfl

theorem State.logRec_sets (s : State) (src sev part a b : Nat) : SameSets s (s.logRec src sev part a b) := by
  unfold State.logRec
  dsimp only
  refine SameSets.trans ?_ (State.notify_sets _ _ _ _)
  generalize hr : (⟨s.tick, wrap32 (s.aon.log.seq + 1), src, sev, part, a, b⟩ : LogRec) = r
  generalize h1 : s.onAon (fun n => { n with log := n.log.push r }) = s1
  have w1 : SameSets s s1 := by rw [← h1]; exact SameSets.of_dict rfl
  generalize h2 : (if decide (256 ≤ s.aon.log.recs.length) = true then s1.bump K.eventLogLost else s1) = s2
  have w2 : SameSets s s2 := by
    rw [← h2]; split
    · exact w1.trans (State.bump_sets _ _)
    · exact w1
  have w3 : SameSets s (s2.add64 K.telRecords 1) := w2.trans (State.add64_sets _ _ _)
  split
  · exact w3.trans (SameSets.of_dict (by simp))
  · exact w3

theorem State.sgl_logRec {s : State} (h : s.sglWf) (src sev part a b j : Nat)
    (hj : j ≠ K.eventLogLost ∧ j ≠ K.telRecords ∧ j ≠ K.notifyDropped) :
    (s.logRec src sev part a b).sgl j = s.sgl j := by
  unfold State.logRec
  dsimp only
  generalize hr : (⟨s.tick, wrap32 (s.aon.log.seq + 1), src, sev, part, a, b⟩ : LogRec) = r
  generalize h1 : s.onAon (fun n => { n with log := n.log.push r }) = s1
  have w1 : s1.sglWf := by rw [← h1]; exact h
  have e1 : s1.sgl j = s.sgl j := by rw [← h1]; rfl
  generalize h2 : (if decide (256 ≤ s.aon.log.recs.length) = true then s1.bump K.eventLogLost else s1) = s2
  have w2 : s2.sglWf := by rw [← h2]; split; exact (State.bump_sets _ _).wf w1; exact w1
  have e2 : s2.sgl j = s.sgl j := by
    rw [← h2]; split
    · rw [State.sgl_bump w1, if_neg hj.1, e1]
    · exact e1
  generalize h3 : s2.add64 K.telRecords 1 = s3
  have w3 : s3.sglWf := by rw [← h3]; exact (State.add64_sets _ _ _).wf w2
  have e3 : s3.sgl j = s.sgl j := by rw [← h3, State.sgl_add64 w2, if_neg hj.2.1, e2]
  split
  · rw [State.sgl_notify _ _ _ _ _ hj.2.2]
    · show SMap.get objDflt (State.msix _ _).dict.sgl j = _
      rw [State.msix_dict]; exact e3
    · unfold State.sglWf; rw [State.msix_dict]; exact w3
  · rw [State.sgl_notify w3 _ _ _ _ hj.2.2, e3]

/-- The log after a record (R632, R634), and that nothing else of the always-on island changes. -/
theorem State.logRec_log (s : State) (src sev part a b : Nat) :
    { (s.logRec src sev part a b).aon with log := s.aon.log } = s.aon ∧
    (s.logRec src sev part a b).aon.log.seq = wrap32 (s.aon.log.seq + 1) ∧
    (s.logRec src sev part a b).aon.log.recs =
      (if 256 ≤ s.aon.log.recs.length then s.aon.log.recs.drop 1 else s.aon.log.recs) ++
        [{ tick := s.tick, seq := wrap32 (s.aon.log.seq + 1), source := src, severity := sev, part := part, a := a, b := b }] := by
  unfold State.logRec
  dsimp only
  repeat' split
  all_goals simp_all [Log.push]
  all_goals omega

@[simp] theorem State.logRec_seq (s : State) (src sev part a b : Nat) :
    (s.logRec src sev part a b).aon.log.seq = wrap32 (s.aon.log.seq + 1) := (s.logRec_log src sev part a b).2.1

@[simp] theorem State.logRec_recs (s : State) (src sev part a b : Nat) :
    (s.logRec src sev part a b).aon.log.recs =
      (if 256 ≤ s.aon.log.recs.length then s.aon.log.recs.drop 1 else s.aon.log.recs) ++
        [{ tick := s.tick, seq := wrap32 (s.aon.log.seq + 1), source := src, severity := sev, part := part, a := a, b := b }] :=
  (s.logRec_log src sev part a b).2.2

@[simp] theorem State.logRec_mood (s : State) (src sev part a b : Nat) :
    (s.logRec src sev part a b).aon.mood = s.aon.mood := by
  unfold State.logRec
  dsimp only
  repeat' split
  all_goals simp

@[simp] theorem State.logRec_tick (s : State) (src sev part a b : Nat) :
    (s.logRec src sev part a b).aon.tick = s.aon.tick := by
  unfold State.logRec
  dsimp only
  repeat' split
  all_goals simp

end Sys2Proof.Machine
end

