-- ==== Sys2Proof/Laws/StoreReads.lean ====
section
/-!
SUPPORT. What the store reads as after a write of plain bytes (R205, R224, R230), and what the write counts.
-/
namespace Sys2Proof.Machine

/-- Reading after the allowed bytes of a plain write. -/
theorem Memory.read_writeMasked_wbytes (g : Nat → Bool) (bs : List Byte) : ∀ {m : Memory} (o j : Nat), m.wf = true →
    (m.writeMasked ((wbytes o bs).filter (fun b => g b.off))).read j =
      if o ≤ j ∧ g j = true then (bs[j - o]?).getD (m.read j) else m.read j := by
  induction bs with
  | nil => intro m o j _; simp [wbytes, Memory.writeMasked]
  | cons b bs ih =>
    intro m o j h
    have hm : mergeByte (m.read o) b 0xFF = b := by 
      show (_ &&& ~~~(BitVec.allOnes 8)) ||| (b &&& BitVec.allOnes 8) = b
      rw [BitVec.and_allOnes]; simp
    by_cases hg : g o = true
    · have e : ((wbytes o (b :: bs)).filter (fun b => g b.off)) =
          WByte.plain o b :: (wbytes (o + 1) bs).filter (fun b => g b.off) := by
        simp [wbytes, WByte.plain, hg]
      rw [e, Memory.writeMasked]
      show (Memory.writeMasked (m.write o (mergeByte (m.read o) b 0xFF)) _).read j = _
      rw [hm, ih (o + 1) j (Memory.write_wf _ _ h), Memory.read_write _ _ _ h]
      by_cases hj : j = o
      · subst hj; simp [hg] <;> omega
      · by_cases hl : o ≤ j
        · have h1 : o + 1 ≤ j := by omega
          have h2 : j - o = (j - (o + 1)) + 1 := by omega
          simp [hl, h1, hj, h2]
        · have h1 : ¬ o + 1 ≤ j := by omega
          simp [hl, h1, hj]
    · have e : ((wbytes o (b :: bs)).filter (fun b => g b.off)) = (wbytes (o + 1) bs).filter (fun b => g b.off) := by
        simp [wbytes, WByte.plain, hg]
      rw [e, ih (o + 1) j h]
      by_cases hj : j = o
      · subst hj; simp [hg]
      · by_cases hl : o ≤ j
        · have h1 : o + 1 ≤ j := by omega
          have h2 : j - o = (j - (o + 1)) + 1 := by omega
          simp [hl, h1, h2]
        · have h1 : ¬ o + 1 ≤ j := by omega
          simp [hl, h1]

/-! One write of plain bytes. -/

theorem wbytes_length (bs : List Byte) : ∀ o, (wbytes o bs).length = bs.length := by
  induction bs with
  | nil => intro o; rfl
  | cons b bs ih => intro o; simp [wbytes, ih]

theorem wbytes_isEmpty (o : Nat) (b : Byte) (bs : List Byte) : (wbytes o (b :: bs)).isEmpty = false := rfl

/-! What the check of a read or a write for bit errors leaves (R222, R223): the contents and the configuration. -/

/-- What a store operation that finds errors leaves of `s`. -/
structure Found (s t : State) : Prop where
  mem : t.store.mem = s.store.mem
  act : t.dict.act = s.dict.act
  rings : t.rings = s.rings

theorem Found.refl (s : State) : Found s s := ⟨rfl, rfl, rfl⟩

theorem Found.setSgl {s t : State} (h : Found s t) (k v : Nat) : Found s (t.setSgl k v) := ⟨h.mem, h.act, h.rings⟩

theorem Found.onStore {s t : State} (h : Found s t) {f : Store → Store} (hf : (f t.store).mem = t.store.mem) :
    Found s (t.onStore f) := ⟨hf.trans h.mem, h.act, h.rings⟩

theorem Found.onAon {s t : State} (h : Found s t) (f : Aon → Aon) : Found s (t.onAon f) := ⟨h.mem, h.act, h.rings⟩

theorem Found.forEach {α : Type} {s : State} {f : State → α → State} (hf : ∀ {t : State} (a : α), Found s t → Found s (f t a))
    {l : List α} : ∀ {t : State}, Found s t → Found s (t.forEach l f) := by
  induction l with
  | nil => intro t h; exact h
  | cons a l ih => intro t h; exact ih (hf a h)

theorem Found.uncorrectable {s t : State} (h : Found s t) (o : Nat) : Found s (t.uncorrectable o) :=
  by unfold State.uncorrectable State.latch State.markWord State.bump State.addSat
     exact Found.onAon (Found.setSgl (Found.setSgl (h.onStore rfl) _ _) _ _) _

theorem Found.corrected {s t : State} (h : Found s t) (o : Nat) : Found s (t.corrected o) :=
  by unfold State.corrected State.bump State.addSat
     exact Found.setSgl (h.onStore rfl) _ _

theorem State.checkRead_kept (s : State) (o n : Nat) : Found s (s.checkRead o n) :=
  Found.forEach (fun a h => h.uncorrectable a) (Found.forEach (fun a h => h.corrected a) (Found.refl s))

theorem State.checkWrite_kept (s : State) (ws : List WByte) : Found s (s.checkWrite ws) :=
  Found.forEach (fun a h => h.uncorrectable a) (Found.forEach (fun a h => h.corrected a) (Found.refl s))

/-- The guarded stretches rest on the active set and the ring positions alone. -/
theorem State.guards_congr {s t : State} (h : Found s t) : t.guards = s.guards := by
  have e : t.ringInfo = s.ringInfo := by
    funext r; simp only [State.ringInfo, State.enabled, State.act, h.act]; rfl
  unfold State.guards
  rw [e, h.rings]

/-- Where no word holds an unfound error, a read finds nothing. -/
theorem State.checkRead_clean {s : State} (h : s.store.single = []) (k : s.store.latent = []) (o n : Nat) :
    s.checkRead o n = s := by
  simp [State.checkRead, wordsRead, h, k, State.forEach]

/-- Where no word holds an unfound error, a write finds nothing. -/
theorem State.checkWrite_clean {s : State} (h : s.store.single = []) (k : s.store.latent = []) (ws : List WByte) :
    s.checkWrite ws = s := by
  simp [State.checkWrite, h, k, State.forEach]

/-- A plain write whose bytes no poisoned word stops reads back as it says, guarded bytes apart. -/
theorem State.storeWrite_read {s : State} (h : s.store.mem.wf = true) (a : Asker) (o : Nat) (bs : List Byte)
    (hp : ∀ j, o ≤ j → j < o + bs.length →
      poisonStops (s.checkWrite (wbytes o bs)).store.poison (wbytes o bs) j = false) (j : Nat) :
    (s.storeWrite a (wbytes o bs)).store.mem.read j =
      if o ≤ j ∧ guarded s.guards j = false then (bs[j - o]?).getD (s.store.mem.read j) else s.store.mem.read j := by
  have kept := State.checkWrite_kept s (wbytes o bs)
  have base : ((s.checkWrite (wbytes o bs)).putBytes (wbytes o bs)).store.mem.read j =
      if o ≤ j ∧ guarded s.guards j = false then (bs[j - o]?).getD (s.store.mem.read j) else s.store.mem.read j := by
    have := Memory.read_writeMasked_wbytes (fun j => !guarded s.guards j &&
      !poisonStops (s.checkWrite (wbytes o bs)).store.poison (wbytes o bs) j) bs o j h
    simp only [State.putBytes, State.allowed, State.onStore_store, State.guards_congr kept, kept.mem]
    rw [this]
    by_cases h1 : o ≤ j
    · by_cases h2 : j < o + bs.length
      · simp [h1, hp j h1 h2]
      · have : bs[j - o]? = none := List.getElem?_eq_none (by omega)
        simp [this]
    · simp [h1]
  have wake : ∀ (t : State) (l : List Nat), (t.wakeChans l).store.mem = t.store.mem := by
    intro t l; unfold State.wakeChans; split <;> rfl
  have take : ∀ (t : State) (l : List Nat), (t.takeLines a l).store.mem = t.store.mem := by
    intro t l; unfold State.takeLines; dsimp only; rw [wake]; simp
  cases bs with
  | nil => simp [State.storeWrite, wbytes]
  | cons b bs =>
    rw [← base]
    simp only [State.storeWrite, wbytes_isEmpty, Bool.false_eq_true, if_false]
    rw [take]
    simp

/-- Bytes of a word that a write covers whole are not stopped by its poison; nor is a byte of a word that is not poisoned. -/
theorem poisonStops_of_clean {poison : List Nat} {ws : List WByte} {j : Nat} (h : poison.contains (j / 8 * 8) = false) :
    poisonStops poison ws j = false := by
  unfold poisonStops; simp only [h, Bool.false_and]

end Sys2Proof.Machine
end

