-- ==== Sys2Proof/WellFormed.lean ====
section
/-!
DEFINITION. Which commands could reach the device: the lengths and ranges that the operand types do not say. The
meanings are total and do not rest on it.
-/
namespace Sys2Proof

/-- A MAC address tells requesters apart on 10BASE-T1S only. -/
def Head.wf (h : Head) : Bool := decide (h.req.via = .t1s) || decide (h.req.mac = 0)

/-- Request data: LEN is one byte (Table 3-4); above 240 the request is malformed (Table 3-6). -/
def pduDataOk (d : List Byte) : Bool := decide (d.length ≤ 255)

/-- An OP that is absent from Table 3-5, or NOTIFY, which the device alone originates (R72). -/
def opUnknown (op : Byte) : Bool := decide (op = 0) || decide (9 < op.toNat)

/-- One figure per cluster, partition and sensor. -/
def Meters.wf (m : Meters) : Bool :=
  decide (m.clusterMw.length = 8) && decide (m.partCycles.length = 16) && decide (m.sensors.length = 12)

/-- One voltage per monitor, one temperature per sensor (Tables 20-5 and 20-8); an error strikes a 64-bit word. -/
def TickInputs.wf (i : TickInputs) : Bool :=
  decide (i.mv.length = 8) && decide (i.temps.length = 12) && decide (i.late ≤ i.arr.length) && i.meters.wf &&
    i.upsets.all (fun u => decide (u.1 % 8 = 0))

/-- A burst carries at most one tile (R484). -/
def TapBurst.wf (b : TapBurst) : Bool := decide (b.data.length ≤ 4096) && decide (b.corrected ≤ 4096)

/-- The payload of a remote message (Table 16-2): at most 192 bytes. LENGTH says how many, or, for a READ, which carries
none, how many it asks for. -/
def Msg.wf (m : Msg) : Bool :=
  decide (m.len.toNat ≤ 192) && (if m.type = 0x01 then m.data.isEmpty else decide (m.len.toNat = m.data.length))

/-- One finding per line of the grid (R520). -/
def findsOk (f : List RingFind) : Bool := decide (f.length ≤ 17)

/-- Readings of MON_A: one per comb line and the mesh input (Table 15-10). -/
def monOk (l : List Int) : Bool := decide (l.length = 18)
/-- Readings of a port, laid out as MON_READING, and the far device's losses at MON_D, MON_E and MON_F, 17 lines each
(R546). -/
def portMonOk (mon far : List Int) : Bool := decide (mon.length = 102) && decide (far.length = 51)

/-- A module response carries at most four data bytes (Table 15-4). -/
def ModResp.wf (r : ModResp) : Bool := decide (r.data.length ≤ 4)

/-- A slot map names a ring for each of the 16 slots (R552). -/
def TrainMsg.wf (m : TrainMsg) : Bool := decide (m.slotMap.length = 16)

/-- The shifters of one column (R587). -/
def StepResult.wf (r : StepResult) : Bool := r.offsets.all (fun o => decide (o.1 < 4096))

/-- A flit is 256 bytes (R557). -/
def flitOk (b : List Byte) : Bool := decide (b.length = 256)

/-- A mailbox buffer is 256 bytes (Table 3-3). -/
def mboxOk (b : List Byte) : Bool := decide (b.length = 256)

/-- A BAR2 request moves 1 to 4,096 bytes. -/
def bar2LenOk (n : Nat) : Bool := decide (1 ≤ n) && decide (n ≤ 4096)

/-- A doorbell write of a wrong size: 1, 2 or 8 bytes (R319). -/
def badSizeOk (n : Nat) : Bool := decide (n = 1) || decide (n = 2) || decide (n = 8)

/-- Is a command well formed? -/
def Instr.wf : Instr → Bool
  | .tickBoundary i => i.wf
  | .coreDomainReset h => h.wf
  | .configurationReset h => h.wf
  | .moodRequest h _ => h.wf
  | .deposit h _ => h.wf
  | .grant h _ _ => h.wf
  | .planner m => m.wf
  | .batteryFeedWrite h _ _ => h.wf
  | .read h _ => h.wf
  | .write h _ data => h.wf && pduDataOk data
  | .readShadow h _ => h.wf
  | .describe h _ => h.wf
  | .segReadInit h _ => h.wf
  | .segWriteInit h _ _ => h.wf
  | .segData h _ _ data => h.wf && decide (data.length ≤ 253)
  | .segAbort h _ => h.wf
  | .echo h _ data => h.wf && pduDataOk data
  | .unknownOp h op _ data => h.wf && opUnknown op && pduDataOk data
  | .notifyTransportWrite h _ => h.wf
  | .reqGo buf => mboxOk buf
  | .swapRequest h => h.wf
  | .shadowRevert h => h.wf
  | .bar2Read _ len => bar2LenOk len
  | .bar2Write _ data => bar2LenOk data.length
  | .peekData h _ => h.wf
  | .pokeData h data => h.wf && pduDataOk data
  | .partReset h _ => h.wf
  | .doorbellBadSize _ size _ => badSizeOk size
  | .flushRun h _ => h.wf
  | .flushAbandonQueued h _ => h.wf
  | .flushPreempt h _ => h.wf
  | .conjValueWrite h _ => h.wf
  | .conjValueRead h => h.wf
  | .tapBurstEnd _ b => b.wf
  | .moduleResponse r => r.wf
  | .pilotsPresent _ _ found => findsOk found
  | .fadeSample mon => monOk mon
  | .commission h => h.wf
  | .lossLocation _ mon far => portMonOk mon far
  | .train _ m => m.wf
  | .flitReceive _ bytes => flitOk bytes
  | .remoteRead m => m.wf
  | .remoteWrite m => m.wf
  | .tileOpen m => m.wf
  | .tileData m => m.wf
  | .atomic m => m.wf
  | .signal m => m.wf
  | .waitReg m => m.wf
  | .readData m => m.wf
  | .writeAck m => m.wf
  | .tileGrant m => m.wf
  | .tileAck m => m.wf
  | .atomicData m => m.wf
  | .waitAnswer m => m.wf
  | .error m => m.wf
  | .inputStep r => r.wf
  | .partRelease h _ => h.wf
  | .stopAfter h _ _ => h.wf
  | .eventLog h => h.wf
  | .snapRegs h => h.wf
  | .snapPrivData h => h.wf
  | .digest h => h.wf
  | .tickLock | .holdoverEntry | .tickRelock | .alwaysOnPowerOn _ _ | .alwaysOnLoss | .supplyWarning _
  | .supplyResetLevel _ | .powerGoodTimeout _ | .powerGoodFall _ | .thermalTrip _ | .thermalTripClear | .rstN
  | .wakeN | .enterFault _ _ _ | .floorCeilingRequest | .wakePhaseComplete | .clusterClockStop _ | .idleLinger
  | .quiesceStepComplete | .braceExit | .braceLimit | .batteryStale | .energyWaitEnd _ | .pduReceive _ _ _
  | .duplicateRecordExpiry | .segTimeout _ | .notifyHandover | .i3cPrivateRead _ | .enec | .disec | .rstdaa
  | .entdaa _ | .setdasa _ _ | .getpid | .getbcr | .getdcr | .getstatus | .getmxds | .setmwl _ | .getmwl
  | .setmrl _ | .getmrl | .rstact _ | .targetResetPattern | .rspReadyClear | .ntfReadyClear | .mailboxRestore
  | .swapTakesEffect | .swapForce | .fetchadd _ _ _ | .atomicopSwap _ _ _ | .atomicopCas _ _ _ _ | .cas128 _
  | .bar2CounterRead _ | .bar2CounterSignal _ _ | .tileCommit _ | .scrubDue _ _ | .refreshDue _
  | .backgroundOverdue _ | .deepSelfRefresh _ | .partResetComplete _ | .feedDoorbell _ _ | .ringDoorbell _ _
  | .complDoorbell _ _ | .clauseFetch _ | .clauseExecute _ | .waitGe _ _ _ | .waitSatisfied _
  | .signalAtRetire _ _ _ | .signalNow _ _ _ | .verbPush _ _ _ _ _ | .pushResume _ | .addressStreamPush _ _
  | .memoWaitEnd _ | .fenceRelease _ | .insnAdd _ _ _ _ | .insnSub _ _ _ _ | .insnAnd _ _ _ _
  | .insnOr _ _ _ _ | .insnXor _ _ _ _ | .insnShl _ _ _ _ | .insnShr _ _ _ _ | .insnSra _ _ _ _
  | .insnMul _ _ _ _ | .insnMulh _ _ _ _ | .insnMin _ _ _ _ | .insnMax _ _ _ _ | .insnMinu _ _ _ _
  | .insnMaxu _ _ _ _ | .insnAddi _ _ _ _ | .insnAndi _ _ _ _ | .insnOri _ _ _ _ | .insnXori _ _ _ _
  | .insnShli _ _ _ _ | .insnShri _ _ _ _ | .insnSrai _ _ _ _ | .insnLimm _ _ _ | .insnFadd _ _ _ _
  | .insnFsub _ _ _ _ | .insnFmul _ _ _ _ | .insnFdiv _ _ _ _ | .insnFsqrt _ _ _ | .insnFmin _ _ _ _
  | .insnFmax _ _ _ _ | .insnFcvtif _ _ _ | .insnFcvtfi _ _ _ | .insnCmp _ _ _ _ _ | .insnCmpi _ _ _ _ _
  | .insnPand _ _ _ _ | .insnPor _ _ _ _ | .insnPxor _ _ _ _ | .insnPandn _ _ _ _ | .insnSel _ _ _ _ _
  | .insnLdp _ _ _ _ | .insnStp _ _ _ _ | .insnLdg _ _ _ _ | .insnStg _ _ _ _ | .insnAtomAdd _ _ _ _ _
  | .insnAtomFadd _ _ _ _ | .insnAtomMin _ _ _ _ _ | .insnAtomMax _ _ _ _ _ | .insnAtomUmin _ _ _ _ _
  | .insnAtomUmax _ _ _ _ _ | .insnAtomAnd _ _ _ _ _ | .insnAtomOr _ _ _ _ _ | .insnAtomXor _ _ _ _ _
  | .insnAtomSwap _ _ _ _ _ | .insnAtomCas _ _ _ _ _ | .insnBr _ _ _ _ | .insnBmc _ _ _ _ | .insnWinMark _
  | .insnWinUnmark _ | .insnWset _ _ _ _ _ | .insnDput _ _ _ | .insnDget _ _ _ | .insnQroom _ _ _
  | .insnFence _ | .insnMfm _ _ _ | .insnRdsr _ _ _ | .insnLset _ _ _ | .insnLdbnz _ _ _ | .verbRecord _
  | .scoreboardAdmit _ | .verbStart _ | .verbRetire _ | .completionStallEnd _ | .preemption _ | .verbResume _
  | .flushComplete _ | .coreFlushComplete _ | .verbAdd _ | .verbSub _ | .verbMul _ | .verbFma _ | .verbMin _
  | .verbMax _ | .verbAbs _ | .verbNeg _ | .verbLdexp _ | .verbConvert _ | .verbQuant _ | .verbDequant _
  | .verbFunc _ | .verbCompare _ | .verbSelect _ | .verbReduce _ | .verbSoftmax _ | .verbSoftmaxPart _
  | .verbSoftmaxFix _ | .verbRmsnorm _ | .verbRope _ | .verbCopy _ | .verbPermute _ | .verbShift _
  | .verbCompress _ | .verbExpand _ | .verbGather _ | .verbScatter _ | .verbRotate _ | .verbReshard _
  | .tapOffer _ _ _ _ | .tapGrant _ | .tapAbort _ | .tapBurstTimeout _ | .tapWaitLimit _ | .tapStrayBeat _
  | .tapLinkMRise _ | .tapTrainingEnd _ _ | .tapLinkFall _ | .tapClockStop _ | .tapWake
  | .moduleRequestTimeout | .moduleRetry | .searchCalibrationComplete _ _ | .outOfLock _ _ _ _
  | .pilotCheck _ _ _ _ | .mislock _ _ _ _ | .mislockMove _ _ | .calibrationDue | .rotationMove
  | .spareCalibrationStep _ _ _ | .calibrationOverdue _ _ | .spareNotReady | .spareReady | .handoverStep
  | .trainingTimeout _ | .linkDown _ | .retrainLimit _ | .moveAnnounce _ _ _ | .spareRequest _ _ | .calStep _
  | .calDone _ | .remoteTimeout _ | .waitReregister _ | .meshBringup | .slotLoad _ | .meshGrant
  | .inputStepDue | .meshTempSample _ | .meshPowerSample _ | .gainStep _ | .meshCalOverdue | .stalemate _
  | .partitionFault _ _ | .partitionHalted _ | .stopReached _ | .rstNRelease | .crystalEdgesReturn
  | .verbFill _ | .t1sTransmitOpportunity => true

end Sys2Proof
end

