-- ==== Sys2Proof/Tests/Slice0.lean ====
section
/-!
SUPPORT. Tests: commands that well-formedness turns away, words written out from the encodings of chapter 8, results that the
spec states, and for each statement of Certificates/Slice0/Obligations.lean a state and operands that meet its hypotheses.
-/
namespace Sys2Proof.Tests

open Sys2Proof.Machine Sys2Proof.Claims

set_option Elab.async false
set_option maxRecDepth 100000
set_option synthInstance.maxSize 2000
set_option synthInstance.maxHeartbeats 200000

/-! States. -/

/-- The device in Full, with the defaults loaded. -/
def full : State :=
  State.reset.onMood (fun m => { m with cur := .full, target := .full, before := .full, configured := true })

/-- The same with partition 1 running: cores 8 and 9, control core 2, 64 MiB of the near tier
in window 0. -/
def one : State :=
  ((((((full.setAct (K.partEnable 1) 1).setAct (K.coreMask 1) 0x300).setAct (K.controlCore 1) 2).setAct
    (K.windowLength 1 0) 0x4000000).setAct (K.windowRights 1 0) 7).onPart 1 (fun p => { p with state := 1 }))

/-- Its control core's thread. -/
def ctl : ThreadId := 66
/-- The ring thread of its core 8. -/
def ring : ThreadId := 8

/-- `one` with s1 of its control core at `v`. -/
def withS1 (v : W64) : State := one.onThread ctl (fun h => h.sset 1 v)

/-! Instructions of control cores. -/

theorem meets_IntegerOpsAndReadsWriteTheirResult : onControl one ctl 1 ∧ one.threads[ctl].pend[(3 : MReg)] = 0 := by
  unfold onControl; decide +kernel

theorem meets_FloatOpsAndComparesWriteTheirResult : onControl one ctl 1 := by unfold onControl; decide +kernel

/-- Private addresses: the last eight bytes, the first outside, a misaligned one, a negative one. -/
theorem meets_LoadsAndStoresReachTheirEightBytes :
    let at' (v : W64) := (BitVec.ofInt 64 (((withS1 v).threads[ctl].sget 1).toInt + (0 : BitVec 14).toInt)).toNat
    onControl (withS1 0x3FFF8) ctl 1 ∧ Safety.sound (withS1 0x3FFF8) ∧
    (at' 0x3FFF8 % 8 = 0 ∧ at' 0x3FFF8 + 8 ≤ 0x40000) ∧ ¬ (at' 0x40000 % 8 = 0 ∧ at' 0x40000 + 8 ≤ 0x40000) ∧
    ¬ (at' 12 % 8 = 0 ∧ at' 12 + 8 ≤ 0x40000) ∧ onControl (withS1 0x3FFD0) ctl 1 ∧
    ((withS1 0x3FFD0).threads[ctl].sget 2).toNat < 4096 ∧ ¬ (0x3FFD0 % 64 = 0 ∧ 0x3FFD0 + 64 ≤ 0x40000) ∧
    (withS1 0x3FFF8).isLocal (at' 0x3FFF8) = true ∧ (withS1 0x3FFF8).accessCause 1 (at' 0x3FFF8) 8 .read = none ∧
    readable (withS1 0x3FFF8) (gaOff (at' 0x3FFF8)) 8 ∧ (withS1 0x3FFF8).accessCause 1 (at' 0x3FFF8) 8 .write = none := by
  unfold onControl Safety.sound Safety.ledgerOk Safety.memoriesOk Safety.mapsOk readable; decide +kernel

theorem meets_AtomicsUpdateTheirWordAndReturnTheOldValue :
    onControl (withS1 0x104) ctl 1 ∧ Safety.sound (withS1 0x104) ∧ (withS1 0x104).isLocal 0x104 = true ∧
    ((withS1 0x104).threads[ctl].sget 1).toNat = 0x104 ∧ (withS1 0x104).accessCause 1 0x104 4 .atomic = none ∧
    (withS1 0x104).accessCause 1 0x108 8 .atomic = none ∧ readable (withS1 0x104) (gaOff 0x104) 4 := by
  unfold onControl Safety.sound Safety.ledgerOk Safety.memoriesOk Safety.mapsOk readable; decide +kernel

/-- One address for each cause of an address fault, and the last one that takes none. -/
theorem meets_RefusedThreadAccessesFaultByTheirCause :
    onControl one ctl 1 ∧ Safety.sound one ∧ one.parts[(1 : PartId)].faulted = false ∧
    one.accessCause 1 0x1000000000 8 .read = some 1 ∧ one.accessCause 1 0x10000000000000 8 .write = some 6 ∧
    one.accessCause 1 0x3FFFFFC 8 .read = some 2 ∧ one.accessCause 1 0x20000000 8 .read = some 2 ∧
    one.accessCause 1 0x4000000 4 .atomic = some 3 ∧ one.accessCause 1 0x3FFFFF8 8 .atomic = none := by
  unfold onControl Safety.sound Safety.ledgerOk Safety.memoriesOk Safety.mapsOk; decide +kernel

/-- s2 of `withS1` is 0: private address 0, and 0x3FFD0, from which 64 bytes run over the end. -/
theorem meets_DescriptorCopiesAndWalkerWritesReachTheirWords :
    onControl (withS1 4095) ctl 1 ∧ Safety.sound (withS1 4095) ∧ ((withS1 4095).threads[ctl].sget 1).toNat < 4096 ∧
    (withS1 4095).descBusy 1 4095 = false ∧ 4096 ≤ ((withS1 4096).threads[ctl].sget 1).toNat ∧
    ((withS1 0x3FFD0).threads[ctl].sget 2).toNat < 4096 ∧ ¬ (((withS1 0x3FFD0).threads[ctl].sget 1).toNat + 64 ≤ 0x40000) ∧
    one.ready ctl = some 1 ∧ (12 : BitVec 6).toNat < 13 ∧ one.auto 1 = false ∧ (one.coreMask 1).testBit 9 = true ∧
    one.ready ring = some 1 ∧ ring.val < 64 := by
  unfold onControl Safety.sound Safety.ledgerOk Safety.memoriesOk Safety.mapsOk; decide +kernel

/-- `one` with 64 words of feed ring and of the ring of core 8, and both tails at 40, and l0 of core 8 at `n`. -/
def fed (n : BitVec 24) : State :=
  ((((((((((one.setAct (K.feedEnable 1) 1).setAct (K.feedBase 1) 0x10000).setAct (K.feedWords 1) 64).setAct
    (K.ringEnable 8) 1).setAct (K.ringBase 8) 0x20000).setAct (K.ringWords 8) 64).onRing 65 (fun r => { r with tail := 40 })).onRing
    8 (fun r => { r with tail := 40 })).onThread ring (fun h => { h with l := vset h.l 0 n })).onThread ctl
    (fun h => { h with m := vset h.m 1 5, pend := vset h.pend 2 1 }))

/-- Targets in the window, at the tail, just past it, and a negative one that wraps to the ring's end. -/
theorem meets_BranchesRedirectAndFencesWait :
    (fed 1).ready ctl = some 1 ∧ (fed 1).ready ring = some 1 ∧ ((fed 1).threads[ctl].pget 0 = true ∧ (fed 1).threads[ctl].pget 1 = false) ∧
    (fed 1).threads[ctl].pend[(1 : MReg)] = 0 ∧ (fed 1).threads[ctl].m[(1 : MReg)] ≠ 0 ∧ (fed 1).threads[ctl].pend[(2 : MReg)] ≠ 0 ∧
    (fed 1).threads[ring].l[(0 : Fin 4)] - 1 = 0 ∧ (fed 2).threads[ring].l[(0 : Fin 4)] - 1 ≠ 0 ∧
    (let q := (fed 1).rings[(65 : Fin 80)]
     let e (o : Int) : Int := ((q.pc - q.retire).toNat : Int) + o
     let w : Int := (q.tail - q.retire).toNat
     (0 ≤ e 40 ∧ e 40 ≤ w) ∧ ¬ (0 ≤ e 41 ∧ e 41 ≤ w) ∧ w < e 41 % 64 ∧ ¬ (0 ≤ e (-60)) ∧ e (-60) % 64 ≤ w ∧
       w < e (-1) % 64) ∧
    (fed 1).threadBusy ctl = false := by
  decide +kernel

/-- Instructions that a core, and a control core, may not execute. -/
theorem meets_IllegalInstructionsStopTheirThread :
    one.ready ring = some 1 ∧ one.ready ctl = some 1 ∧ Safety.sound one ∧ insnOf (.insnAdd ring 1 2 3) = some ring ∧
    legalOnCore (.insnAdd ring 1 2 3) = false ∧ legalOnCore (.insnBr ring 1 false 0) = false ∧ one.auto 1 = false ∧
    (one.setAct (K.programMode 1) 1).auto 1 = true ∧ (one.setAct (K.programMode 1) 1).ready ctl = some 1 ∧
    (one.coreMask 1).testBit 7 = false ∧ (one.coreMask 1).testBit 8 = true ∧ 13 ≤ (13 : BitVec 6).toNat := by
  unfold Safety.sound Safety.ledgerOk Safety.memoriesOk Safety.mapsOk; decide +kernel

/-! Verbs. -/

/-- A configuration whose stage 3 alone works: operation `op` on SRC_A, SRC_B and SRC_C, in the int32 path when `int`. -/
def arith (op : Nat) (int : Bool) : BitVec 384 :=
  packFields [(0x3FB, 16), (b2n int, 28), (op, 96), (1, 100), (2, 103), (3, 106)]

theorem meets_ArithmeticStagesComputeTheirOperation :
    (∀ i : Bool, ∀ op : Fin 10, let cfg := arith op.val i
      (∀ n : Fin 7, n.val ≠ 3 → 3 ≤ n.val → cfgBypass cfg n.val = true) ∧ cfgBypass cfg 3 = false ∧
      cfgBits cfg 102 100 = 1 ∧ cfgBits cfg 105 103 = 2 ∧ cfgBits cfg 108 106 = 3 ∧ cfgBits cfg 99 96 = op.val ∧
      cfgInt cfg = i) := by
  decide +kernel

/-- A FILL of pronoun 0: eight binary32 zeros at 0x1000 of the near tier; COMPLETE as asked. -/
def fillSlot (complete : Bool) : BitVec 128 := BitVec.ofNat 128 (0x701 + 2 ^ 23 * b2n complete + 2 ^ 54)
/-- The descriptor that it names (Table 7-5): BASE 0x1000, FORMAT 1, RANK 1, VALID, EXTENT_0 8. -/
def eight : BitVec 512 := BitVec.ofNat 512 (0x1000 + 2 ^ 64 * 1 + 2 ^ 72 * 1 + 2 ^ 88 + 2 ^ 128 * 8)

/-- A verb of partition 1 on core 8, pushed by its control core, at stage `st`. -/
def verb (st : VStage) (ticket : Nat) (complete : Bool) : Verb :=
  { slot := fillSlot complete, adv := 0, k := none, imm := none, caps := Vector.replicate 4 none,
    descs := if st = .queued then Vector.replicate 4 none else vset (Vector.replicate 4 none) 0 (some eight),
    ticket := ticket, part := 1, thread := 66, clause := 0, second := false, stage := st, cfg := 0, res := 0, scale := 0,
    metered := 0, tiles := if st = .queued then 0 else 1, done := 0,
    red := { acc := [], rs0 := [], rs1 := [], aux := [], cnt := [], pos := [], stream := 0 },
    sums := { active := 0, streamed := 0, saturated := 0, nanOut := 0, infOut := 0, emptyLines := 0, maxMag := 0, last := 0 },
    topWait := false, resumed := false, awaited := 0, waits6 := false, energy := 0, fullCounted := false,
    hazCounted := false, keeps := [], rnd := none }

/-- `one` with `f` done to core 8, with the descriptor in the table of partition 1, and `b` nJ in its sub-ledger. -/
def onEight (b : Int) (f : CoreSt → CoreSt) : State :=
  (((one.setAct (K.reserveCap 1) 1000000).onStore (fun st => { st with mem := st.mem.writeN 0xF0140000 (leBytes 64 eight.toNat) })).onLedger
    (fun l => { l with deposits := b, subs := vset l.subs 1 { balance := b, reserved := 0, spent := 0 } })).onCore 8 f

/-- The verb at the head of core 8's queue. -/
def queued (st : VStage) : State := onEight 100000 (fun c => { c with queue := [.verb (verb st 0 false)] })

/-- Is everything at hand, and the state `s`? -/
def isReady (f : Fetched) (s : State) : Bool :=
  match f with
  | .ready u => decide (u = s)
  | _ => false

/-- FILL of one tile on core 8: its output joins the write buffer and, the verb's only tile, it leaves the chain. -/
theorem meets_RunningVerbsCompleteTheirTiles :
    let v := { verb .running 0 false with cfg := (onEight 0 (fun c => c)).cfgOf (verb .running 0 false) }
    let s := onEight 100000 (fun c => { c with active := some v })
    let j := v.job
    let out := j.run (s.chainByte 8) [] [] 0 [] v.red v.sums (fun r xs => meshRow (meshBits j.par) (s.meshRead 8 v r xs) xs)
      (fun i => Config.reduceU s.cores[(8 : CoreId)].lfsr i % 65536)
    verbOf (.verbFill 8) = some (.fill, 8) ∧ v.op = .fill ∧ s.cores[(8 : CoreId)].active = some v ∧
    s.coreGo 8 (pid v.part) = true ∧ s.cores[(8 : CoreId)].preemptReq = false ∧ v.isTap = false ∧
    s.firstReads 8 v j (j.place 0) = [] ∧ isReady (s.fetchAll 8 v []) s = true ∧ s.verbNow 8 v = v ∧
    (s.rowsOf 8 v j (j.place 0) (s.chainByte 8)).toOption = some [] ∧ j.reads (s.chainByte 8) [] 0 0 = [] ∧
    s.cores[(8 : CoreId)].wbuf = [] ∧ cfgRound v.cfg ≠ 5 ∧ out.atoms = [] ∧ s.countReads 8 (lineReads []) = s ∧
    (∀ t ∈ out.commits, ∀ b ∈ t, s.isLocal b.addr.toNat = true → s.live (gaOff b.addr.toNat) = true) ∧
    (s.issueAtoms 8 v 2 [] 0) = (s, some 0) ∧ v.tiles ≤ v.done + 1 := by
  decide +kernel

/-- `queued .queued` with 256 entries in the scoreboard of partition 1. -/
def fullBoard : State :=
  (queued .queued).onPart 1 (fun p => { p with sb := List.replicate 256 (SbEntry.mk 0 9 false 0 255 false) })

theorem meets_RecordingAndStartingTakeTheirEntries :
    let s := queued .queued
    let v := verb .queued 0 false
    let w := s.cores[(8 : CoreId)].withTiles (s.resolve v)
    s.cores[(8 : CoreId)].head = some v ∧ v.stage = .queued ∧ s.admitGo 8 1 = true ∧ s.recordTurn 8 v = true ∧
    Safety.sound s ∧ (s.resolve v).descBad = none ∧ (s.resolve v).walkerBad = none ∧ w.streams = false ∧
    s.parts[(1 : PartId)].sb.length + w.entries [] ≤ 256 ∧ s.operandBad 8 w = none ∧ (s.spans w []).isSome = true ∧
    256 < fullBoard.parts[(1 : PartId)].sb.length + w.entries [] ∧ v.fullCounted = false ∧ fullBoard.admitGo 8 1 = true ∧
    (queued .admitted).cores[(8 : CoreId)].head = some (verb .admitted 0 false) ∧
    (queued .admitted).cores[(8 : CoreId)].active = none ∧ (queued .admitted).cores[(8 : CoreId)].pre = none ∧
    (queued .admitted).startGo 8 1 = true := by
  unfold Safety.sound Safety.ledgerOk Safety.memoriesOk Safety.mapsOk; decide +kernel

/-- The entries of two verbs of partition 1 that write the same granule. -/
def clash : List SbEntry :=
  [{ ticket := 0, core := 9, write := true, lo := 0x1000, hi := 0x10FF, torn := false },
   { ticket := 1, core := 8, write := true, lo := 0x1000, hi := 0x10FF, torn := false }]

/-- A recorded verb with ticket 1 that stands in a hazard, one that can be reserved, and one whose balance does not do. -/
theorem meets_AdmissionReservesEnergyInOrder :
    let v := verb .recorded 1 false
    let at' (b : Int) := onEight b (fun c => { c with queue := [.verb v] })
    let s := at' 100000
    let w := (at' 100000).onPart 1 (fun p => { p with energyQ := [1], energyWait := true })
    s.cores[(8 : CoreId)].head = some v ∧ Safety.sound s ∧ s.admitGo 8 1 = true ∧ s.parts[(1 : PartId)].energyQ = [] ∧
    s.findVerb 1 1 = some (8, v) ∧ (s.onPart 1 (fun p => { p with sb := clash })).hazard 8 v = true ∧ v.hazCounted = false ∧
    s.hazard 8 v = false ∧ (s.spans v []).map (s.spanCause v) = some none ∧
    s.resOf 8 v [] ≤ s.act (K.reserveCap 1) ∧ s.canReserve 1 (s.resOf 8 v []) = true ∧
    0 < s.resOf 8 v [] ∧ (at' 0).canReserve 1 (s.resOf 8 v []) = false ∧ (at' 0).parts[(1 : PartId)].energyWait = false ∧
    w.parts[(1 : PartId)].energyQ = [v.ticket] ∧ w.findVerb 1 1 = some (8, v) ∧ w.admitGo 8 1 = true ∧
    (∀ d ∈ w.coresOf 1, (w.cores[d].pre.any (fun x => x.topWait)) = false) ∧ w.headRes 8 v ≤ w.act (K.reserveCap 1) ∧
    w.canReserve 1 (w.headRes 8 v) = true := by
  unfold Safety.sound Safety.ledgerOk Safety.memoriesOk Safety.mapsOk; decide +kernel

/-- The completion ring of partition 1: `n` entries at 0x8000. -/
def reporting (n : Nat) (s : State) : State :=
  ((s.setAct (K.complEnable 1) 1).setAct (K.complBase 1) 0x8000).setAct (K.complEntries 1) n

/-- A verb without an entry, and one with an entry when the ring has room and when its one place is taken. -/
theorem meets_RetirementSettlesAndReportsEachVerb :
    let v (b : Bool) := verb .retiring 0 b
    let s (b : Bool) := reporting 1 (onEight 100000 (fun c => { c with retiring := [v b] }))
    let stuck := reporting 1 (onEight 100000 (fun c => { c with retiring := [{ v true with waits6 := true }] }))
    let taken (x : State) := x.onPart 1 (fun p => { p with produced := 1 })
    (∀ b : Bool, (s b).cores[(8 : CoreId)].retiring = [v b] ∧ Safety.ledgerOk (s b) ∧ Safety.memoriesOk (s b) ∧ Safety.mapsOk (s b) ∧
      (s b).coreGo 8 1 = true ∧ (s b).stepOneDone 8 (v b) = true ∧ (s b).retireTurn (v b) = true ∧
      (s b).parts[(1 : PartId)].sigs = [] ∧ (s b).wantsEntry (v b) = b ∧ (s b).store.poison = [] ∧ (s b).store.latent = []) ∧
    (v false).waits6 = false ∧ (s true).complFull 1 = false ∧ (taken (s true)).complFull 1 = true ∧
    stuck.wantsEntry { v true with waits6 := true } = true ∧ stuck.complFull 1 = false ∧ (taken stuck).complFull 1 = true := by
  unfold Safety.ledgerOk Safety.memoriesOk Safety.mapsOk; decide +kernel

/-- Without and with an output that has not begun to commit; resumed with no top-up, with one, and with one that the balance
does not allow. -/
theorem meets_PreemptedVerbsKeepTheirContextAndResume :
    let v := verb .running 0 false
    let e : Keep := { tile := 0, red := v.red, sums := v.sums, lfsr := 5, cursor := 0, rows := 0 }
    let w : Verb := { v with stage := .preempted, res := 1000, scale := 64 }
    let a (x : Verb) := onEight 100000 (fun c => { c with active := some x, preemptReq := true })
    let r (b : Int) := onEight b (fun c => { c with pre := some w })
    Safety.sound (a v) ∧ (a v).cores[(8 : CoreId)].active = some v ∧ (a v).cores[(8 : CoreId)].preemptReq = true ∧
    (a v).coreUp 8 = true ∧ (a v).inFault = false ∧ (a v).tapBusy 8 = false ∧ (a v).parts[(1 : PartId)].state ≠ 6 ∧
    v.op ≠ .scatter ∧ (a v).flushKills 8 v = false ∧ v.keeps = [] ∧ (a { v with keeps := [e] }).flushKills 8 v = false ∧
    (a v).meshRecord 1 = false ∧ (r 100000).cores[(8 : CoreId)].pre = some w ∧ (r 100000).startGo 8 1 = true ∧
    (r 100000).cores[(8 : CoreId)].active = none ∧ topUp w.res w.scale ((r 0).scaleOf 8) ≠ 0 ∧
    topUp v.res v.scale ((r 0).scaleOf 8) = 0 ∧ (r 100000).canReserve 1 (topUp w.res w.scale ((r 0).scaleOf 8)) = true ∧
    (r 0).canReserve 1 (topUp w.res w.scale ((r 0).scaleOf 8)) = false ∧ w.topWait = false := by
  unfold Safety.sound Safety.ledgerOk Safety.memoriesOk Safety.mapsOk; decide +kernel

/-! Clauses, signals and pushes. -/

/-- A clause of no slots: VERSION 1, LENGTH 1, MASK 0 (Table 8-1). -/
def bare : List W32 := [0x10010000, 0]

/-- `fed 1` with core 8's thread at step 7 of a clause, or with clause `ps` fetched. -/
def ending : State := (fed 1).onThread ring (fun h => { h with cl := { h.cl with active := true, words := 1, step := 7 } })
def fetched (ps : List W32) : State := (fed 1).onThread ring (fun h => { h with fetchq := [(0, ps)] })

/-- A bare clause is legal, and one of another VERSION has cause 1, whatever else the state holds. -/
theorem bare_legal (s u : State) (_ : u.dict = s.dict) : u.clauseFault ring 1 bare 1 = none := by rfl
theorem version_two (s u : State) (_ : u.dict = s.dict) : u.clauseFault ring 1 [0x20010000, 0] 1 = some (1, 0) := by rfl

/-- Tail at the program counter, inside the next clause, and past it; a clause at its last step, one with nothing to do. -/
theorem meets_ClausesAreFetchedWholeAndRetireOrStop :
    let s (n : W32) := (fed 1).onRing 8 (fun r => { r with tail := n })
    let long := (s 1).onStore (fun m => { m with mem := m.mem.writeN 0x20000 (leBytes 4 0x10030000) })
    (∀ n : Fin 2, (s (BitVec.ofNat 32 n.val)).threadPart ring = some 1 ∧ (s (BitVec.ofNat 32 n.val)).threadRing ring = some 8 ∧
      (s (BitVec.ofNat 32 n.val)).threadGo ring 1 = true ∧ (s (BitVec.ofNat 32 n.val)).partHeld 1 = false ∧
      (s (BitVec.ofNat 32 n.val)).ringOn 8 = true ∧ (s (BitVec.ofNat 32 n.val)).threads[ring].fetchq.length < 4) ∧
    (s 0).nextFetch ring 8 = 0 ∧ hdrWords (at! 0 (long.ringParcels 8 0 1) 0) = 3 ∧ long.rings[(8 : Fin 80)].tail = 1 ∧
    hdrWords (at! 0 ((s 1).ringParcels 8 0 1) 0) = 1 ∧ wordsRead (s 1).store.latent (gaOff ((s 1).ringAddr 8 0)) 8 = [] ∧
    (s 1).anyPoison (gaOff ((s 1).ringAddr 8 0)) 8 = false ∧
    ending.ready ring = some 1 ∧ ending.threadRing ring = some 8 ∧ ending.threads[ring].cl.step = 7 ∧
    (fetched bare).ready ring = some 1 ∧ (fetched bare).threads[ring].cl = ClauseSt.reset ∧
    (fetched bare).rings[(8 : Fin 80)].pc = 0 ∧ conjSlot bare = none ∧ ctlSlot bare 0 = none ∧ ctlSlot bare 1 = none ∧
    streamSlot bare = none ∧ verbSlot bare 0 = none ∧ verbSlot bare 1 = none := by
  decide +kernel

/-- Counter 0 of block 0, owned by partition 1, at 5. -/
def counting : State :=
  (one.onDict (fun d => { d with dact := SMap.set domDflt d.dact K.conjOwner (1 :: List.replicate 511 0xFF) })).onStore
    (fun m => { m with conj := [(0, 5)] })
/-- The reference to it. -/
def first : W64 := 0xF0000000

/-- Reached, and not yet; a memo that is owed, one that has come, and an mfm that waited; a fence with and without work. -/
theorem meets_WaitsHoldUntilTheirConditionComes :
    let w (x : Wait) := counting.onThread ctl (fun h => { h with wait := x })
    counting.isLocal first.toNat = true ∧ counting.ready ctl = some 1 ∧ counting.signalCause 1 first.toNat = none ∧
    counting.conjVal ((gaOff first.toNat - 0xF0000000) / 4) = 5 ∧
    (w (.conj first 5 false 0 0)).threadPart ctl = some 1 ∧ (w (.conj first 5 false 0 0)).threadGo ctl 1 = true ∧
    (w (.memo 1 none)).threadGo ctl 1 = true ∧ (w (.memo 1 none)).threads[ctl].pend[(1 : MReg)] = 0 ∧
    ((w (.memo 1 none)).onThread ctl (fun h => { h with pend := vset h.pend 1 1 })).threads[ctl].pend[(1 : MReg)] ≠ 0 ∧
    (some 0x80310000 : Option W32).bind decodeCtl = some (.mfm 3 1) ∧ (w .fence).threadGo ctl 1 = true ∧
    (w .fence).threadBusy ctl = false ∧
    ((w .fence).onCore 8 (fun c => { c with queue := [.verb (verb .queued 0 false)] })).threadBusy ctl = true := by
  decide +kernel

/-- A counter of the partition, a counter of none, and a verb of the clause that has not reached step 5. -/
theorem meets_SignalsAddToTheirCounterAndSaturate :
    let s := (counting.onThread ctl (fun h => { h with cl := { h.cl with pushed := [7] } })).onCore 8
      (fun c => { c with queue := [.verb (verb .queued 7 false)] })
    counting.ready ctl = some 1 ∧ Safety.sound counting ∧ counting.signalCause 1 first.toNat = none ∧
    counting.isLocal first.toNat = true ∧ counting.verbsOf 1 = [] ∧ counting.conjVal 0 = 5 ∧
    counting.signalCause 1 (first.toNat + 1024) = some 5 ∧ counting.signalCause 1 (first.toNat + 1) = some 5 ∧
    s.ready ctl = some 1 ∧ Safety.memoriesOk s ∧ Safety.mapsOk s ∧ Safety.ledgerOk s ∧
    (s.verbsOf 1).filter (fun w => decide (w.thread = ctl.val) && !w.waits6 && s.threads[ctl].cl.pushed.contains w.ticket) ≠ [] := by
  unfold Safety.sound Safety.ledgerOk Safety.memoriesOk Safety.mapsOk; decide +kernel

/-- `fillSlot` for core 8, as a control core pushes it; with TRY, and with GUARD by p1. -/
def pushSlot (extra : Nat) : BitVec 128 := BitVec.ofNat 128 ((fillSlot false).toNat + 2 ^ 12 * 8 + extra)
/-- An address-stream op of mode 0 for core 8 (Table 8-9). -/
def streamOp : W64 := BitVec.ofNat 64 (8 + 2 ^ 32)

theorem meets_PushesEnterTheQueueOrWaitForRoom :
    let crowd (s : State) := s.onCore 8 (fun c => { c with queue := List.replicate 16 (.verb (verb .queued 0 false)) })
    let w (o : PushOp) := one.onThread ctl (fun h => { h with wait := .push o })
    let away (s : State) := s.setAct (K.coreMask 1) 0x200
    one.ready ctl = some 1 ∧ Safety.sound one ∧ (∀ e ∈ [0, 2 ^ 25 + 2 ^ 26, 2 ^ 29 + 2 ^ 26], one.slotCause ctl 1 (pushSlot e) 0 none = none) ∧
    slotGuard (pushSlot (2 ^ 29 + 2 ^ 26)) = true ∧ one.threads[ctl].pget 1 = false ∧ slotTry (pushSlot (2 ^ 25 + 2 ^ 26)) = true ∧
    one.replay 1 = false ∧ one.stopHolds ctl 1 = false ∧ (crowd one).ready ctl = some 1 ∧
    16 ≤ (crowd one).cores[(8 : CoreId)].queue.length ∧ pushCore ctl (.verb false (pushSlot 0) 0 none) = 8 ∧
    ((one.setSgl (K.stopAfter 1) 3).onPart 1 (fun p => { p with ticket := 3 })).stopHolds ctl 1 = true ∧
    one.streamCause ctl 1 streamOp = none ∧ pushCore ctl (.stream streamOp) = 8 ∧
    (∀ o ∈ [PushOp.stream streamOp, .verb false (pushSlot 0) 0 none], (w o).threadPart ctl = some 1 ∧ (w o).threadGo ctl 1 = true ∧
      Safety.sound (w o) ∧ ((w o).coreMask 1).testBit (pushCore ctl o).val = true ∧ (w o).cores[pushCore ctl o].queue.length < 16 ∧
      ((away (w o)).coreMask 1).testBit (pushCore ctl o).val = false ∧ (away (w o)).threadGo ctl 1 = true) ∧
    slotGuard (pushSlot 0) = false := by
  unfold Safety.sound Safety.ledgerOk Safety.memoriesOk Safety.mapsOk; decide +kernel

/-! Requests and transports. -/

/-- A request over the host mailbox. -/
def hd : Head := { req := { via := .mbox, mac := 0 }, txn := 1 }

/-- Objects: one unknown, one subindex unknown, a constant, a write-only one, a plain one, and the writes that are refused:
read-only, of a wrong length, reserved, out of range, of the other build, in the wrong mood. -/
theorem meets_ReadsAndErrorsAnswerAndChangeNothing :
    (∀ k ∈ [0x99990000, 0x100000FF, K.moodRequest, K.conjSelect, K.digest, K.peekData], reaches full hd (objOf k)) ∧
    idxKnown 0x9999 = false ∧ idxKnown 0x1000 = true ∧ objRow 0x1000 0xFF = none ∧
    (∃ r, objRow (K.shadowRevert / 256) (K.shadowRevert % 256) = some r ∧ r.acc = .wo ∧ r.ty.size = 1) ∧
    (∃ r, objRow (K.conjSelect / 256) (K.conjSelect % 256) = some r ∧ r.acc ≠ .wo) ∧ full.readRefused K.conjSelect = false ∧
    full.readRefused K.peekData = false := by
  unfold reaches; decide +kernel

/-- Objects that a WRITE is refused: read-only, of a wrong length, reserved, out of range, of the other build, in the wrong mood,
while a swap is pending; and two, a scalar and a domain, that it sets. -/
theorem meets_WritesAreCheckedInOrderAndSetTheShadow :
    let row (k : Nat) := objRow (k / 256) (k % 256)
    let swapping := full.onAon (fun a => { a with swapStatus := 1 })
    let sets (k n : Nat) (v : List Byte) : Bool := match row k with
      | some r => r.set && !badLength r k n && decide (full.badValue r k v = 0) && !full.badBuild k (ofLe v) &&
          !full.moodRefuses k && !full.swapRefuses r k
      | none => false
    (∀ k ∈ [K.tickCount, K.partEnable 1, K.t1sEnable, K.moodRequest, K.pokeData, K.conjOwner], reaches full hd (objOf k)) ∧
    Safety.sound full ∧ (row K.tickCount).map (fun r => r.acc) = some .ro ∧
    (row (K.partEnable 1)).map (fun r => badLength r (K.partEnable 1) 2) = some true ∧
    (row (K.partEnable 1)).map (fun r => full.badValue r (K.partEnable 1) [2]) = some 6 ∧
    (row K.moodRequest).map (fun r => full.badValue r K.moodRequest [9]) = some 5 ∧
    full.badBuild K.t1sEnable 1 = true ∧
    (full.onMood (fun m => { m with cur := .fault })).moodRefuses K.pokeData = true ∧
    (row (K.partEnable 1)).map (fun r => swapping.swapRefuses r (K.partEnable 1)) = some true ∧
    sets (K.partEnable 1) 1 [1] = true ∧ sets K.conjOwner 512 (List.replicate 512 0) = true := by
  unfold reaches Safety.sound Safety.ledgerOk Safety.memoriesOk Safety.mapsOk; decide +kernel

/-- CONJ_OWNER as an object of a segmented transfer (512 bytes: two segments of 238 and one of 36). -/
def owner : ObjRef := objOf K.conjOwner
/-- `full` at tick 4,096 with a transfer open on the mailbox that has moved `next` segments. -/
def seg (write : Bool) (next : Nat) : State :=
  (full.onAon (fun a => { a with tick := 4096 })).onLink (fun l => { l with segs := vset l.segs 0 (some
    { owner := hd.req, write := write, obj := owner, total := 512,
      buf := if write then List.replicate (238 * next) 0 else List.replicate 512 0, next := next, torn := false, tick := 0,
      closed := false, ackStatus := 0, ackData := [] }) })

/-- A transfer opened; its first segment, its last, one repeated, one out of order; the timeout met and not met. -/
theorem meets_SegmentedTransfersMoveInOrderAndEnd :
    let x (w : Bool) (n : Nat) := (seg w n).link.segs[tix .mbox]
    let young := (seg true 0).onAon (fun a => { a with tick := 4095 })
    (∀ w : Bool, ∀ n : Fin 3, reaches (seg w n.val) hd owner ∧ (x w n.val).map (fun y => decide (y.owner = hd.req ∧ y.obj = owner ∧
      y.closed = false ∧ y.write = w ∧ y.next = n.val)) = some true) ∧
    idxKnown owner.idx.toNat = true ∧ (objRow owner.idx.toNat owner.sub.toNat).map (fun r => r.set && decide (r.acc = .rw) &&
      !badTotal r K.conjOwner 512 && !full.swapRefuses r K.conjOwner && decide (full.objSize false r 0x3100 1 = 512) &&
      decide ((seg true 2).writeStatus r K.conjOwner (List.replicate 512 0) = 0)) = some true ∧
    full.readRefused K.conjOwner = false ∧ full.moodRefuses K.conjOwner = false ∧
    (x true 0).map (fun y => decide (238 = min 238 (y.total - 238 * y.next) ∧ y.buf.length + 238 < y.total)) = some true ∧
    (x true 2).map (fun y => decide (36 = min 238 (y.total - 238 * y.next) ∧ y.total ≤ y.buf.length + 36)) = some true ∧
    reaches full hd owner ∧ full.link.segs[tix .mbox] = none ∧ Safety.sound (seg true 0) ∧
    (x true 0).map (fun y => decide (y.tick + 4096 ≤ (seg true 0).tick)) = some true ∧
    (young.link.segs[tix .mbox]).map (fun y => decide (young.tick < y.tick + 4096)) = some true := by
  unfold reaches Safety.sound Safety.ledgerOk Safety.memoriesOk Safety.mapsOk; decide +kernel

/-- A frame for this device, one that fails its FCS, one for another EtherType; a free mailbox, a busy one; full buffers. -/
def frame (ok : Bool) : Frame := { dst := broadcast, src := 5, etherType := 0x88B5, fcsOk := ok }
/-- The 10BASE-T1S and I3C transports open. -/
def opened : State := ((full.setSgl K.t1sEnable 1).setSgl K.i3cEnable 1).onLink (fun l => { l with i3c := { l.i3c with dyn := 9 } })
/-- `n` PDUs wait in the buffer of a transport. -/
def waiting (v : Transport) (n : Nat) : State :=
  opened.onLink (fun l => { l with rx := List.replicate n { req := { via := v, mac := 0 }, bytes := [], tick := none },
                                   mbox := { l.mbox with busy := decide (v = .mbox) } })

theorem meets_PdusEnterTheirReceiveBufferOrAreTurnedAway :
    (∀ t ∈ [Transport.mbox, .i3c, .t1s], opened.canReach t = true ∧ (opened.link.rx.filter (fun q => decide (q.req.via = t))).length = 0) ∧
    Safety.sound opened ∧ (frame true).etherType.toNat = opened.sgl K.t1sEthertype ∧ (frame true).dst = broadcast ∧
    at! 0 [(0 : Byte), 4] 1 = 4 ∧ (frame false).fcsOk = false ∧
    (0x1234 : BitVec 16).toNat ≠ opened.sgl K.t1sEthertype ∧ opened.link.mbox.busy = false ∧
    (waiting .mbox 1).canReach .mbox = true ∧ (waiting .mbox 1).link.mbox.busy = true ∧
    (waiting .i3c 4).canReach .i3c = true ∧ ¬ ((waiting .i3c 4).link.rx.filter (fun q => decide (q.req.via = .i3c))).length < 4 ∧
    (waiting .t1s 8).canReach .t1s = true ∧ ¬ ((waiting .t1s 8).link.rx.filter (fun q => decide (q.req.via = .t1s))).length < 8 := by
  unfold Safety.sound Safety.ledgerOk Safety.memoriesOk Safety.mapsOk; decide +kernel

/-- A notification that waits. -/
def note : Notify := { seq := 1, dropped := false, tick := 0, idx := 0x1000, sub := 1, value := 0, offered := false }

theorem meets_ResponsesAndNotificationsAreHandedOver :
    let mb (m : Mbox → Mbox) := full.onLink (fun l => { l with mbox := m l.mbox, notifyQ := [note] })
    let t1s := (opened.setSgl K.notifyTransport 3).onLink (fun l => { l with notifyQ := [note], t1sTx := [[1]] })
    Safety.sound full ∧ Safety.sound t1s ∧ full.hostUp = true ∧ full.link.mbox.waiting = [] ∧ full.link.notifyQ = [] ∧
    (∀ v : Bool, (mb (fun m => { m with waiting := [[1]], vector := if v then some 3 else none })).link.mbox.waiting = [[1]]) ∧
    ((mb (fun m => m)).setSgl K.notifyTransport 1).sgl K.notifyTransport = 1 ∧ (mb (fun m => m)).link.mbox.restore = false ∧
    (mb (fun m => m)).link.notifyQ = [note] ∧ (mb (fun m => m)).link.mbox.ntfReady = false ∧
    (mb (fun m => { m with ntfReady := true })).link.mbox.ntfReady = true ∧
    (t1s.linkOpen .t1s = true ∧ t1s.sgl K.notifyTransport = 3 ∧ t1s.link.notifyQ = [note] ∧ t1s.link.t1sTx = [[1]]) ∧
    reaches full hd (objOf K.notifyTransport) ∧ full.sled = false ∧
    ((mb (fun m => { m with restore := true, rspReady := true })).hostUp = true) := by
  unfold reaches Safety.sound Safety.ledgerOk Safety.memoriesOk Safety.mapsOk; decide +kernel

theorem meets_TheI3cTargetFollowsItsCommands :
    let t (f : I3c → I3c) := opened.onLink (fun l => { l with i3c := f l.i3c })
    opened.linkOpen .i3c = true ∧ opened.link.i3c.dyn ≠ 0 ∧ opened.link.i3c.cut = none ∧ opened.link.i3c.rsp = [] ∧
    opened.sgl K.notifyTransport ≠ 2 ∧ (t (fun k => { k with rsp := [[1, 2]] })).link.i3c.rsp = [[1, 2]] ∧
    (t (fun k => { k with cut := some [1, 2] })).link.i3c.cut = some [1, 2] ∧ (t (fun k => { k with dyn := 0 })).linkOpen .i3c = true ∧
    ((t (fun k => { k with dyn := 0 })).sgl K.i3cStaticAddr) < 128 ∧ opened.link.i3c.rstact ≠ some false ∧
    (t (fun k => { k with rstact := some false })).linkOpen .i3c = true := by
  decide +kernel

/-! Flushes, counters and partitions. -/

/-- The thread of control core 2, and cores 8 of the directed partition, with a queued, a running and a preempted verb. -/
def working : State :=
  onEight 100000 (fun c => { c with queue := [.verb (verb .queued 2 false)], active := some (verb .running 1 false) })

theorem meets_FlushesWithdrawAbandonAndComplete :
    let six (s : State) := s.onPart 1 (fun p => { p with state := 6 })
    let fault (s : State) := s.onMood (fun m => { m with cur := .fault })
    let asked (s : State) := s.onThread ctl (fun h => { h with flush := 3 })
    let core (s : State) := s.onCore 8 (fun c => { c with flush := 2, flushFor := [2] })
    (∀ t ∈ [ctl, ring], working.threadPart t = some 1 ∧ reaches working hd (objOf (flushKey t)) ∧
      reaches (six working) hd (objOf (flushKey t)) ∧ reaches (fault working) hd (objOf (flushKey t))) ∧
    working.parts[(1 : PartId)].state ≠ 6 ∧ working.inFault = false ∧ (fault working).inFault = true ∧ working.auto 1 = false ∧
    (asked one).threads[ctl].flush ≠ 0 ∧ (∀ d : CoreId, (asked one).cores[d].verbs = []) ∧
    (asked (fed 1)).threadRing ctl = some 65 ∧ (asked one).parts[(1 : PartId)].state ≠ 6 ∧
    (∃ w ∈ (asked working).cores[(8 : CoreId)].verbs, w.thread = ctl.val) ∧
    (core one).cores[(8 : CoreId)].flush ≠ 0 ∧ (core one).cores[(8 : CoreId)].active = none ∧
    (core one).cores[(8 : CoreId)].verbs = [] ∧ (core working).cores[(8 : CoreId)].active ≠ none ∧ (core one).corePart 8 = some 1 := by
  unfold reaches; decide +kernel

theorem meets_CountersAreSetReadAndSignalled :
    Safety.sound counting ∧ counting.sgl K.conjSelect = 0 ∧ reaches counting hd (objOf K.conjValue) ∧ counting.hostUp = true ∧
    counting.mood ≠ .quiesce ∧ counting.link.bar2 = [] ∧ counting.inFault = false ∧ counting.conjOwnerOf 0 = some 1 := by
  unfold reaches Safety.sound Safety.ledgerOk Safety.memoriesOk Safety.mapsOk; decide +kernel

/-- Partition 1 of `s` with its state at `n`. -/
def inState (n : Nat) (s : State) : State := s.onPart 1 (fun p => { p with state := n })
/-- Control core 2's verb with ticket 1 raises a fault of kind 1. -/
def info : FaultInfo := { kind := 1, cause := 3, unit := 2, control := true, ticket := 0, addr := 0x10 }

theorem meets_PartitionsAreResetAndHaltOnFaults :
    let h := one.onPart 1 (fun p => { p with halting := true })
    Safety.sound one ∧ reaches one hd (objOf (K.partReset 1)) ∧ one.enabled 1 = true ∧ reaches one hd (objOf (K.partReset 2)) ∧
    one.enabled 2 = false ∧ (inState 6 one).parts[(1 : PartId)].state = 6 ∧ (inState 6 one).tapOwes 1 = false ∧
    (inState 6 one).inFault = false ∧ one.parts[(1 : PartId)].state ≠ 6 ∧ info.kind ≠ 0 ∧ info.unit.val < 16 ∧
    h.parts[(1 : PartId)].halting = true ∧ (∀ c : CoreId, h.cores[c].active = none) ∧
    (∀ t, t ∈ h.threadsOf 1 → h.threads[t].unsettled = false) ∧ Safety.sound (inState 6 one) := by
  unfold reaches Safety.sound Safety.ledgerOk Safety.memoriesOk Safety.mapsOk; decide +kernel

theorem meets_PartitionsStopStaleAndAreReleased :
    let held := one.onThread ctl (fun h => { h with holding := true })
    let stale := one.onPart 1 (fun p => { p with quiet := 256 })
    Safety.sound one ∧ reaches one hd (objOf (K.partRelease 1)) ∧ reaches one hd (objOf (K.stopAfter 1)) ∧
    (∀ n : Fin 7, Safety.sound (inState n.val one) ∧ reaches (inState n.val one) hd (objOf (K.partRelease 1)) ∧
      (inState n.val one).parts[(1 : PartId)].state = n.val) ∧
    one.enabled 1 = true ∧ one.parts[(1 : PartId)].halting = false ∧ held.threadsOf 1 = [ctl] ∧ held.threads[ctl].holding = true ∧
    held.verbsOf 1 = [] ∧ one.threads[ctl].holding = false ∧ stale.enabled 1 = true ∧ 256 ≤ stale.parts[(1 : PartId)].quiet ∧
    Safety.sound stale ∧ one.parts[(1 : PartId)].quiet < 256 := by
  unfold reaches Safety.sound Safety.ledgerOk Safety.memoriesOk Safety.mapsOk; decide +kernel

/-! The central store and the host. -/

/-- A doorbell that waits; tails and counts at the ends of their ranges, just outside them, and rings that are not in use. -/
theorem meets_DoorbellsAreAcceptedRejectedOrDiscarded :
    let s := (reporting 8 ((fed 1).setAct (K.programMode 1) 1)).onPart 1 (fun p => { p with produced := 8, consumed := 3 })
    let wait := s.onMood (fun m => { m with cur := .quiesce })
    let g := s.rings[(65 : Fin 80)]
    let ok (v : W32) : Bool := decide ((v - g.retire).toNat ≤ 64 ∧ (g.tail - g.retire).toNat ≤ (v - g.retire).toNat)
    let cok (v : W32) : Bool := decide ((8 - v : W32).toNat ≤ (8 - 3 : W32).toNat)
    s.hostUp = true ∧ Safety.sound s ∧ wait.hostUp = true ∧ Safety.sound wait ∧
    (∀ r ∈ [(1 : Fin 96), 17, 40], s.bellHeld r 40 = false ∧ wait.bellHeld r 40 = true) ∧ s.enabled 1 = true ∧
    s.parts[(1 : PartId)].state ≠ 6 ∧ s.act (K.feedEnable 1) = 1 ∧ s.act (K.complEnable 1) = 1 ∧ s.corePart 8 = some 1 ∧
    s.auto 1 = true ∧ s.act (K.ringEnable 8) = 1 ∧ s.act (K.feedWords 1) = 64 ∧ g.tail = 40 ∧
    ok 40 = true ∧ ok 64 = true ∧ ok 39 = false ∧ ok 65 = false ∧ cok 3 = true ∧ cok 8 = true ∧ cok 2 = false ∧ cok 9 = false ∧
    s.enabled 2 = false ∧ s.corePart 20 = none ∧ s.doorbellPart 1 = some 1 := by
  unfold Safety.sound Safety.ledgerOk Safety.memoriesOk Safety.mapsOk; decide +kernel

/-- `full` with PEEK and DIGEST ranges of 16 bytes at the start of the near tier, and thread 66 captured. -/
def looking : State :=
  ((((full.setSgl K.peekLength 16).setSgl K.digestLength 16).setSgl K.snapThread 66).setSgl K.snapPrivLength 8)

theorem meets_Bar2RequestsAndCapturesReachTheStore :
    let fault := looking.onMood (fun m => { m with cur := .fault })
    let listen := full.onMood (fun m => { m with cur := .listen })
    looking.hostUp = true ∧ Safety.sound looking ∧ looking.link.bar2 = [] ∧ looking.mood ≠ .quiesce ∧ looking.storeUp = true ∧
    inOneTier 0x5FFFFFF 1 = true ∧ inOneTier 0x400000000 4096 = true ∧ wordsRead looking.store.latent 0 4096 = [] ∧
    tierOf 0x6000000 = .unmapped ∧ readable looking 0x100 8 ∧ 0x100 % 8 = 0 ∧ isData 0x100 = true ∧ 0x104 % 8 ≠ 0 ∧
    tierOf 0xF0000000 = .counters ∧ fault.hostUp = true ∧ fault.inFault = true ∧ fault.link.bar2 = [] ∧
    (HeldBar2.read 0x800000 8).high = true ∧ listen.storeUp = false ∧ listen.hostUp = true ∧
    (∀ k ∈ [K.peekData, K.pokeData, K.digest, K.eventLog], reaches looking hd (objOf k)) ∧
    looking.rangeLive 0 16 = true ∧ looking.sgl K.peekAddress = 0 ∧ looking.sgl K.digestAddress = 0 ∧ looking.live 0 = true ∧
    reaches listen hd (objOf K.peekData) ∧ listen.rangeLive 0x800000 8 = false ∧ inOneTier 0 16 = true ∧ readable looking 0 16 ∧
    ((one.setSgl K.snapThread 66).onThread ctl (fun h => { h with run := 5 })).snapReady = true ∧ 64 ≤ looking.sgl K.snapThread := by
  unfold reaches readable Safety.sound Safety.ledgerOk Safety.memoriesOk Safety.mapsOk; decide +kernel

/-- `full` with its mood machine changed. -/
def mooded (f : MoodSt → MoodSt) : State := full.onMood f

/-- Scrub lines at both ends of the tiers; a dead line, and one that the scrubber comes back to; a channel accessed 64 and 63
ticks ago; a local tile, and one of another device with and without two others open. -/
theorem meets_BackgroundWorkIsCountedAndTilesCommitWhole :
    let at' (n d : Nat) := full.onStore (fun m => { m with scrubNear := n, scrubDeep := d })
    let dead := (mooded (fun m => { m with cur := .listen })).onStore (fun m => { m with scrubNear := 0x800000 })
    let idle (n : Nat) := (mooded (fun m => { m with cur := .listen })).onAon (fun a => { a with tick := n })
    let b : OutByte := { addr := 0x1000, val := 1, mask := 0xFF, row := 0 }
    let far : OutByte := { addr := 0x10000000001000, val := 1, mask := 0xFF, row := 0 }
    let t (x : OutByte) (r : Nat) : OutTile := { ticket := 1, part := 1, tile := 0, bytes := [x], remote := r, begun := false }
    let k (l : List OutTile) := one.onCore 8 (fun c => { c with wbuf := l })
    Safety.sound full ∧ (∀ n ∈ [0, 0x5FFFF80], (at' n 0).live n = true ∧ tierOf n = .near ∧ n % 128 = 0) ∧
    (∀ d ∈ [0, 0x3FFFFFF80], (at' 0 d).live (0x400000000 + d) = true ∧ tierOf (0x400000000 + d) = .deep) ∧
    full.store.single = [] ∧ full.store.latent = [] ∧ full.store.scrubHeld = none ∧ dead.live 0x800000 = false ∧ dead.live 0 = true ∧
    (full.onStore (fun m => { m with scrubHeld := some 0x800000 })).live 0x800000 = true ∧ State.reset.lvl < 4 ∧
    full.unitLive (.nearBank 0) = true ∧ full.store.overdue = [] ∧ State.reset.unitLive (.nearBank 0) = false ∧
    (idle 64).mood = .listen ∧ (idle 64).store.chanUse[(0 : Fin 16)] + 64 ≤ (idle 64).tick ∧ (idle 64).aon.mood.entryTick = 0 ∧
    Safety.sound (k [t b 0]) ∧ (k [t b 0]).runs = true ∧ (k [t b 0]).coreUp 8 = true ∧ (k [t b 0]).tileLocal (t b 0) = true ∧
    (k [t b 0]).live 0x1000 = true ∧ (0x1000 : W64).toNat = (k []).ga (gaOff 0x1000) ∧
    readable (k [t b 0]) 0x1000 1 ∧ (k []).tileLocal (t far 0) = false ∧ (k [t far 0]).cores[(8 : CoreId)].openTiles < 2 ∧
    2 ≤ (k [t far 0, t far 1, t far 2]).cores[(8 : CoreId)].openTiles ∧ (k []).fab.outstanding = [] := by
  unfold readable Safety.sound Safety.ledgerOk Safety.memoriesOk Safety.mapsOk; decide +kernel

/-! Energy, the planner and the swap. -/

/-- `one` with 10 nJ in the pool and 5 nJ in the sub-ledger of partition 1. -/
def funded : State :=
  one.onLedger (fun l => { l with deposits := 15, pool := 10, subs := vset l.subs 1 { balance := 5, reserved := 0, spent := 0 } })

/-- Grants that the pool and the sub-ledger hold exactly, and one more; a fresh feed, and one 2,097,153 ticks old. -/
theorem meets_DepositsGrantsAndTheBatteryFeedAreKept :
    let fed' (n : Nat) := (((((one.setSgl K.batterySoc 1).setSgl K.packVoltage 1).setSgl K.packResistance 1).setSgl
      K.packMaxCurrent 1).onAon (fun a => { a with stale := false, tick := n }))
    let fault := funded.onMood (fun m => { m with cur := .fault })
    Safety.sound funded ∧ funded.ledger.pool = 10 ∧ funded.ledger.subs[(1 : PartId)].balance = 5 ∧
    (∀ k ∈ [K.deposit, K.grant 1, K.batterySoc, K.packVoltage, K.packResistance, K.packMaxCurrent], reaches funded hd (objOf k)) ∧
    reaches fault hd (objOf K.deposit) ∧ fault.inFault = true ∧ funded.inFault = false ∧
    (10 : W64).toInt ≤ funded.ledger.pool ∧ ¬ (11 : W64).toInt ≤ funded.ledger.pool ∧ (-5 : W64).toInt.natAbs = 5 ∧
    (2 ^ 40 : W64).toInt.natAbs ≤ 2 ^ 40 ∧ 2 ^ 40 < (2 ^ 40 + 1 : W64).toInt.natAbs ∧
    (fed' 2097152).aon.stale = false ∧ Safety.sound (fed' 2097152) ∧ ¬ (fed' 2097152).sgl K.batteryTick + 2097152 < (fed' 2097152).tick ∧
    (fed' 2097153).sgl K.batteryTick + 2097152 < (fed' 2097153).tick ∧ (∀ k ∈ [K.batterySoc, K.packVoltage], (fed' 1).sgl k ≠ 0) ∧
    State.reset.aon.stale = true := by
  unfold reaches Safety.sound Safety.ledgerOk Safety.memoriesOk Safety.mapsOk; decide +kernel

/-- A planner tick in Full, in Fault and in Hush, and a tick that is none. -/
theorem meets_PlannerTicksChargeAndChoosePoints :
    let at' (c : Mood) (n : Nat) := (mooded (fun m => { m with cur := c })).onAon (fun a => { a with lock := 0, tick := n })
    (∀ c ∈ [Mood.full, .fault, .hush], Safety.sound (at' c 1024) ∧ (at' c 1024).mood ≠ .off ∧ (at' c 1024).aon.lock ≠ 1 ∧
      (at' c 1024).tick % 1024 = 0 ∧ (at' c 1024).sgl K.plannerLastTick ≠ (at' c 1024).tick) ∧
    (at' .fault 1024).inFault = true ∧ (at' .full 1024).inFault = false ∧ ¬ (at' .full 1023).tick % 1024 = 0 := by
  unfold Safety.sound Safety.ledgerOk Safety.memoriesOk Safety.mapsOk; decide +kernel

/-- A valid shadow set, and one in which two objects fail; a swap pending, one at its deadline and one ready; partitions that
start, stop and are redone. -/
theorem meets_SwapsAreRequestedAndTakeEffectWhole :
    let bad := (full.setShd (K.partEnable 1) 1).setShd (K.coreMask 1) 1
    let pend (s : State) (n : Nat) := s.onAon (fun a => { a with swapStatus := 1, swapAsked := 0, tick := n })
    let ready (s : State) := pend (s.onMood (fun m => { m with cur := .hush })) 1
    let fault := full.onMood (fun m => { m with cur := .fault })
    Safety.sound full ∧ reaches full hd (objOf K.swapRequest) ∧ reaches full hd (objOf K.shadowRevert) ∧ full.aon.swapStatus = 0 ∧
    full.swapFaultKey = none ∧ full.inFault = false ∧ reaches bad hd (objOf K.swapRequest) ∧ bad.swapFaultKey.isSome = true ∧
    reaches (pend full 0) hd (objOf K.swapRequest) ∧ reaches fault hd (objOf K.swapRequest) ∧ fault.inFault = true ∧
    (pend full (full.sgl K.swapDeadline)).aon.swapAsked + full.sgl K.swapDeadline ≤ (pend full (full.sgl K.swapDeadline)).tick ∧
    Safety.sound (ready one) ∧ (ready one).swapReady = true ∧ (ready one).aon.swapAsked < (ready one).tick ∧
    (ready one).enabled 1 = true ∧ (ready one).shd (K.partEnable 1) ≠ 1 ∧
    ((ready one).setShd (K.partEnable 1) 1).shd (K.controlCore 1) ≠ one.act (K.controlCore 1) ∧ (pend full 0).swapReady = true := by
  unfold reaches Safety.sound Safety.ledgerOk Safety.memoriesOk Safety.mapsOk; decide +kernel

/-! Moods, resets and supplies. -/

/-- Requests inside the floor and ceiling and outside; WAKE_N in Hush and in Full; a held request; a linger that is over. -/
theorem meets_MoodsChangeOnRequestWakeLingerAndDemand :
    let held (c : Mood) := mooded (fun m => { m with cur := c, heldReq := some .full })
    let idle := mooded (fun m => { m with lingerCnt := 100000000 })
    let lis := mooded (fun m => { m with cur := .listen })
    let low (s : State) := s.setAct K.moodCeiling 4
    Safety.sound full ∧ reaches full hd (objOf K.moodRequest) ∧ full.act K.moodFloor ≤ 6 ∧ 6 ≤ full.act K.moodCeiling ∧
    full.moodBusy = false ∧ full.mood.code = 6 ∧ full.aon.thermal.tripActive = false ∧ (low full).moodBusy = false ∧
    ¬ (6 ≤ (low full).act K.moodCeiling) ∧
    (mooded (fun m => { m with cur := .hush })).act K.wakeTarget > (mooded (fun m => { m with cur := .hush })).mood.code ∧
    (mooded (fun m => { m with cur := .hush })).inTransition = false ∧ full.aon.mood.rstAsserted = false ∧ full.justStarted = false ∧
    full.aon.mood.heldReq = none ∧ (held .full).moodBusy = false ∧ (held .full).act K.moodFloor ≤ 6 ∧
    ¬ ((low (held .full)).mood.code ≤ (low (held .full)).act K.moodCeiling) ∧
    ((low (held .full)).onMood (fun m => { m with heldReq := some .listen })).moodOk 4 = true ∧
    lingerStep full.mood = some .listen ∧ idle.act K.linger ≤ idle.aon.mood.lingerCnt ∧ idle.idleNow = true ∧
    idle.act K.moodFloor ≤ Mood.listen.code ∧ lingerStep .hush = none ∧ lis.mood = .listen ∧ 5 ≤ lis.act K.moodCeiling := by
  unfold reaches Safety.sound Safety.ledgerOk Safety.memoriesOk Safety.mapsOk; decide +kernel

/-- A wake from Listen to Full at a phase, at its last, tripped, and waiting; Quiesce at each step, drained and not. -/
theorem meets_WakesAndQuiesceGoStepByStep :
    let t (l : List Nat) (trip wait : Bool) : Trans := { start := .listen, dest := .full, left := l, tripped := trip, waiting := wait }
    let w (x : Trans) := mooded (fun m => { m with cur := .listen, trans := some x, phase := 4 })
    let q (n : Nat) := mooded (fun m => { m with cur := .quiesce, target := .dormant, phase := n })
    let busy (n : Nat) := (q n).onTap 0 (fun h => { h with bus := some (Burst.mk 0 0 0 0 true) })
    Safety.sound (w (t [4, 5] false false)) ∧ (w (t [4, 5] false false)).phaseReady (t [4, 5] false false) = true ∧
    (t [4, 5] false false).left.drop 1 = [5] ∧ (t [4] false false).left.drop 1 = [] ∧ (w (t [4] true false)).phaseReady (t [4] true false) = true ∧
    (t [4] false true).waiting = true ∧ full.aon.mood.trans = none ∧
    ((one.onMood (fun m => { m with cur := .quiesce, phase := 17 })).onThread ctl (fun h => { h with cl := { h.cl with active := true } })).inClause ctl = true ∧
    (∀ n ∈ [17, 18, 19, 20, 21], (q n).mood = .quiesce ∧ (q n).aon.mood.phase = n ∧ Safety.memoriesOk (q n)) ∧
    (∀ r : ThreadId, (q 17).inClause r = false) ∧ (∀ h : ChanId, (q 19).tap[h].bus = none) ∧
    (q 19).drained (gatedBy .dormant) = true ∧ (busy 19).tap[(0 : ChanId)].bus ≠ none ∧
    (∃ c, Mood.dormant.powersCore c = false) := by
  unfold Safety.sound Safety.ledgerOk Safety.memoriesOk Safety.mapsOk
  refine ⟨?_, by decide +kernel, by decide +kernel, by decide +kernel, by decide +kernel, by decide +kernel, by decide +kernel,
    by decide +kernel, by decide +kernel, by decide +kernel, by decide +kernel, by decide +kernel, by decide +kernel, 8, by decide +kernel⟩
  decide +kernel

/-- Brace at its 64th and 65th clean tick, without a transition, in one, and in one whose next phase or last has waited; Brace at
its limit and before it. -/
theorem meets_SupplyWarningsBraceAndRelease :
    let on (s : State) := s.onAon (fun a => { a with mons := vmod a.mons 1 (fun m => { m with active := true, state := 1 }) })
    let br (n : Nat) (x : Option Trans) := mooded (fun m => { m with cur := .brace, ret := .full, exitCnt := n, trans := x })
    let t (l : List Nat) (wait : Bool) : Trans := { start := .listen, dest := .full, left := l, tripped := false, waiting := wait }
    Safety.sound (on full) ∧ (on full).aon.mons[(1 : MonId)].active = true ∧ full.aon.mons[(1 : MonId)].active = false ∧
    (on full).mood = .full ∧ Safety.sound (br 65 none) ∧ 65 ≤ (br 65 none).aon.mood.exitCnt ∧ (br 64 none).aon.mood.exitCnt < 65 ∧
    (br 65 (some (t [4, 5] true))).aon.mood.trans = some (t [4, 5] true) ∧
    ((br 0 none).onAon (fun a => { a with tick := 4096 })).aon.mood.entryTick + 4096 ≤ 4096 ∧ (br 0 none).tick < 4096 ∧
    ((on full).onMood (fun m => { m with cur := .dormant })).waking = false := by
  unfold Safety.sound Safety.ledgerOk Safety.memoriesOk Safety.mapsOk; decide +kernel

/-- Rails on and good, on and not good in time, off; a reset that RST_N holds in Hush. -/
theorem meets_ResetsEmptyTheCoreDomain :
    let s := full.onAon (fun a => { a with mons := vmod a.mons 1 (fun m => { m with active := true }), railEn := 1, railGood := 1 })
    let late := full.onAon (fun a => { a with railEn := 1, tick := 2 * full.pgBound 0 })
    let held := mooded (fun m => { m with cur := .hush, rstAsserted := true })
    Safety.sound s ∧ s.mood ≠ .off ∧ s.mood ≠ .cold ∧ s.aon.mood.trans = none ∧ s.aon.mons[(1 : MonId)].active = true ∧
    s.aon.mons[(2 : MonId)].active = false ∧ s.aon.railEn.getLsbD (railOf .sram).val = true ∧ s.aon.railGood.getLsbD (railOf .sram).val = true ∧
    s.aon.railEn.getLsbD (railOf .pho).val = false ∧ late.aon.railGood.getLsbD (railOf .sram).val = false ∧ Safety.sound late ∧
    late.aon.railTick[railOf .sram] + 2 * late.pgBound (railOf .sram) ≤ late.tick ∧ held.inTransition = false ∧
    reaches full hd (objOf K.resetCommand) := by
  unfold reaches Safety.sound Safety.ledgerOk Safety.memoriesOk Safety.mapsOk; decide +kernel

theorem meets_PowerClocksTripsAndFaultFollowTheirSignals :
    let off := mooded (fun m => { m with cur := .off })
    let lock (n : Nat) (r : Bool) := full.onAon (fun a => { a with lock := n, relocking := r })
    let cool (n : Nat) := full.onAon (fun a => { a with thermal := { a.thermal with cool := n } })
    let idle (n : Nat) := full.onAon (fun a => { a with clocks := { a.clocks with idle := vset a.clocks.idle 3 n } })
    Safety.sound off ∧ off.mood = .off ∧ Safety.sound full ∧ (lock 1 false).aon.lock = 1 ∧ (lock 0 false).aon.lock = 0 ∧
    (lock 2 true).aon.relocking = true ∧ Safety.sound (lock 2 true) ∧ full.aon.mood.trans = none ∧ full.justStarted = false ∧
    1025 ≤ (cool 1025).aon.thermal.cool ∧ (cool 1024).aon.thermal.cool < 1025 ∧ Safety.sound (cool 1025) ∧
    (idle 64).runs = true ∧ (idle 64).clusterUp 3 = true ∧ (idle 64).clusterWork 3 = false ∧ 64 ≤ (idle 64).aon.clocks.idle[(3 : ClusterId)] ∧
    (idle 63).aon.clocks.idle[(3 : ClusterId)] < 64 ∧ working.clusterWork 1 = true ∧ full.mood ≠ .fault := by
  unfold Safety.sound Safety.ledgerOk Safety.memoriesOk Safety.mapsOk; decide +kernel

/-- `full` with one ECHO of two bytes in the mailbox's buffer. -/
theorem meets_TickBoundariesCountAndServe :
    let s := full.onLink (fun l => { l with rx := [RxPdu.mk hd.req (pduBytes 9 1 0 (objOf K.tickCount) [7, 8]) none], mbox := { l.mbox with busy := true } })
    Safety.sound s ∧ s.mood ≠ .off ∧ s.link.rx.length = 1 ∧ s.link.dups = [] ∧ full.link.rx = [] ∧ full.inFault = false ∧
    s.aon.lock = 1 ∧ (s.onAon (fun a => { a with lock := 0 })).aon.lock ≠ 1 := by
  unfold Safety.sound Safety.ledgerOk Safety.memoriesOk Safety.mapsOk; decide +kernel

/-! The Accumulator Tap, light and the mesh. -/

/-- `one` with channel 2 enabled for core 8 and up. -/
def tapped (f : TapCh → TapCh) : State :=
  (((one.setAct (K.tapEnable 2) 1).setAct (K.tapCoreMask 2) 0x100).setAct (K.tapBanks 2) 16).onTap 2
    (fun t => f { t with linkM := true, linkV := true })
/-- A verb whose SRC_A is tap channel 2 (Table 8-6). -/
def tapVerb : Verb := { verb .running 0 false with slot := BitVec.ofNat 128 (0x700 + 2 ^ 54 + 2 ^ 56 * 2 + 2 ^ 78 * 3) }

/-- An offer of each cause at its edge, one that no tile awaits, one that can be granted; a burst in time, one 16 ticks old; a
channel that trains, that falls; a verb that awaits its tile for too long. -/
theorem meets_TapLinksTrainAndBurstsPassTheToken :
    let offer (bank : Nat) := Offer.mk bank (one.act (K.tapFormat 2)) 8
    let burst (w : Bool) := Burst.mk 3 8 0 0 w
    let waits (t : State) := t.onCore 8 (fun c => { c with active := some tapVerb })
    let late (n : Nat) := (waits (tapped (fun t => t))).onAon (fun a => { a with tick := n })
    Safety.sound (tapped (fun t => t)) ∧ (tapped (fun t => t)).tap[(2 : ChanId)].offer = none ∧
    (tapped (fun t => t)).act (K.tapBanks 2) = 16 ∧ bit ((tapped (fun t => t)).act (K.tapCoreMask 2)) 8 = true ∧
    bit ((tapped (fun t => t)).act (K.tapCoreMask 2)) 9 = false ∧
    bit (tapped (fun t => { t with heldBanks := 8 })).tap[(2 : ChanId)].heldBanks.toNat 3 = true ∧
    (tapped (fun t => { t with offer := some (offer 0) })).tapGrantOk 2 (offer 0) = false ∧
    (waits (tapped (fun t => { t with offer := some (offer 0) }))).tapGrantOk 2 (offer 0) = true ∧
    (waits (tapped (fun t => { t with offer := some (offer 16) }))).tapGrantOk 2 (offer 16) = true ∧
    (∀ w : Bool, (tapped (fun t => { t with bus := some (burst w) })).tap[(2 : ChanId)].bus = some (burst w)) ∧
    ((tapped (fun t => t)).onAon (fun a => { a with tick := 16 })).tick = (burst true).tick + 16 ∧ 0 < one.act K.tapRetryLimit ∧
    (tapped (fun t => { t with linkV := false })).tapPowered = true ∧ (tapped (fun t => t)).act (K.tapEnable 2) = 1 ∧
    tapVerb.isTap = true ∧ slotOpnd tapVerb.slot 1 % 4 = 2 ∧ (late 0).runs = true ∧ tapVerb.done < tapVerb.tiles ∧
    (late 0).tap[(2 : ChanId)].begun 8 = 0 ∧ tapVerb.awaited + one.act K.tapWaitLimit ≤ (late (one.act K.tapWaitLimit)).tick ∧
    ¬ tapVerb.awaited + one.act K.tapWaitLimit ≤ (late 0).tick := by
  unfold Safety.sound Safety.ledgerOk Safety.memoriesOk Safety.mapsOk; decide +kernel

/-- A request of the laser module: open, due to be sent again, the fourth time, and failed. -/
theorem meets_ModuleRequestsAreAnsweredResentAndRepeated :
    let q (w : Bool) (n : Nat) (f : Bool) : ModReq := { txn := 1, write := w, sub := 3, value := 0, tick := 0, resends := n, failed := f }
    let s (x : ModReq) (n : Nat) := (full.onPho (fun p => { p with req := some x, queue := [(true, 3, 1)] })).onAon (fun a => { a with tick := n })
    Safety.sound (s (q true 0 false) 256) ∧ full.pho.req = none ∧ full.pho.queue = [] ∧
    (∀ w : Bool, (s (q w 0 false) 256).pho.req = some (q w 0 false)) ∧ (s (q true 0 false) 0).pho.queue = (true, 3, 1) :: [] ∧
    (q true 0 false).tick + 256 ≤ (s (q true 0 false) 256).tick ∧ (s (q true 0 false) 255).tick < (q true 0 false).tick + 256 ∧
    3 ≤ (q true 3 false).resends ∧ (q true 3 true).tick + 65536 ≤ (s (q true 3 true) 65536).tick := by
  unfold Safety.sound Safety.ledgerOk Safety.memoriesOk Safety.mapsOk; decide +kernel

/-- `full` with light and port 1 in state `n`, all its rings locked. -/
def lit (n : Nat) : State :=
  (full.onPho (fun p => { p with lit := true, sources := (true, true) })).onPort 1
    (fun p => { p with state := n, rings := Vector.replicate 34 2, slotsTx := Vector.ofFn (fun k : Fin 16 => k.val) })

theorem meets_SearchesLockRingsAndMislocksAreFound :
    let s (f : Port → Port) (n : Nat) := (lit n).onPort 1 f
    let out := s (fun p => { p with rings := vset p.rings (ringIx false 3) 4 }) 5
    let f : RingFind := { line := some 3, code := 5 }
    Safety.sound (lit 1) ∧ (lit 1).lightReady = true ∧ (lit 1).runs = true ∧ (lit 1).ports[(1 : PortId)].searched = (false, false) ∧
    (lit 1).ports[(1 : PortId)].ringsIn false 5 = [] ∧ ((lit 1).ports[(1 : PortId)].ringsIn true 5).length < 2 ∧
    (s (fun p => { p with searched := (true, true) }) 3).ports[(1 : PortId)].calibrated = (false, false) ∧
    (s (fun p => { p with searched := (true, true), calibrated := (true, false) }) 3).ports[(1 : PortId)].spared = true ∧
    (lit 5).ports[(1 : PortId)].rings[ringIx true 3] = 2 ∧ f.line = some 3 ∧ (3 : LineId) ≠ 4 ∧
    out.ports[(1 : PortId)].rings[ringIx false 3] = 4 ∧ out.pho.mislock = none ∧ out.sparedPorts = [1] ∧
    out.ports[(1 : PortId)].slotsTx[(3 : Fin 16)] = 3 ∧ (∀ m : Fin 16, m < 3 → out.ports[(1 : PortId)].slotsTx[m] ≠ 3) := by
  unfold Safety.sound Safety.ledgerOk Safety.memoriesOk Safety.mapsOk; decide +kernel

/-- A rotation that is due, announced 64 ticks ago and 63; a mislock move with and without a relock; the steps of a spare. -/
theorem meets_MovesTakeEverySparedPortTogether :
    let cal := (lit 5).onPort 1 (fun p => { p with calTx := true, calFar := true })
    let at' (s : State) (n : Nat) := s.onAon (fun a => { a with tick := n })
    let told (s : State) (n : Nat) := at' (s.onPho (fun p => { p with announce := some 0 })) n
    let m (r : Bool) : Mislock := { port := 1, ring := 3, tick := 0, moves := true, relock := r, fails := false }
    let mis (r : Bool) := at' ((lit 5).onPho (fun p => { p with mislock := some (m r) })) 64
    Safety.sound cal ∧ (lit 5).pho.spareLine < 17 ∧ cal.sparedPorts = [1] ∧ cal.pho.announce = none ∧ cal.pho.fade ≠ 3 ∧
    cal.pho.moveTick + cal.act K.rotPeriod ≤ (at' cal (cal.act K.rotPeriod)).tick ∧ (at' cal (cal.act K.rotPeriod)).movesHeld = false ∧
    (told cal 64).pho.announce = some 0 ∧ (told cal 64).movesHeld = false ∧ (told cal 64).runs = true ∧ (told cal 63).tick < 0 + 64 ∧
    (∀ r : Bool, (mis r).pho.mislock = some (m r) ∧ (m r).tick + 64 ≤ (mis r).tick ∧ (mis r).movesHeld = false) ∧
    (lit 5).portHeld 1 = false ∧ (lit 5).ports[(1 : PortId)].state = 5 ∧ (lit 5).ports[(1 : PortId)].calTx = false ∧
    (lit 5).ports[(1 : PortId)].spared = true ∧ (lit 4).ports[(1 : PortId)].state = 4 := by
  unfold Safety.sound Safety.ledgerOk Safety.memoriesOk Safety.mapsOk; decide +kernel

/-- Losses at and below the threshold and the floor; a spare that is late, and one that is ready; a walk of the losses. -/
theorem meets_FadesWarmTheSpareAndHandTheLinesOn :
    let com := (lit 5).setSgl K.commissionTick 1
    let fade (n : Nat) (rdy : Bool) := (lit 5).onPho (fun p => { p with fade := n, sources := (true, rdy) })
    let x : ModReq := { txn := 1, write := true, sub := 3, value := 0, tick := 0, resends := 0, failed := false }
    Safety.sound com ∧ com.sgl K.commissionTick ≠ 0 ∧ com.lightReady = true ∧ com.pho.samples = [] ∧ com.pho.fade = 0 ∧
    (com.act K.fadeThreshold : Int) ≤ monAt (com.dsgl K.monAReference) 0 - at! 0 (List.replicate 18 (-1000)) 0 ∧
    ¬ (com.act K.marginFloor : Int) ≤ monAt (com.dsgl K.monAReference) 0 - at! 0 (List.replicate 18 (0 : Int)) 0 ∧
    (fade 2 false).pho.sources.2 = false ∧ (fade 2 true).pho.lit = true ∧ (fade 2 true).handoverHeld = false ∧
    (fade 2 true).anyPort = false ∧ (fade 2 true).mesh.granted = none ∧
    (((fade 2 true).setAct (K.portEnable 1) 1).anyPort = true) ∧ ((fade 2 true).setAct (K.portEnable 1) 1).sparedPorts ≠ [] ∧
    (fade 3 true).pho.switching = none ∧ (fade 3 true).pho.lineSource.getLsbD 16 = false ∧
    ((lit 5).onPho (fun p => { p with req := some x, switching := some 17 })).pho.switching = some 17 ∧
    reaches (lit 5) hd (objOf K.commission) ∧
    (∀ j < 7, at! 0 ((lit 5).lossPath 1 (List.replicate 102 0) (List.replicate 51 0) 0) j -
      (if j = 0 then 0 else at! 0 ((lit 5).lossPath 1 (List.replicate 102 0) (List.replicate 51 0) 0) (j - 1)) < 100) ∧
    100 ≤ at! 0 ((lit 5).lossPath 1 (List.replicate 102 (-100)) (List.replicate 51 (-100)) 0) 1 -
      at! 0 ((lit 5).lossPath 1 (List.replicate 102 (-100)) (List.replicate 51 (-100)) 0) 0 := by
  unfold reaches Safety.sound Safety.ledgerOk Safety.memoriesOk Safety.mapsOk; decide +kernel

/-- The mesh ready, lit and idle, as `f` has it. -/
def meshed (f : Mesh → Mesh) : State :=
  (lit 5).onMesh (fun m => f { m with state := 4, stepTick := Vector.replicate 64 (some 0) })
/-- Input 0 due since tick 0. -/
def due : DueStep := { input := 0, tick := 0, late := false }

/-- Steps that are due and not; a due gain step; a due input step that verifies, one that fails for the third time; bring-up. -/
theorem meets_MeshStepsFallDueAndAreTaken :
    let s := meshed (fun m => { m with due := [due] })
    let at' (n : Nat) := (meshed (fun m => m)).onAon (fun a => { a with tick := n })
    let up := (((lit 5).setAct K.meshEnable 1).setAct (K.slotValid 2) 1).onMesh (fun m => { m with state := 1 })
    Safety.sound s ∧ s.runs = true ∧ s.pho.lit = true ∧ s.mesh.state = 4 ∧ s.mesh.granted = none ∧ s.mesh.settle ≤ s.tick ∧
    s.meshSwapHolds = false ∧ s.meshReady = [] ∧ s.mesh.gainDue = false ∧ s.mesh.due = due :: [] ∧
    (meshed (fun m => { m with due := [due], fails := Vector.replicate 64 2 })).mesh.fails[(0 : Fin 64)] = 2 ∧
    (meshed (fun m => { m with gainDue := true })).mesh.gainDue = true ∧
    (at' (s.act K.meshCalInterval)).mesh.dueTick + s.act K.meshCalInterval ≤ (at' (s.act K.meshCalInterval)).tick ∧
    ¬ (at' 0).mesh.dueTick + s.act K.meshCalInterval ≤ (at' 0).tick ∧ Safety.sound up ∧ up.mesh.state = 1 ∧ up.lightReady = true ∧
    up.act K.meshEnable = 1 ∧ up.runs = true ∧ up.mesh.loaded < 8 ∧ up.act (K.slotValid up.mesh.loaded) ≠ 1 ∧
    up.act (K.slotValid 2) = 1 ∧ (∀ y < 2, up.act (K.slotValid y) ≠ 1) := by
  unfold Safety.sound Safety.ledgerOk Safety.memoriesOk Safety.mapsOk; decide +kernel

/-- Tiles of cores 8 and 9 that name the loaded slot and another; an overdue step that claims its turn. -/
theorem meets_MeshLoadsSlotsAndGrantsTilesInTurn :
    let v (sel : Nat) : Verb := { verb .running 0 false with adv := BitVec.ofNat 32 (256 * sel) }
    let s (sel : Nat) := (meshed (fun m => { m with waiting := [(8, 0)] })).onCore 8 (fun c => { c with active := some (v sel) })
    Safety.sound (s 0) ∧ (s 0).mesh.waiting = (8, 0) :: [] ∧ advSelect (v 0).adv % 8 = (s 0).mesh.loaded ∧
    advSelect (v 5).adv % 8 = 5 ∧ (5 : Fin 8).val ≠ (s 5).mesh.loaded ∧ (s 0).runs = true ∧ (s 0).pho.lit = true ∧
    (s 0).mesh.granted = none ∧ (s 0).mesh.settle ≤ (s 0).tick ∧ (s 0).meshSwapHolds = false ∧ (s 0).act K.meshStalePolicy ≠ 1 ∧
    (meshed (fun m => { m with due := [due] })).mesh.due = [due] ∧ 256 ≤ (meshed (fun m => m)).mesh.grants ∧
    due.tick + 4096 ≤ ((meshed (fun m => { m with due := [due] })).onAon (fun a => { a with tick := 4096 })).tick := by
  unfold Safety.sound Safety.ledgerOk Safety.memoriesOk Safety.mapsOk; decide +kernel

/-! The fabric. -/

/-- Device 0 of two in a sled, in Full, with partition 1 as in `one` and counter 0 shared with partition 3 of device 1. -/
def sled : State :=
  let s := (State.powerOn 0 true).onMood (fun m => { m with cur := .full, target := .full, before := .full, configured := true })
  let t := ((((((s.setAct K.fabricSizeX 2).setAct K.fabricSizeY 1).setAct K.fabricSizeZ 1).setAct (K.partEnable 1) 1).setAct
    (K.coreMask 1) 0x300).setAct (K.controlCore 1) 2).onPart 1 (fun p => { p with state := 1 })
  let own := SMap.set domDflt t.dict.dact K.conjOwner (1 :: List.replicate 511 0xFF)
  t.onDict (fun d => { d with dact := SMap.set domDflt own K.conjShare (leBytes 4 0x13001 ++ List.replicate 2044 0) })
/-- A message of type `t` of partition `p` of device 1, with tag 9. -/
def msg (t : Nat) (p : PartId) (len addr aux : Nat) (data : List Byte) (last : Bool) : Msg :=
  { type := BitVec.ofNat 8 t, len := BitVec.ofNat 8 len, srcDev := 1, srcPart := p, dest := 0, tag := 9, addr := BitVec.ofNat 64 addr,
    aux := BitVec.ofNat 192 aux, data := data, tileLast := last }
/-- Port 0 of `sled` as `f` has it. -/
def linked (f : Port → Port) : State := (sled.onPort 0 (fun p => f { p with sess := { p.sess with kept := true } })).onPho (fun p => { p with lit := true })

/-- The right far end, a wrong device, a wrong port, a wrong size; timeouts met and not met. -/
theorem meets_LinksTrainRetrainAndFail :
    let m (d : Nat) (q : PortId) (x : Nat) (k : Bool) :=
      TrainMsg.mk (BitVec.ofNat 12 d) q (BitVec.ofNat 8 x) 1 1 (BitVec.ofNat 8 (sled.act K.expressDim)) (List.replicate 16 0) k
    let s := linked (fun p => { p with state := 4 })
    let at' (n : Nat) (x : State) := x.onAon (fun a => { a with tick := n })
    Safety.sound s ∧ s.ports[(0 : PortId)].state = 4 ∧ s.runs = true ∧ (∀ d < 3, 1 ≤ s.fabSize d ∧ s.fabSize d ≤ 16) ∧
    (m 1 1 2 true).device.toNat = s.farOf 0 ∧ (m 0 1 2 true).device.toNat ≠ s.farOf 0 ∧ (m 1 1 2 true).port.val = 1 ∧
    (m 1 1 2 true).sizeX.toNat = s.act K.fabricSizeX ∧ (m 1 1 3 true).sizeX.toNat ≠ s.act K.fabricSizeX ∧
    (m 1 1 2 true).express.toNat = s.act K.expressDim ∧ s.ports[(0 : PortId)].sess.kept = true ∧ quiet s ∧
    (at' 4096 s).ports[(0 : PortId)].since + 4096 ≤ (at' 4096 s).tick ∧ ¬ s.ports[(0 : PortId)].since + 4096 ≤ (at' 4095 s).tick ∧
    (linked (fun p => { p with state := 4, retraining := true })).ports[(0 : PortId)].retraining = true ∧
    16 ≤ (linked (fun p => { p with state := 5, sess := { p.sess with naks := 16 } })).ports[(0 : PortId)].sess.naks := by
  unfold quiet Safety.sound Safety.ledgerOk Safety.memoriesOk Safety.mapsOk; decide +kernel

/-- A flit with the header given, byte 8 at `t`, and its CHECK, or a wrong one. -/
def flit (header t : Nat) (ok : Bool) : List Byte :=
  let b := leBytes 8 header ++ leBytes 8 t ++ List.replicate 232 0
  b ++ leBytes 8 ((crc64 b).toNat + if ok then 0 else 1)

/-- SEQ expected, beyond and before; a null flit, a management flit, one of no known message, one with a bad CHECK. -/
theorem meets_FlitsAreAcceptedOnceInOrder :
    let s := linked (fun p => { p with state := 5 })
    let good (b : List Byte) : Bool := decide (b.length = 256) && decide ((crc64 (b.take 248)).toNat = ofLe (b.drop 248))
    Safety.sound s ∧ quiet s ∧ s.ports[(0 : PortId)].state = 5 ∧ s.runs = true ∧ s.ports[(0 : PortId)].sess.rxSeq = 0 ∧
    good (flit (7 * 2 ^ 32) 0 true) = true ∧ good (flit 0 0 false) = false ∧ good (flit (4 * 2 ^ 32) 0 true) = true ∧
    good (flit 1 0x88 true) = true ∧ (1 - 0 : BitVec 16).toNat < 2 ^ 15 ∧ 2 ^ 15 ≤ (0xFFFF - 0 : BitVec 16).toNat ∧
    good (flit 0 0x88 true) = true ∧ ((flit 0 0x88 true).getD 8 0).toNat = 0x88 ∧
    ofLe (((flit 0 0x88 true).drop 12).take 2) % 2 ^ 12 = s.ownDev := by
  unfold quiet Safety.sound Safety.ledgerOk Safety.memoriesOk Safety.mapsOk; decide +kernel

/-- A request of each type, of its own reach and beyond it; with and without the right to the counter; in Fault; with no room. -/
theorem meets_RequestsOfOtherDevicesAreServed :
    let fault := sled.onMood (fun m => { m with cur := .fault })
    let full' := sled.onFab (fun f => { f with service := List.replicate 256 (msg 1 3 8 0x100 0 [] false) })
    let poisoned := sled.onStore (fun m => { m with poison := [0x100] })
    (∀ t ∈ [1, 2, 3, 5, 6, 7], comes sled t (msg t 3 8 0x100 0 [] false) ∧ comes fault t (msg t 3 8 0x100 0 [] false)) ∧
    Safety.sound sled ∧ sled.fab.service.length < 256 ∧ sled.inFault = false ∧ fault.inFault = true ∧
    sled.reachCause 0x100 8 = none ∧ sled.reachCause 0x6000000 8 = some 1 ∧ sled.reachCause 0xF0100000 8 = some 2 ∧
    readable sled 0x100 8 ∧ ¬ readable poisoned 0x100 8 ∧ comes poisoned 1 (msg 1 3 8 0x100 0 [] false) ∧
    conjRefOk 0xF0000000 = true ∧ sled.isLocal 0xF0000000 = true ∧ sled.conjRights 0 1 3 = true ∧ sled.conjRights 0 1 4 = false ∧
    full'.fab.service.length = 256 ∧ quiet full' ∧ 0x104 % 8 ≠ 0 ∧ 0x100 % 8 = 0 := by
  unfold comes quiet readable Safety.sound Safety.ledgerOk Safety.memoriesOk Safety.mapsOk; decide +kernel

/-- Buffers free, one taken by tag 9, and all taken; a counter at 0 and values 0 and 1. -/
theorem meets_RemoteTilesCommitWholeAndWaitsAreKept :
    let b : CommitBuf := { dev := 1, part := 3, tag := 9, flits := 1, bytes := [] }
    let s := sled.onFab (fun f => { f with commits := vset f.commits 0 (some b) })
    let all := sled.onFab (fun f => { f with commits := Vector.replicate 16 (some b) })
    Safety.sound sled ∧ Safety.sound s ∧ sled.inFault = false ∧ (∀ t ∈ [3, 4, 7], comes sled t (msg t 3 8 0x100 1 [] false)) ∧
    comes s 4 (msg 4 3 8 0x100 0xFF [1, 2, 3, 4, 5, 6, 7, 8] true) ∧ comes all 3 (msg 3 3 8 0x100 1 [] false) ∧
    (∀ c : Fin 16, sled.fab.commits[c] = none) ∧ s.fab.commits[(0 : Fin 16)] = some b ∧
    (∀ c : Fin 16, all.fab.commits[c].isSome = true) ∧ s.fab.service = [] ∧ s.reachCause 0x100 8 = none ∧
    (∀ j < 8, readable s (0x100 + j) 1) ∧ sled.conjRights 0 1 3 = true ∧ sled.conjVal 0 = 0 ∧ sled.fab.regs = [] := by
  unfold comes quiet readable Safety.sound Safety.ledgerOk Safety.memoriesOk Safety.mapsOk; decide +kernel

/-- A request of control core 2 open, one of core 8's verb, one of a tile; answers to them, a late one, and timeouts. -/
theorem meets_AnswersCloseTheirRequests :
    let r (type : Nat) (th : Nat) := RemReq.mk 9 (BitVec.ofNat 8 type) 1 th 8 1 0 0x10000000000100 67 0
    let s (x : RemReq) := (sled.onFab (fun f => { f with outstanding := [x] })).onThread ctl (fun h => { h with wait := .remote 9 })
    let tile := OutTile.mk 0 1 0 [OutByte.mk 0x10000000000100 1 0xFF 0] 10 true
    let tiled (x : RemReq) := (s x).onCore 8 (fun c => { c with wbuf := [tile], active := some (verb .running 0 false) })
    let conj := sled.onThread ctl (fun h => { h with wait := .conj 0x100000F0000000 1 true 9 0 })
    let at' (n : Nat) (x : State) := x.onAon (fun a => { a with tick := n })
    Safety.sound (s (r 1 66)) ∧ (s (r 1 66)).runs = true ∧
    (∀ t ∈ [0x81, 0x82, 0x83, 0x84, 0x85, 0x8F], comes (s (r 1 66)) t (msg t 3 8 0x100 1 [] false) ∧
      comes (tiled (r 3 80)) t (msg t 3 8 0x100 1 [] false)) ∧
    (s (r 1 66)).fab.outstanding.find? (fun x => decide (x.tag = 9)) = some (r 1 66) ∧ (r 1 66).thread = ctl.val ∧
    (s (r 1 66)).threads[ctl].wait = .remote 9 ∧ (tiled (r 3 80)).cores[(8 : CoreId)].wbuf.find? (fun y => decide (y.remote = 1 + 9)) = some tile ∧
    (tiled (r 1 80)).cores[(8 : CoreId)].active = some (verb .running 0 false) ∧ tile.runs.length = 1 ∧ sled.fab.outstanding = [] ∧
    comes conj 0x87 (msg 0x87 3 8 0x100 1 [] false) ∧ conj.isLocal 0x100000F0000000 = false ∧
    (∀ e : ThreadId, e < ctl → conj.threads[e].wait = .none) ∧ (∀ e : ThreadId, e ≠ ctl → (s (r 1 66)).threads[e].wait = .none) ∧
    (r 1 66).tick + sled.act K.remoteTimeout ≤ (at' (sled.act K.remoteTimeout) (s (r 1 66))).tick ∧ conj.threadPart ctl = some 1 ∧
    0 + 65536 ≤ (at' 65536 conj).tick ∧ (at' 65535 conj).tick < 0 + 65536 := by
  unfold comes quiet Safety.sound Safety.ledgerOk Safety.memoriesOk Safety.mapsOk; decide +kernel

/-- No credit is in use at first; a deep channel with a request of each kind, aged and not. -/
theorem meets_CreditsReturnAndBanksGrantInOrder :
    let t := Traffic.reset
    let at' (cls since : Nat) : StoreReq := { cls := cls, holder := 0, unit := 64, since := since }
    let u : Traffic := { t with queue := [at' 0 0, at' 1 300, at' 4 300, at' 6 0], cycle := 256 }
    SMap.wf creditDflt t.free = true ∧ t.queue = [] ∧ t.back = [] ∧
    (∀ g < 8, ∀ c < 7, t.credits g c 0 = slotsPer c) ∧ (at' 0 0).since + 256 ≤ u.cycle ∧ ¬ (at' 1 300).since + 256 ≤ u.cycle ∧
    u.bgTurn [] 64 = false ∧ ({ u with slots := [(64, 1000)] } : Traffic).bgTurn [.deepRefresh 0] 64 = true := by
  decide +kernel

/-! The block as a whole. -/

/-- A queue of one command, and an empty one. -/
theorem meets_AStepRunsTheFrontCommand :
    ({ full with pending := [.tickLock] } : State).pending = .tickLock :: [] ∧ full.pending = [] := by decide +kernel

theorem meets_EveryStepKeepsThePromisesAndTheLedgerBalances :
    Safety.sound State.reset ∧ Safety.completes (step State.reset) := by
  refine ⟨?_, _, rfl⟩
  unfold Safety.sound Safety.ledgerOk Safety.memoriesOk Safety.mapsOk; decide +kernel

theorem meets_PdusAreReadAsTheyWereWritten : (List.replicate 255 (0 : Byte)).length < 256 := by decide

/-- The table gives no row bits, so a word spells no command and puts none into the queue. -/
theorem test_words_spell_no_command (nbits w : Nat) :
    decodeTableWord nbits w = none ∧ State.reset.withFetchWord nbits w = State.reset := ⟨rfl, rfl⟩

/-! Words of chapter 8, written out from Tables 8-8, 8-11 and 8-12. -/

/-- The example of chapter 8: addi s7, s7, 64 is 0x0871C040. -/
theorem test_word_addi : decodeCtl 0x0871C040 = some (.imm .addi 7 7 64) := by decide
/-- Format R, major 0x01, fn 9: mulh s1, s2, s3. -/
theorem test_word_mulh : decodeCtl 0x04108309 = some (.alu .mulh 1 2 3) := by decide
/-- Format I, major 0x12 with imm14 −8: ldg s4, s5, −8. -/
theorem test_word_ldg : decodeCtl 0x48417FF8 = some (.ldg 4 5 (-8)) := by decide
/-- Format B, major 0x18, p2, neg, offset −1. -/
theorem test_word_br : decodeCtl 0x614FFFFF = some (.br 2 true (-1)) := by decide
/-- Format W, major 0x1C: walker set 3, field 12, register 9 of core 5. -/
theorem test_word_wset : decodeCtl 0x70566120 = some (.wset 5 3 12 9 false) := by decide
/-- Format R, major 0x14, code 0xB, 64 bits: CAS s1, s2, s3. -/
theorem test_word_cas : decodeCtl 0x501083B8 = some (.atom .cas true 1 2 3) := by decide
/-- Majors 0x00 and 0x16 are reserved, and so is fn 0x0E of major 0x01. -/
theorem test_word_reserved : decodeCtl 0 = none ∧ decodeCtl 0x58000000 = none ∧ decodeCtl 0x0410830E = none := by decide

/-! Results that the spec states. -/

/-- R302: a control core's store is little-endian, and the load after it gives the value back. -/
theorem test_stp_is_little_endian :
    let s := (withS1 0x1122334455667788)
    (match exec (.insnStp ctl 1 0 16) s with
     | .next u => (u.threads[ctl].priv.read 16, u.threads[ctl].priv.read 23)
     | _ => (0, 0)) = (0x88, 0x11) := by decide +kernel

/-- R149, R152: a deposit goes to the pool; one in Fault is refused. -/
theorem test_deposit :
    (match exec (.deposit hd 7) funded with | .next u => u.ledger.pool | _ => 0) = 17 := by decide +kernel

/-- R351, R355: a signal of 3 to a counter at 2^32 − 2 leaves it at 2^32 − 1. -/
theorem test_signal_saturates :
    (match exec (.signalNow ctl first 3) (counting.onStore (fun m => { m with conj := [(0, 0xFFFFFFFE)] })) with
     | .next u => u.conjVal 0
     | _ => 0) = 0xFFFFFFFF := by decide +kernel

/-- R324: a tail 64 words past RETIRE fills a ring of 64 words; 65 is rejected. -/
theorem test_doorbell_edges :
    let tail (v : W32) := match exec (.feedDoorbell 1 v) (fed 1) with | .next u => u.rings[(65 : Fin 80)].tail | _ => 0
    tail 64 = 64 ∧ tail 65 = 40 := by decide +kernel

/-- 0x1100:02 (chapter 2): TICK_LOCK is 0 once the tick oscillator has locked. -/
theorem test_tick_lock :
    (match exec .tickLock full with | .next u => u.aon.lock | _ => 9) = 0 := by decide +kernel

/-- Table 11-5: 1.5 rounds to 2 and 2.5 to 2, to nearest, ties to even. -/
theorem test_ties_to_even :
    (fval 0x3FC00000).toInt 0 0 = some 2 ∧ (fval 0x40200000).toInt 0 0 = some 2 := by decide +kernel

/-! Well-formedness: for each check, a command that it turns away. -/

/-- The inputs of a quiet tick. -/
def ticking : TickInputs :=
  { arr := [], late := 0, mv := List.replicate 8 0, pg := 0, temps := List.replicate 12 0, wakeN := false, tapWake := false,
    meters := { basePj := 0, clusterMw := List.replicate 8 0, baseMw := 0, partCycles := List.replicate 16 0,
                sensors := List.replicate 12 0 },
    upsets := [] }

theorem wf_accepts :
    (∀ c ∈ [Instr.tickBoundary ticking, .segData hd owner 0 (List.replicate 253 0), .bar2Read 0 4096, .reqGo (List.replicate 256 0),
      .remoteRead (msg 1 3 192 0 0 [] false), .remoteWrite (msg 2 3 1 0 0 [5] false), .doorbellBadSize 0 8 0], c.wf = true) := by
  decide +kernel

theorem wf_refuses_a_mac_off_the_frame_bus : (Instr.deposit { req := { via := .i3c, mac := 1 }, txn := 0 } 1).wf = false := by decide
theorem wf_refuses_long_data : (Instr.echo hd owner (List.replicate 256 0)).wf = false := by decide +kernel
theorem wf_refuses_known_op : (Instr.unknownOp hd 9 owner []).wf = false ∧ (Instr.unknownOp hd 10 owner []).wf = true := by decide
theorem wf_refuses_tick_inputs :
    (Instr.tickBoundary { ticking with mv := [] }).wf = false ∧ (Instr.tickBoundary { ticking with temps := [] }).wf = false ∧
    (Instr.tickBoundary { ticking with late := 1 }).wf = false ∧ (Instr.tickBoundary { ticking with upsets := [(4, false)] }).wf = false := by
  decide
theorem wf_refuses_meters :
    (Instr.planner { ticking.meters with clusterMw := [] }).wf = false ∧ (Instr.planner { ticking.meters with partCycles := [] }).wf = false ∧
    (Instr.planner { ticking.meters with sensors := [] }).wf = false := by decide
theorem wf_refuses_a_second_tile : (Instr.tapBurstEnd 0 (TapBurst.mk [] true true 4097)).wf = false := by decide
theorem wf_refuses_message_lengths :
    (Instr.remoteRead (msg 1 3 193 0 0 [] false)).wf = false ∧ (Instr.remoteRead (msg 1 3 8 0 0 [1] false)).wf = false ∧
    (Instr.remoteWrite (msg 2 3 8 0 0 [1] false)).wf = false := by decide
theorem wf_refuses_finds : (Instr.pilotsPresent 0 false (List.replicate 18 (RingFind.mk none 0))).wf = false := by decide
theorem wf_refuses_readings : (Instr.fadeSample []).wf = false ∧ (Instr.lossLocation 0 [] []).wf = false := by decide
theorem wf_refuses_module_data : (Instr.moduleResponse (ModResp.mk 0 0 [1, 2, 3, 4, 5])).wf = false := by decide
theorem wf_refuses_a_short_slot_map : (Instr.train 0 (TrainMsg.mk 0 0 1 1 1 1 [] false)).wf = false := by decide
theorem wf_refuses_a_far_shifter : (Instr.inputStep (StepResult.mk true [(4096, 0)] 0)).wf = false := by decide
theorem wf_refuses_lengths :
    (Instr.flitReceive 0 []).wf = false ∧ (Instr.reqGo []).wf = false ∧ (Instr.bar2Read 0 0).wf = false ∧
    (Instr.bar2Read 0 4097).wf = false ∧ (Instr.bar2Write 0 []).wf = false ∧
    (Instr.segData hd owner 0 (List.replicate 254 0)).wf = false := by decide +kernel
theorem wf_refuses_a_right_size : (Instr.doorbellBadSize 0 4 0).wf = false := by decide

end Sys2Proof.Tests
end

section
/-!
SUPPORT. The operations that `Keeps` does not cover, because they set the tick counter or the straps: the opening of a
tick, always-on power-on and its loss. They hold the queue and the promises all the same.
-/
namespace Sys2Proof.Machine

open Sys2Proof.Safety

/-- The opening of a tick moves the tick counter and touches no unit that the promises speak of. -/
theorem State.openTick_holds (s : State) (arr : List Event) : Holds s (s.openTick arr) := ⟨rfl, id⟩

/-- A tick is its opening followed by operations that keep; in Off nothing happens. -/
theorem State.applyTick_holds (s : State) (i : TickInputs) : Holds s (s.applyTick i) := by
  by_cases hoff : s.mood = .off
  · have hsame : s.applyTick i = s := by rw [State.applyTick, if_pos hoff]
    rw [hsame]
    exact Holds.refl s
  · exact (s.openTick_holds i.arr).trans (State.applyTick_keeps i (Keeps.refl _) hoff).holds

/-- Power-on leaves a ledger of zeros, and empty memories, dictionary and counters (R144). -/
theorem State.powerOn_sound (node : BitVec 3) (sled : Bool) : sound (State.powerOn node sled) := by
  refine ⟨Ledger.reset_ok, ⟨rfl, fun t => ?_⟩, rfl, rfl, rfl, rfl, rfl, rfl, rfl⟩
  simp only [State.powerOn, Fin.getElem_fin, Vector.getElem_replicate]
  exact Thread.reset_priv_wf

theorem State.applyPowerOn_holds (s : State) (node : BitVec 3) (sled : Bool) : Holds s (s.applyPowerOn node sled) := by
  unfold State.applyPowerOn
  split
  · exact Holds.refl s
  · exact ⟨rfl, fun _ => (State.loadBuild_keeps (Keeps.refl _)).sound (State.powerOn_sound node sled)⟩

theorem State.applyPowerLoss_holds (s : State) : Holds s s.applyPowerLoss :=
  ⟨rfl, fun _ => State.powerOn_sound s.aon.node s.aon.sled⟩

end Sys2Proof.Machine
end

section
/-!
SUPPORT. Every command ends in a next state that keeps the promises: one case per operation that `exec` dispatches to,
by the law that says what this operation keeps.
-/
namespace Sys2Proof.Machine

open Sys2Proof.Safety

/-- The outcome is a next state that has the queue of `s` and keeps the promises. -/
def EndsWell (s : State) (o : Host.Outcome State Fault Refusal) : Prop := ∃ t, o = .next t ∧ Holds s t

theorem Holds.endsWell {s t : State} (h : Holds s t) : EndsWell s (.next t) := ⟨t, rfl, h⟩

theorem Keeps.endsWell {s t : State} (h : Keeps s t) : EndsWell s (.next t) := h.holds.endsWell

theorem EndsWell.sound_next {s t : State} {o : Host.Outcome State Fault Refusal} (h : EndsWell s o) (hs : sound s)
    (ho : o = .next t) : sound t := by
  obtain ⟨u, hu, hold⟩ := h
  cases hu.symm.trans ho
  exact hold.sound hs

theorem exec_endsWell (c : Instr) (s : State) : EndsWell s (exec c s) := by
  have k : Keeps s s := Keeps.refl s
  cases c with
  -- Chapter 2: the tick.
  | tickBoundary => exact (State.applyTick_holds s _).endsWell
  -- Chapters 2, 4 and 20: the tick oscillator, supplies, resets and moods.
  | tickLock => exact (State.applyTickLock_keeps k).endsWell
  | holdoverEntry => exact (State.applyHoldover_keeps k).endsWell
  | tickRelock => exact (State.applyRelock_keeps k).endsWell
  | alwaysOnPowerOn => exact (State.applyPowerOn_holds ..).endsWell
  | alwaysOnLoss => exact (State.applyPowerLoss_holds ..).endsWell
  | supplyWarning => exact (State.applyWarning_keeps k ..).endsWell
  | supplyResetLevel => exact (State.applySupplyReset_keeps k ..).endsWell
  | powerGoodTimeout => exact (State.applyPgTimeout_keeps k ..).endsWell
  | powerGoodFall => exact (State.applyPgFall_keeps k ..).endsWell
  | thermalTrip => exact (State.applyTrip_keeps k ..).endsWell
  | thermalTripClear => exact (State.applyTripClear_keeps k).endsWell
  | rstN => exact (State.applyRstN_keeps k).endsWell
  | wakeN => exact (State.applyWakeN_keeps k).endsWell
  | enterFault => exact (State.applyEnterFault_keeps k ..).endsWell
  | floorCeilingRequest => exact (State.applyBounds_keeps k).endsWell
  | wakePhaseComplete => exact (State.applyPhase_keeps k).endsWell
  | clusterClockStop => exact (State.applyClusterStop_keeps k ..).endsWell
  | idleLinger => exact (State.applyLinger_keeps k).endsWell
  | quiesceStepComplete => exact (State.applyQuiesceStep_keeps k).endsWell
  | braceExit => exact (State.applyBraceExit_keeps k).endsWell
  | braceLimit => exact (State.applyBraceLimit_keeps k).endsWell
  | tapWake => exact (State.applyTapWake_keeps k).endsWell
  | rstNRelease => exact (State.applyRstRelease_keeps k).endsWell
  | crystalEdgesReturn => exact (State.applyEdges_keeps k).endsWell
  -- Chapter 3: requests, and the objects whose writes have rows of their own.
  | coreDomainReset | configurationReset | moodRequest | deposit | grant | batteryFeedWrite | notifyTransportWrite
  | swapRequest | shadowRevert | partReset | flushRun | flushAbandonQueued | flushPreempt | conjValueWrite
  | commission | partRelease | stopAfter =>
    exact (State.askWrite_keeps k ..).endsWell
  | pduReceive => exact (State.applyReceive_keeps k ..).endsWell
  | read | write | readShadow | describe | segReadInit | segWriteInit | segData | segAbort | echo | unknownOp
  | pokeData =>
    exact (State.ask_keeps k ..).endsWell
  | duplicateRecordExpiry => exact (State.expireDups_keeps k).endsWell
  | segTimeout => exact (State.applySegTimeout_keeps k ..).endsWell
  | reqGo => exact (State.applyReqGo_keeps k ..).endsWell
  | peekData => exact (Keeps.ite (State.askSegRead_keeps k ..) (State.askRead_keeps k ..)).endsWell
  | conjValueRead | digest => exact (State.askRead_keeps k ..).endsWell
  | eventLog | snapRegs | snapPrivData => exact (State.askSegRead_keeps k ..).endsWell
  -- Chapter 5: the planner.
  | planner => exact (State.applyPlanner_keeps k ..).endsWell
  | batteryStale => exact (State.applyStale_keeps k).endsWell
  -- Chapters 5 and 9: recording, admission and start of verbs.
  | energyWaitEnd => exact (State.applyEnergyWaitEnd_keeps k ..).endsWell
  | verbRecord => exact (State.applyRecord_keeps k ..).endsWell
  | scoreboardAdmit => exact (State.applyAdmit_keeps k ..).endsWell
  | verbStart => exact (State.applyStart_keeps k ..).endsWell
  -- Chapter 3: the transports.
  | notifyHandover => exact (State.handNotify_keeps k).endsWell
  | i3cPrivateRead => exact (State.applyPrivateRead_keeps k ..).endsWell
  | enec | disec => exact (State.applyEvents_keeps k ..).endsWell
  | rstdaa => exact (State.applyRstdaa_keeps k).endsWell
  | entdaa => exact (State.applyEntdaa_keeps k ..).endsWell
  | setdasa => exact (State.applySetdasa_keeps k ..).endsWell
  | getpid | getbcr | getdcr | getmwl | getmrl => exact (State.i3cGet_keeps k ..).endsWell
  | getstatus | getmxds => exact (State.i3cFree_keeps k).endsWell
  | setmwl | setmrl => exact (State.i3cSetMax_keeps k ..).endsWell
  | rstact => exact (State.applyRstact_keeps k ..).endsWell
  | targetResetPattern => exact (State.applyResetPattern_keeps k).endsWell
  | rspReadyClear => exact (State.applyRspClear_keeps k).endsWell
  | ntfReadyClear => exact (State.applyNtfClear_keeps k).endsWell
  | mailboxRestore => exact (State.applyRestore_keeps k).endsWell
  | t1sTransmitOpportunity => exact (State.applyOpportunity_keeps k).endsWell
  -- Chapter 3: the swap.
  | swapTakesEffect => exact (State.applySwapEffect_keeps k).endsWell
  | swapForce => exact (State.applySwapForce_keeps k).endsWell
  -- Chapter 6: BAR2 and background work of the store.
  | bar2Read | bar2Write | fetchadd | atomicopSwap | atomicopCas | bar2CounterRead | bar2CounterSignal =>
    exact (State.barOffer_keeps k ..).endsWell
  | cas128 => exact (State.applyCas128_keeps k ..).endsWell
  | scrubDue => exact (State.applyScrub_keeps k ..).endsWell
  | refreshDue => exact (State.applyRefresh_keeps k ..).endsWell
  | backgroundOverdue => exact (State.applyOverdue_keeps k ..).endsWell
  | deepSelfRefresh => exact (State.applySelfRefresh_keeps k ..).endsWell
  -- Chapters 10 to 13: the life of a verb.
  | tileCommit => exact (State.applyCommit_keeps k ..).endsWell
  | verbRetire => exact (State.applyRetire_keeps k ..).endsWell
  | completionStallEnd => exact (State.applyStallEnd_keeps k ..).endsWell
  | preemption => exact (State.applyPreemption_keeps k ..).endsWell
  | verbResume => exact (State.applyResume_keeps k ..).endsWell
  | verbAdd | verbSub | verbMul | verbFma | verbMin | verbMax | verbAbs | verbNeg | verbLdexp | verbConvert
  | verbQuant | verbDequant | verbFunc | verbCompare | verbSelect | verbReduce | verbSoftmax | verbSoftmaxPart
  | verbSoftmaxFix | verbRmsnorm | verbRope | verbCopy | verbPermute | verbShift | verbCompress | verbExpand
  | verbGather | verbScatter | verbRotate | verbReshard | verbFill =>
    exact (State.applyVerb_keeps k ..).endsWell
  -- Chapters 7, 18 and 19: partitions, flushes and faults.
  | partResetComplete => exact (State.applyResetComplete_keeps k ..).endsWell
  | flushComplete => exact (State.applyFlushComplete_keeps k ..).endsWell
  | coreFlushComplete => exact (State.applyCoreFlushComplete_keeps k ..).endsWell
  | stalemate => exact (State.applyStalemate_keeps k ..).endsWell
  | partitionFault => exact (State.applyPartitionFault_keeps k ..).endsWell
  | partitionHalted => exact (State.applyHalted_keeps k ..).endsWell
  | stopReached => exact (State.applyStopReached_keeps k ..).endsWell
  -- Chapter 9: doorbells.
  | feedDoorbell | ringDoorbell | complDoorbell => exact (State.ringBell_keeps k ..).endsWell
  | doorbellBadSize => exact (State.badBell_keeps k ..).endsWell
  -- Chapter 8: clauses.
  | clauseFetch => exact (State.applyFetch_keeps k ..).endsWell
  | clauseExecute => exact (State.applyExecute_keeps k ..).endsWell
  | waitGe => exact (State.applyWaitGe_keeps k ..).endsWell
  | waitSatisfied => exact (State.applyWaitSatisfied_keeps k ..).endsWell
  | signalAtRetire => exact (State.applySignalAtRetire_keeps k ..).endsWell
  | signalNow => exact (State.applySignalNow_keeps k ..).endsWell
  | verbPush => exact (State.applyVerbPush_keeps k ..).endsWell
  | pushResume => exact (State.applyPushResume_keeps k ..).endsWell
  | addressStreamPush => exact (State.applyStreamPush_keeps k ..).endsWell
  | memoWaitEnd => exact (State.applyMemoWaitEnd_keeps k ..).endsWell
  | fenceRelease => exact (State.applyFenceRelease_keeps k ..).endsWell
  -- Chapter 8: instructions of Table 8-12.
  | insnAdd | insnSub | insnAnd | insnOr | insnXor | insnShl | insnShr | insnSra | insnMul | insnMulh | insnMin
  | insnMax | insnMinu | insnMaxu | insnAddi | insnAndi | insnOri | insnXori | insnShli | insnShri | insnSrai
  | insnLimm | insnFadd | insnFsub | insnFmul | insnFdiv | insnFsqrt | insnFmin | insnFmax | insnFcvtif
  | insnFcvtfi | insnCmp | insnCmpi | insnPand | insnPor | insnPxor | insnPandn | insnSel | insnLdp | insnStp
  | insnLdg | insnStg | insnAtomAdd | insnAtomFadd | insnAtomMin | insnAtomMax | insnAtomUmin | insnAtomUmax
  | insnAtomAnd | insnAtomOr | insnAtomXor | insnAtomSwap | insnAtomCas | insnBr | insnBmc | insnWinMark
  | insnWinUnmark | insnWset | insnDput | insnDget | insnQroom | insnFence | insnMfm | insnRdsr | insnLset
  | insnLdbnz =>
    exact (State.insn_keeps k ..).endsWell
  -- Chapter 14: the tap.
  | tapOffer => exact (State.applyTapOffer_keeps k ..).endsWell
  | tapGrant => exact (State.applyTapGrant_keeps k ..).endsWell
  | tapBurstEnd => exact (State.applyBurstEnd_keeps k ..).endsWell
  | tapAbort => exact (State.applyTapAbort_keeps k ..).endsWell
  | tapBurstTimeout => exact (State.applyBurstTimeout_keeps k ..).endsWell
  | tapWaitLimit => exact (State.applyTapWait_keeps k ..).endsWell
  | tapStrayBeat => exact (State.applyStrayBeat_keeps k ..).endsWell
  | tapLinkMRise => exact (State.applyLinkRise_keeps k ..).endsWell
  | tapTrainingEnd => exact (State.applyTrainingEnd_keeps k ..).endsWell
  | tapLinkFall => exact (State.applyLinkFall_keeps k ..).endsWell
  | tapClockStop => exact (State.applyClockStop_keeps k ..).endsWell
  -- Chapter 15: photonics.
  | moduleResponse => exact (State.applyModResponse_keeps k ..).endsWell
  | moduleRequestTimeout => exact (State.applyModTimeout_keeps k).endsWell
  | moduleRetry => exact (State.applyModRetry_keeps k).endsWell
  | pilotsPresent => exact (State.applyPilots_keeps k ..).endsWell
  | searchCalibrationComplete => exact (State.applyCalibrated_keeps k ..).endsWell
  | outOfLock => exact (State.applyOutOfLock_keeps k ..).endsWell
  | pilotCheck => exact (State.applyPilotCheck_keeps k ..).endsWell
  | mislock => exact (State.applyMislock_keeps k ..).endsWell
  | mislockMove => exact (State.applyMislockMove_keeps k ..).endsWell
  | calibrationDue => exact (State.applyCalDue_keeps k).endsWell
  | rotationMove => exact (State.applyRotation_keeps k).endsWell
  | spareCalibrationStep => exact (State.applyCalStep_keeps k ..).endsWell
  | calibrationOverdue => exact (State.applyCalOverdue_keeps k ..).endsWell
  | fadeSample => exact (State.applyFadeSample_keeps k ..).endsWell
  | spareNotReady => exact (State.applySpareNotReady_keeps k).endsWell
  | spareReady => exact (State.applySpareReady_keeps k).endsWell
  | handoverStep => exact (State.applyHandover_keeps k).endsWell
  | lossLocation => exact (State.applyLoss_keeps k ..).endsWell
  | moveAnnounce => exact (State.applyAnnounce_keeps k ..).endsWell
  | spareRequest => exact (State.applySpareRequest_keeps k ..).endsWell
  | calStep => exact (State.applyCalMsg_keeps k ..).endsWell
  | calDone => exact (State.applyCalDone_keeps k ..).endsWell
  -- Chapter 16: the fabric.
  | train => exact (State.applyTrain_keeps k ..).endsWell
  | trainingTimeout => exact (State.applyTrainTimeout_keeps k ..).endsWell
  | linkDown => exact (State.applyLinkDown_keeps k ..).endsWell
  | retrainLimit => exact (State.applyRetrainLimit_keeps k ..).endsWell
  | flitReceive => exact (State.applyFlit_keeps k ..).endsWell
  | remoteRead => exact (State.applyMsg_keeps k _ _ (State.doRead_keeps · _)).endsWell
  | remoteWrite => exact (State.applyMsg_keeps k _ _ (State.doWrite_keeps · _)).endsWell
  | tileOpen => exact (State.applyMsg_keeps k _ _ (State.doTileOpen_keeps · _)).endsWell
  | tileData => exact (State.applyMsg_keeps k _ _ (State.doTileData_keeps · _)).endsWell
  | atomic => exact (State.applyMsg_keeps k _ _ (State.doAtomic_keeps · _)).endsWell
  | signal => exact (State.applyMsg_keeps k _ _ (State.doSignal_keeps · _)).endsWell
  | waitReg => exact (State.applyMsg_keeps k _ _ (State.doWaitReg_keeps · _)).endsWell
  | readData => exact (State.applyAnswer_keeps k _ _ (State.doReadData_keeps · _)).endsWell
  | writeAck => exact (State.applyAnswer_keeps k _ _ (State.doWriteAck_keeps · _)).endsWell
  | tileGrant => exact (State.applyAnswer_keeps k _ _ (State.doTileGrant_keeps · _)).endsWell
  | tileAck => exact (State.applyAnswer_keeps k _ _ (State.doTileAck_keeps · _)).endsWell
  | atomicData => exact (State.applyAnswer_keeps k _ _ (State.doAtomicData_keeps · _)).endsWell
  | waitAnswer => exact (State.applyAnswer_keeps k _ _ (State.doWaitAnswer_keeps · _)).endsWell
  | error => exact (State.applyAnswer_keeps k _ _ (State.doError_keeps · _)).endsWell
  | remoteTimeout => exact (State.applyRemoteTimeout_keeps k ..).endsWell
  | waitReregister => exact (State.applyReregister_keeps k ..).endsWell
  -- Chapter 17: the mesh.
  | meshBringup => exact (State.applyBringup_keeps k).endsWell
  | slotLoad => exact (State.applySlotLoad_keeps k ..).endsWell
  | meshGrant => exact (State.applyMeshGrant_keeps k).endsWell
  | inputStepDue => exact (State.applyStepDue_keeps k).endsWell
  | meshTempSample => exact (State.applyMeshTemp_keeps k ..).endsWell
  | meshPowerSample => exact (State.applyMeshPower_keeps k ..).endsWell
  | inputStep => exact (State.applyInputStep_keeps k ..).endsWell
  | gainStep => exact (State.applyGain_keeps k ..).endsWell
  | meshCalOverdue => exact (State.applyMeshOverdue_keeps k).endsWell

end Sys2Proof.Machine
end

section
/-!
PROOFS. What a step keeps, and the ledger's relations as sums over the 16 partitions (R147).
-/
namespace Sys2Proof.Machine

open Sys2Proof.Safety

/-- The promises do not speak of the queue, so the command at its front starts from a state that has them. -/
theorem step_keeps_sound {s t : State} (hs : sound s) (ht : step s = .next t) : sound t := by
  unfold step at ht
  split at ht
  · cases ht
    exact hs
  · next c cs _ => exact (exec_endsWell c { s with pending := cs }).sound_next hs ht

/-- The sum of a figure over the sub-ledgers is its sum over the partitions in their order. -/
theorem Ledger.sum_eq_finRange (l : Ledger) (f : Sub → Int) :
    l.sum f = ((List.finRange 16).map (fun p : PartId => f l.subs[p])).sum := by
  have hsubs : l.subs.toList = (List.finRange 16).map (fun p : PartId => l.subs[p]) :=
    List.ext_getElem (by simp) (by simp)
  rw [Ledger.sum, hsubs, List.foldr_map, List.sum_eq_foldr, List.foldr_map]

/-- Settles O57: each command keeps the promises (`exec_endsWell`), and the ledger's promise is the balance of R147. -/
theorem everyStepKeepsThePromisesAndTheLedgerBalances :
    Obligations.EveryStepKeepsThePromisesAndTheLedgerBalances := by
  refine ⟨fun s t hs ht => step_keeps_sound hs ht, fun s t hs ht => ?_⟩
  obtain ⟨hledger, -, -⟩ := step_keeps_sound hs ht
  simpa only [Ledger.sum_eq_finRange] using (Ledger.ok_iff t.ledger).1 hledger

end Sys2Proof.Machine
end

section
/-!
SUPPORT. Which plain objects a run of counting operations may have changed, as a relation that the operations extend one by
one, and states compared field by field.
-/
namespace Sys2Proof.Machine

open Sys2Proof.Claims

/-- Two states that agree in every field are one state. -/
theorem State.eq_of_fields {s u : State} (aon : u.aon = s.aon) (dict : u.dict = s.dict) (ledger : u.ledger = s.ledger)
    (link : u.link = s.link) (store : u.store = s.store) (parts : u.parts = s.parts) (rings : u.rings = s.rings)
    (threads : u.threads = s.threads) (cores : u.cores = s.cores) (tap : u.tap = s.tap) (ports : u.ports = s.ports)
    (pho : u.pho = s.pho) (fab : u.fab = s.fab) (mesh : u.mesh = s.mesh) (freeCtr : u.freeCtr = s.freeCtr)
    (pending : u.pending = s.pending) : u = s := by
  cases s; cases u; simp_all only

/-- From `s` to `u` no object has changed but plain ones of `ks`. -/
structure CountsIn (ks : List Nat) (s u : State) : Prop where
  sets : SameSets s u
  others : s.sglWf → ∀ k, k ∉ ks → u.sgl k = s.sgl k

namespace CountsIn

variable {ks : List Nat} {s u v : State}

theorem refl (ks : List Nat) (s : State) : CountsIn ks s s := ⟨SameSets.refl s, fun _ _ _ => rfl⟩

/-- An operation that leaves the dictionary as it is. -/
theorem same (h : CountsIn ks s u) (e : v.dict = u.dict) : CountsIn ks s v :=
  ⟨h.sets.trans (SameSets.of_dict e), fun hs k hk => by unfold State.sgl; rw [e]; exact h.others hs k hk⟩

/-- A write of a plain object of `ks`. -/
theorem setSgl (h : CountsIn ks s u) {k : Nat} (hk : k ∈ ks) (n : Nat) : CountsIn ks s (u.setSgl k n) :=
  ⟨h.sets.trans (State.setSgl_sets u k n), fun hs j hj => by
    have hne : j ≠ k := fun e => hj (e ▸ hk)
    rw [State.sgl_setSgl (h.sets.wf hs), if_neg hne]
    exact h.others hs j hj⟩

theorem bump (h : CountsIn ks s u) {k : Nat} (hk : k ∈ ks) : CountsIn ks s (u.bump k) := h.setSgl hk _

theorem add64 (h : CountsIn ks s u) {k : Nat} (hk : k ∈ ks) (n : Nat) : CountsIn ks s (u.add64 k n) := h.setSgl hk _

/-- A record counts in the objects of `logKeys`. -/
theorem logRec (h : CountsIn ks s u) (hk : ∀ k ∈ logKeys, k ∈ ks) (src sev part a b : Nat) :
    CountsIn ks s (u.logRec src sev part a b) :=
  ⟨h.sets.trans (State.logRec_sets u src sev part a b), fun hs j hj => by
    have hnot : ∀ k ∈ logKeys, j ≠ k := fun k hl e => hj (e ▸ hk k hl)
    have hlog : j ≠ K.eventLogLost ∧ j ≠ K.telRecords ∧ j ≠ K.notifyDropped := by simpa [logKeys] using hnot
    rw [State.sgl_logRec (h.sets.wf hs) _ _ _ _ _ _ hlog]
    exact h.others hs j hj⟩

/-- A walk whose steps count in `ks` only. -/
theorem forEach {α : Type} {f : State → α → State} (hf : ∀ {t : State} (a : α), CountsIn ks s t → CountsIn ks s (f t a)) :
    ∀ (l : List α) {u : State}, CountsIn ks s u → CountsIn ks s (u.forEach l f)
  | [], _, h => h
  | a :: l, _, h => forEach hf l (hf a h)

/-- In a state whose plain objects are canonical, no other object reads differently. -/
theorem onlyObjects (h : CountsIn ks s u) (hs : s.sglWf) : onlyObjects s u ks := ⟨h.others hs, h.sets.rest⟩

end CountsIn

/-- The plain objects of a state that meets the promises are canonical. -/
theorem sglWf_of_sound {s : State} (h : Safety.sound s) : s.sglWf := by
  obtain ⟨-, -, -, -, hsgl, -⟩ := h
  exact hsgl

end Sys2Proof.Machine
end

section
/-!
SUPPORT. What an access leaves of the store: a read of bytes that can be read finds at most single-bit errors, a write that
covers its words finds none, and the lines of both are counted.
-/
namespace Sys2Proof.Machine

open Sys2Proof.Claims

/-! Lines (R196 to R201). -/

@[simp] theorem State.wakeChans_mem (s : State) (l : List Nat) : (s.wakeChans l).store.mem = s.store.mem := by
  unfold State.wakeChans; split <;> rfl

@[simp] theorem State.takeLines_mem (s : State) (a : Asker) (l : List Nat) : (s.takeLines a l).store.mem = s.store.mem := by
  unfold State.takeLines; simp

@[simp] theorem State.countLines_mem (s : State) (a : Asker) (o n : Nat) : (s.countLines a o n).store.mem = s.store.mem := by
  unfold State.countLines; simp

theorem CountsIn.wakeChans {ks : List Nat} {s u : State} (h : CountsIn ks s u) (l : List Nat) :
    CountsIn ks s (u.wakeChans l) := h.same (by simp)

/-- Line requests count in the lines of the two tiers. -/
theorem CountsIn.takeLines {ks : List Nat} {s u : State} (h : CountsIn ks s u) (hn : K.telNearLines ∈ ks)
    (hd : K.telDeepLines ∈ ks) (a : Asker) (l : List Nat) : CountsIn ks s (u.takeLines a l) := by
  unfold State.takeLines
  exact (((h.same (State.onStore_dict u _)).add64 hn _).add64 hd _).wakeChans _

theorem CountsIn.countLines {s u : State} (h : CountsIn lineKeys s u) (a : Asker) (o n : Nat) :
    CountsIn lineKeys s (u.countLines a o n) := h.takeLines (by simp [lineKeys]) (by simp [lineKeys]) a _

/-! Reads of bytes that can be read (R222 to R224). -/

theorem CountsIn.corrected {s u : State} (h : CountsIn lineKeys s u) (o : Nat) : CountsIn lineKeys s (u.corrected o) := by
  unfold State.corrected
  refine (h.same (State.onStore_dict u _)).bump ?_
  split <;> simp [lineKeys]

/-- What is known of a state after reads of bytes that can be read. -/
structure ReadFrom (s u : State) : Prop where
  mem : u.store.mem = s.store.mem
  poison : u.store.poison = s.store.poison
  latent : u.store.latent = s.store.latent
  counts : CountsIn lineKeys s u
  frame : { u with dict := s.dict, store := s.store } = s

theorem ReadFrom.refl (s : State) : ReadFrom s s := ⟨rfl, rfl, rfl, CountsIn.refl _ s, rfl⟩

theorem ReadFrom.corrected {s u : State} (h : ReadFrom s u) (o : Nat) : ReadFrom s (u.corrected o) where
  mem := by simp [State.corrected, h.mem]
  poison := by simp [State.corrected, h.poison]
  latent := by simp [State.corrected, h.latent]
  counts := h.counts.corrected o
  frame := by
    have hsame : { u.corrected o with dict := s.dict, store := s.store } = { u with dict := s.dict, store := s.store } := by
      apply State.eq_of_fields <;> simp
    exact hsame.trans h.frame

theorem ReadFrom.aon {s u : State} (h : ReadFrom s u) : u.aon = s.aon := by simpa using congrArg State.aon h.frame
theorem ReadFrom.rings {s u : State} (h : ReadFrom s u) : u.rings = s.rings := by simpa using congrArg State.rings h.frame
theorem ReadFrom.threads {s u : State} (h : ReadFrom s u) : u.threads = s.threads := by
  simpa using congrArg State.threads h.frame

theorem ReadFrom.forEach {α : Type} {s : State} {f : State → α → State} {l : List α}
    (hf : ∀ {t : State}, ∀ a ∈ l, ReadFrom s t → ReadFrom s (f t a)) :
    ∀ {u : State}, ReadFrom s u → ReadFrom s (u.forEach l f) := by
  induction l with
  | nil => exact fun h => h
  | cons a l ih => exact fun h => ih (fun b hb => hf b (.tail a hb)) (hf a (.head l) h)

/-- A read of bytes that can be read finds no error that it cannot correct. -/
theorem ReadFrom.checkRead {s u : State} (h : ReadFrom s u) {o n : Nat} (hr : readable s o n) :
    ReadFrom s (u.checkRead o n) := by
  obtain ⟨hlatent, -⟩ := hr
  unfold State.checkRead
  rw [h.latent, hlatent, State.forEach_nil]
  exact h.forEach (fun a _ k => k.corrected a)

theorem ReadFrom.anyPoison {s u : State} (h : ReadFrom s u) {o n : Nat} (hr : readable s o n) : u.anyPoison o n = false := by
  obtain ⟨-, hany⟩ := hr
  rw [State.anyPoison, h.poison]
  exact hany

/-- A factor of every summand is a factor of the sum (the package's modules import no Mathlib). -/
theorem sum_map_factor (c : Nat) (f : Nat → Nat) (l : List Nat) : (l.map (fun i => c * f i)).sum = c * (l.map f).sum := by
  induction l with
  | nil => rfl
  | cons a l ih => simp only [List.map_cons, List.sum_cons, ih, Nat.mul_add]

/-- The value of a word is its first byte and 256 times the value of the others. -/
theorem leValue_succ (m : Memory) (a n : Nat) : leValue m a (n + 1) = (m.read a).toNat + 256 * leValue m (a + 1) n := by
  have hbyte (i : Nat) : (m.read (a + (i + 1))).toNat * 256 ^ (i + 1) = 256 * ((m.read (a + 1 + i)).toNat * 256 ^ i) := by
    rw [Nat.pow_succ', Nat.mul_left_comm, Nat.add_comm i 1, Nat.add_assoc]
  simp only [leValue, List.range_succ_eq_map, List.map_cons, List.map_map, List.sum_cons, Nat.add_zero, Nat.pow_zero,
    Nat.mul_one, Function.comp_def, Nat.succ_eq_add_one, hbyte, sum_map_factor]

/-- The value of a word is that of its little-endian bytes. -/
theorem ofLe_readN (m : Memory) (n : Nat) : ∀ a : Nat, ofLe (m.readN a n) = leValue m a n := by
  induction n with
  | zero => intro a; rfl
  | succ n ih => intro a; rw [Memory.readN, ofLe, ih, leValue_succ]

/-! Writes that cover their words (R205, R224, R230). -/

theorem leBytes_getElem? (n : Nat) : ∀ (v i : Nat), i < n → (leBytes n v)[i]? = some (BitVec.ofNat 8 (v / 256 ^ i)) := by
  induction n with
  | zero => intro v i hi; omega
  | succ n ih =>
    intro v i hi
    cases i with
    | zero => simp [leBytes]
    | succ i =>
      rw [leBytes, List.getElem?_cons_succ, ih _ _ (by omega), Nat.div_div_eq_div_mul, Nat.pow_succ']

/-- Every byte of a plain write is listed. -/
theorem plain_mem_wbytes (bs : List Byte) : ∀ (o i : Nat) (h : i < bs.length), WByte.plain (o + i) bs[i] ∈ wbytes o bs := by
  induction bs with
  | nil => intro o i h; simp at h
  | cons b bs ih =>
    intro o i h
    cases i with
    | zero => exact .head _
    | succ i =>
      have := ih (o + 1) i (by simpa using h)
      rw [show o + 1 + i = o + (i + 1) by omega] at this
      exact .tail _ this

/-- And nothing else is. -/
theorem off_of_mem_wbytes (bs : List Byte) : ∀ {o : Nat} {b : WByte}, b ∈ wbytes o bs → o ≤ b.off ∧ b.off < o + bs.length := by
  induction bs with
  | nil => intro o b h; cases h
  | cons c bs ih =>
    intro o b h
    rcases List.mem_cons.1 h with rfl | h
    · simp [WByte.plain]
    · have := ih h
      simp only [List.length_cons]
      omega

/-- Eight bytes from an aligned offset cover their word. -/
theorem coversWord_wbytes {o : Nat} {bs : List Byte} (hl : bs.length = 8) : coversWord (wbytes o bs) o = true := by
  simp only [coversWord, List.all_eq_true, List.mem_range, List.any_eq_true]
  intro i hi
  exact ⟨_, plain_mem_wbytes bs o i (by omega), by simp [WByte.plain]⟩

/-- A write that covers every word it touches reads none of them first. -/
theorem State.checkWrite_whole (s : State) {o : Nat} {bs : List Byte} (ho : o % 8 = 0) (hl : bs.length = 8) :
    s.checkWrite (wbytes o bs) = s := by
  have hpart (l : List Nat) :
      l.filter (fun w => touchesWord (wbytes o bs) w && !coversWord (wbytes o bs) w) = [] := by
    rw [List.filter_eq_nil_iff]
    intro w _
    simp only [touchesWord, Bool.and_eq_true, List.any_eq_true, Bool.not_eq_true', not_and, Bool.not_eq_false,
      decide_eq_true_eq]
    rintro ⟨b, hb, hw, -⟩
    have := off_of_mem_wbytes bs hb
    rw [show w = o by omega]
    exact coversWord_wbytes hl
  unfold State.checkWrite
  simp only [hpart, State.forEach_nil]

/-- What a store to an aligned word leaves in memory: its eight bytes, the guarded ones apart. -/
theorem State.storeWrite_word {s : State} (hm : s.store.mem.wf = true) (a : Asker) {o : Nat} (ho : o % 8 = 0) (v : Nat) :
    stored s (s.storeWrite a (wbytes o (leBytes 8 v))) o 8 v := by
  have hread := State.storeWrite_read hm a o (leBytes 8 v) (fun j hlo hhi => by
    rw [leBytes_length] at hhi
    have hw : j / 8 * 8 = o := by omega
    simp [poisonStops, hw, coversWord_wbytes])
  constructor
  · intro i hi
    rw [hread, Nat.add_sub_cancel_left, leBytes_getElem? 8 v i hi]
    by_cases hg : guarded s.guards (o + i) = true <;> simp [hg]
  · intro j hj
    rw [hread]
    by_cases hlo : o ≤ j
    · have hnone : (leBytes 8 v)[j - o]? = none := List.getElem?_eq_none (by rw [leBytes_length]; omega)
      simp [hnone]
    · simp [hlo]

/-- The objects that a store may count in: its lines, and the record of a guarded byte (R230). -/
abbrev storeKeys : List Nat := logKeys ++ [K.telNearLines, K.telDeepLines, K.guardDrops]

theorem CountsIn.guardDrop {s u : State} (h : CountsIn storeKeys s u) (ws : List WByte) :
    CountsIn storeKeys s (u.guardDrop ws) := by
  unfold State.guardDrop
  dsimp only
  split
  · exact h
  · split
    · exact h
    · exact (h.bump (by simp)).logRec (fun k hk => List.mem_append_left _ hk) _ _ _ _ _

theorem State.storeWrite_counts (s : State) (a : Asker) {o : Nat} {bs : List Byte} (ho : o % 8 = 0) (hl : bs.length = 8) :
    CountsIn storeKeys s (s.storeWrite a (wbytes o bs)) := by
  unfold State.storeWrite
  split
  · exact CountsIn.refl _ s
  · rw [s.checkWrite_whole ho hl]
    refine CountsIn.takeLines ?_ (by simp [storeKeys]) (by simp [storeKeys]) a _
    exact ((CountsIn.refl _ s).same (by simp)).guardDrop _

end Sys2Proof.Machine
end

section
/-!
SUPPORT. What a write of a register, a thread fault and an address computation come to, in the frames of the statements.
-/
namespace Sys2Proof.Machine

open Sys2Proof.Claims

/-- The address of an access is the sum of register and immediate modulo 2^64 (R302, R303). -/
theorem effAddr_eq (a : W64) (i : BitVec 14) : effAddr a i = (BitVec.ofInt 64 (a.toInt + i.toInt)).toNat := by
  rw [effAddr, BitVec.ofInt_add, BitVec.ofInt_toInt, BitVec.signExtend]

theorem privOk_iff (a n : Nat) : privOk a n = true ↔ a % n = 0 ∧ a + n ≤ 0x40000 := by simp [privOk]

theorem privOk_eq_false {a n : Nat} (h : ¬ (a % n = 0 ∧ a + n ≤ 0x40000)) : privOk a n = false :=
  Bool.eq_false_iff.2 fun k => h ((privOk_iff a n).1 k)

theorem otherThreads_onThread (s : State) (t : ThreadId) (f : Thread → Thread) : otherThreads s (s.onThread t f) t :=
  fun i hi => by simp [State.onThread, vmod_get_ne _ _ _ _ (Ne.symm hi)]

theorem otherThreads_congr {s u v : State} {t : ThreadId} (h : otherThreads s u t) (e : v.threads = u.threads) :
    otherThreads s v t := fun i hi => by rw [e]; exact h i hi

/-- A write of a scalar register, by a state that has its threads. -/
theorem scalarTook_of_setS {s u : State} {t : ThreadId} {d : SReg} {v : W64} (h : u.threads = (s.setS t d v).threads) :
    scalarTook s u t d v := by
  have hu : u.threads[t] = s.threads[t].sset d v := by rw [h]; simp [State.setS]
  refine ⟨?_, fun r hr => ?_, ?_, otherThreads_congr (otherThreads_onThread s t _) h⟩
  · rw [hu, Thread.sget_sset]
    by_cases hd : d = 0 <;> simp [hd]
  · rw [hu, Thread.sget_sset, if_neg (fun k => hr k.1)]
  · rw [sameButScalars, hu]
    exact Thread.sset_rest _ d v

theorem wroteScalar_setS (s : State) (t : ThreadId) (d : SReg) (v : W64) : wroteScalar s (s.setS t d v) t d v :=
  ⟨scalarTook_of_setS rfl, by apply State.eq_of_fields <;> simp⟩

/-- The thread that a thread fault has stopped (R312, R313). -/
theorem State.threadFault_thread (s : State) (t : ThreadId) (p : PartId) (cause slot : Nat) :
    (s.threadFault t p cause slot).threads[t] =
      { s.threads[t] with run := 5, faultWord := BitVec.ofNat 16 (cause + 2 ^ 8 * slot),
                          faultAddr := BitVec.ofNat 64 (s.clauseAddr t), wait := .none, cl := ClauseSt.reset, fetchq := [] } := by
  simp [State.threadFault]

theorem State.threadFault_others (s : State) (t : ThreadId) (p : PartId) (cause slot : Nat) :
    otherThreads s (s.threadFault t p cause slot) t := by
  intro i hi
  simp [State.threadFault, vmod_get_ne _ _ _ _ (Ne.symm hi)]

/-- Besides its thread, a thread fault touches the record's units only. -/
theorem State.threadFault_frame (s : State) (t : ThreadId) (p : PartId) (cause slot : Nat) :
    { s.threadFault t p cause slot with aon := s.aon, dict := s.dict, link := s.link, threads := s.threads } = s := by
  apply State.eq_of_fields <;> simp

/-- An access that no address fault meets is aligned. -/
theorem State.accessCause_aligned {s : State} {p a n : Nat} {r : Right} (h : s.accessCause p a n r = none) : a % n = 0 := by
  unfold State.accessCause at h
  split at h
  · cases h
  · split at h
    · cases h
    · split at h
      · cases h
      · next hn => exact Decidable.not_not.1 (fun k => hn (.inr k))

/-- A thread that may execute stands at no memo wait. -/
theorem State.ready_no_memo {s u : State} {t : ThreadId} {p : PartId} (hr : s.ready t = some p)
    (hw : u.threads[t].wait = s.threads[t].wait) (k : MReg) : u.threads[t].wait ≠ .memo k none := by
  rw [hw, State.ready_wait hr]
  exact nofun

end Sys2Proof.Machine
end

section
/-!
PROOFS. Loads and stores of a control core (R302, R303).
-/
namespace Sys2Proof.Machine

open Sys2Proof.Claims

/-! The commands as instructions of their thread. -/

section Commands

variable (s : State) (t : ThreadId) (d a : SReg) (imm : BitVec 14)

theorem exec_insnLdp : exec (.insnLdp t d a imm) s = .next (s.insn t 0 (.ldp d a imm)) := rfl
theorem exec_insnStp : exec (.insnStp t d a imm) s = .next (s.insn t 0 (.stp d a imm)) := rfl
theorem exec_insnLdg : exec (.insnLdg t d a imm) s = .next (s.insn t 0 (.ldg d a imm)) := rfl
theorem exec_insnStg : exec (.insnStg t d a imm) s = .next (s.insn t 0 (.stg d a imm)) := rfl
theorem exec_insnDput : exec (.insnDput t d a) s = .next (s.insn t 0 (.dput d a)) := rfl
theorem exec_insnDget : exec (.insnDget t d a) s = .next (s.insn t 0 (.dget d a)) := rfl

end Commands

/-! The thread's own data memory (R302). -/

/-- A copy of a descriptor from or to a data memory address that is misaligned or out of range (R302, R304). -/
theorem runDesc_stops {s : State} {t : ThreadId} {p : PartId} {d a : SReg} (get : Bool) (hd : (s.threads[t].sget d).toNat < 4096)
    (h : privOk (s.threads[t].sget a).toNat 64 = false) :
    s.runDesc t p get d a 1 = (s.threadFault t p 17 1, .stop) := by
  simp only [State.runDesc, if_neg (Nat.not_le.2 hd), h, if_true]

section DataMemory

variable {s : State} {t : ThreadId} {p : PartId} (hc : onControl s t p) {d a : SReg} {imm : BitVec 14}

include hc

theorem insn_ldp (h : privOk (effAddr (s.threads[t].sget a) imm) 8 = true) :
    s.insn t 0 (.ldp d a imm) =
      s.setS t d (BitVec.ofNat 64 (leValue s.threads[t].priv (effAddr (s.threads[t].sget a) imm) 8)) := by
  obtain ⟨hr, ht⟩ := hc
  refine State.insn_setS (n := .done) hr (State.ctlCause_control ht nofun nofun nofun) rfl ?_
  simp only [State.runCtl, if_pos h, ofLe_readN]

theorem insn_stp (h : privOk (effAddr (s.threads[t].sget a) imm) 8 = true) :
    s.insn t 0 (.stp d a imm) = s.onThread t (fun k =>
      { k with priv := k.priv.writeN (effAddr (s.threads[t].sget a) imm) (leBytes 8 (k.sget d).toNat) }) := by
  obtain ⟨hr, ht⟩ := hc
  refine State.insn_eq (n := .done) hr (State.ctlCause_control ht nofun nofun nofun) rfl ?_ (State.ready_no_memo hr (by simp))
  simp only [State.runCtl, if_pos h]

/-- An instruction that its own checks stop leaves the state of its thread fault. -/
theorem insn_stops {o : CtlOp} {cause : Nat} (h1 : ∀ k v, o ≠ .lset k v) (h2 : ∀ k v, o ≠ .ldbnz k v)
    (h3 : ∀ c w f r v, o ≠ .wset c w f r v) (hw : o.wf = true)
    (he : s.runCtl t p 0 1 o = (s.threadFault t p cause 1, .stop)) : s.insn t 0 o = s.threadFault t p cause 1 := by
  obtain ⟨hr, ht⟩ := hc
  exact State.insn_eq hr (State.ctlCause_control ht h1 h2 h3) hw he
    (fun k => by rw [State.threadFault_thread]; exact nofun)

theorem insn_ldp_stops (h : privOk (effAddr (s.threads[t].sget a) imm) 8 = false) :
    s.insn t 0 (.ldp d a imm) = s.threadFault t p 17 1 :=
  insn_stops hc nofun nofun nofun rfl (by simp only [State.runCtl, h, Bool.false_eq_true, if_false])

theorem insn_stp_stops (h : privOk (effAddr (s.threads[t].sget a) imm) 8 = false) :
    s.insn t 0 (.stp d a imm) = s.threadFault t p 17 1 :=
  insn_stops hc nofun nofun nofun rfl (by simp only [State.runCtl, h, Bool.false_eq_true, if_false])

theorem insn_dput_stops (hd : (s.threads[t].sget d).toNat < 4096) (h : privOk (s.threads[t].sget a).toNat 64 = false) :
    s.insn t 0 (.dput d a) = s.threadFault t p 17 1 :=
  insn_stops hc nofun nofun nofun rfl (runDesc_stops false hd h)

theorem insn_dget_stops (hd : (s.threads[t].sget d).toNat < 4096) (h : privOk (s.threads[t].sget a).toNat 64 = false) :
    s.insn t 0 (.dget d a) = s.threadFault t p 17 1 :=
  insn_stops hc nofun nofun nofun rfl (runDesc_stops true hd h)

end DataMemory

/-- What a store to the thread's own data memory changes: the eight bytes, of its thread only. -/
theorem stored_private {s : State} (hs : Safety.sound s) (t : ThreadId) (x : Nat) (d : SReg) :
    let u := s.onThread t (fun k => { k with priv := k.priv.writeN x (leBytes 8 (k.sget d).toNat) })
    sameButThread s u t ∧ { u.threads[t] with priv := s.threads[t].priv } = s.threads[t] ∧
      (∀ i, i < 8 → u.threads[t].priv.read (x + i) = BitVec.ofNat 8 ((s.threads[t].sget d).toNat / 256 ^ i)) ∧
      ∀ j, (j < x ∨ x + 8 ≤ j) → u.threads[t].priv.read j = s.threads[t].priv.read j := by
  intro u
  obtain ⟨-, ⟨-, hpriv⟩, -⟩ := hs
  have hthread : u.threads[t] =
      { s.threads[t] with priv := s.threads[t].priv.writeN x (leBytes 8 (s.threads[t].sget d).toNat) } := by simp [u]
  refine ⟨⟨otherThreads_onThread s t _, by apply State.eq_of_fields <;> simp [u]⟩, ?_, fun i hi => ?_, fun j hj => ?_⟩
  · rw [hthread]
  · have hlen : i < (leBytes 8 (s.threads[t].sget d).toNat).length := by rw [leBytes_length]; exact hi
    rw [hthread, Memory.read_writeN_inside _ x i (hpriv t) hlen]
    exact Option.some_inj.1 ((List.getElem?_eq_getElem hlen).symm.trans (leBytes_getElem? 8 _ i hi))
  · rw [hthread]
    exact Memory.read_writeN_outside _ x j (hpriv t) (by rwa [leBytes_length])

/-- What an access to it that is misaligned or out of range leaves (R302, Table 8-13). -/
theorem threadFault_private (s : State) (t : ThreadId) (p : PartId) :
    let u := s.threadFault t p 17 1
    u.threads[t].run = 5 ∧ u.threads[t].faultWord = 0x0111 ∧ u.threads[t].priv = s.threads[t].priv ∧
      u.threads[t].s = s.threads[t].s ∧ otherThreads s u t ∧
      { u with aon := s.aon, dict := s.dict, link := s.link, threads := s.threads } = s := by
  refine ⟨?_, ?_, ?_, ?_, s.threadFault_others t p 17 1, s.threadFault_frame t p 17 1⟩
  all_goals rw [State.threadFault_thread]
  rfl

/-! The device's own store. -/

/-- What a load of a word that can be read leaves. -/
theorem insn_ldg {s : State} {t : ThreadId} {p : PartId} (hc : onControl s t p) (d a : SReg) (imm : BitVec 14) {x : Nat}
    (hx : effAddr (s.threads[t].sget a) imm = x) (hl : s.isLocal x = true) (hn : s.accessCause p.val x 8 .read = none)
    (hread : readable s (gaOff x) 8) :
    s.insn t 0 (.ldg d a imm) =
      ((s.checkRead (gaOff x) 8).setS t d (BitVec.ofNat 64 (leValue s.store.mem (gaOff x) 8))).countLines (askerOf t)
        (gaOff x) 8 := by
  obtain ⟨hr, ht⟩ := hc
  have hfrom := (ReadFrom.refl s).checkRead hread
  refine State.insn_eq (n := .done) hr (State.ctlCause_control ht nofun nofun nofun) rfl ?_ (State.ready_no_memo hr ?_)
  · simp only [State.runCtl, State.runLdg, hx, hn, hl, if_true, hfrom.anyPoison hread, Bool.false_eq_true, if_false,
      State.readWord, State.readMem, hfrom.mem, ofLe_readN]
  · simp [State.setS]

theorem ldg_reads {s : State} {o : Nat} (hs : Safety.sound s) (hread : readable s o 8) (t : ThreadId) (d : SReg) (v : W64) :
    let u := ((s.checkRead o 8).setS t d v).countLines (askerOf t) o 8
    scalarTook s u t d v ∧ u.store.mem = s.store.mem ∧ onlyObjects s u lineKeys ∧
      { u with threads := s.threads, dict := s.dict, store := s.store } = s := by
  have hfrom := (ReadFrom.refl s).checkRead hread
  refine ⟨scalarTook_of_setS ?_, ?_, ?_, ?_⟩
  · simp [State.setS]
  · simp [hfrom.mem]
  · exact ((hfrom.counts.same (by simp)).countLines (askerOf t) o 8).onlyObjects (sglWf_of_sound hs)
  · apply State.eq_of_fields <;> simp [hfrom.aon]

/-- A store is its write of the eight bytes. -/
theorem insn_stg {s : State} {t : ThreadId} {p : PartId} (hc : onControl s t p) (d a : SReg) (imm : BitVec 14) {x : Nat}
    (hx : effAddr (s.threads[t].sget a) imm = x) (hl : s.isLocal x = true) (hn : s.accessCause p.val x 8 .write = none) :
    s.insn t 0 (.stg d a imm) =
      s.storeWrite (askerOf t) (wbytes (gaOff x) (leBytes 8 (s.threads[t].sget d).toNat)) := by
  obtain ⟨hr, ht⟩ := hc
  refine State.insn_eq (n := .done) hr (State.ctlCause_control ht nofun nofun nofun) rfl ?_ (State.ready_no_memo hr (by simp))
  simp only [State.runCtl, State.runStg, hx, hn, hl, if_true]

theorem stg_writes {s : State} {x : Nat} (hs : Safety.sound s) (hx : x % 8 = 0) (a : Asker) (v : Nat) :
    let u := s.storeWrite a (wbytes (gaOff x) (leBytes 8 v))
    stored s u (gaOff x) 8 v ∧ onlyObjects s u storeKeys ∧
      { u with aon := s.aon, link := s.link, dict := s.dict, store := s.store } = s := by
  have ho : gaOff x % 8 = 0 := by unfold gaOff; omega
  obtain ⟨-, ⟨hmem, -⟩, -⟩ := id hs
  refine ⟨State.storeWrite_word hmem a ho v,
    (s.storeWrite_counts a ho (leBytes_length 8 v)).onlyObjects (sglWf_of_sound hs), ?_⟩
  apply State.eq_of_fields <;> simp

/-- Settles O3: each access is one equation of `insn`, and what it leaves is read off the write, the fault or the read. -/
theorem loadsAndStoresReachTheirEightBytes : Obligations.LoadsAndStoresReachTheirEightBytes := by
  unfold Obligations.LoadsAndStoresReachTheirEightBytes
  constructor
  · intro s t p d a imm hc hs
    dsimp only
    rw [← effAddr_eq]
    refine ⟨fun hok => ?_, fun hbad c hcmd => ?_, fun hd hbad c hcmd => ?_⟩
    · have h := (privOk_iff _ 8).2 hok
      exact ⟨⟨_, by rw [exec_insnLdp, insn_ldp hc h], wroteScalar_setS s t d _⟩,
        ⟨_, by rw [exec_insnStp, insn_stp hc h], stored_private hs t _ _⟩⟩
    · have h := privOk_eq_false hbad
      have hstop : exec c s = .next (s.threadFault t p 17 1) := by
        rcases hcmd with rfl | rfl
        · rw [exec_insnLdp, insn_ldp_stops hc h]
        · rw [exec_insnStp, insn_stp_stops hc h]
      exact ⟨_, hstop, threadFault_private s t p⟩
    · have h := privOk_eq_false hbad
      have hstop : exec c s = .next (s.threadFault t p 17 1) := by
        rcases hcmd with rfl | rfl
        · rw [exec_insnDput, insn_dput_stops hc hd h]
        · rw [exec_insnDget, insn_dget_stops hc hd h]
      obtain ⟨hrun, hword, hpriv, -, hothers, hframe⟩ := threadFault_private s t p
      exact ⟨_, hstop, hrun, hword, hpriv, hothers, hframe⟩
  · intro s t p d a imm hc hs
    dsimp only
    rw [← effAddr_eq]
    intro hl
    exact ⟨fun hn hread => ⟨_, by rw [exec_insnLdg, insn_ldg hc d a imm rfl hl hn hread], ldg_reads hs hread t d _⟩,
      fun hn => ⟨_, by rw [exec_insnStg, insn_stg hc d a imm rfl hl hn], stg_writes hs (State.accessCause_aligned hn) _ _⟩⟩

end Sys2Proof.Machine
end

section
/-!
SUPPORT. The fetch of a clause (R293, R294): what the thread waits for, and the state that a fetch leaves.
-/
namespace Sys2Proof.Machine

open Sys2Proof.Claims

/-- Words to which the tail has moved past what thread `t` fetches next. -/
abbrev State.fetchAvail (s : State) (t : ThreadId) (r : Fin 80) : Nat := (s.rings[r].tail - s.nextFetch t r).toNat

/-- Words of the clause that thread `t` fetches next. -/
abbrev State.fetchWords (s : State) (t : ThreadId) (r : Fin 80) : Nat :=
  hdrWords (at! 0 (s.ringParcels r (s.nextFetch t r) 1) 0)

/-- The state in which thread `t` has fetched the next clause of ring `r`. -/
def State.fetched (s : State) (t : ThreadId) (r : Fin 80) : State :=
  let k := s.nextFetch t r
  let n := s.fetchWords t r
  let stop := k + BitVec.ofNat 32 n
  (((s.checkRing r k n).onThread t (fun h => { h with fetchq := h.fetchq ++ [(k, s.ringParcels r k n)] })).onRing r
    (fun q => { q with fetch := if (q.fetch - q.retire).toNat < (stop - q.retire).toNat then stop else q.fetch })).countLines
    (askerOf t) (gaOff (s.ringAddr r k)) (8 * n)

/-- Thread `t` of partition `p` may fetch from its ring `r`: it may step, nothing holds the partition, the ring is in use
and fewer than four clauses wait. -/
structure MayFetch (s : State) (t : ThreadId) (p : PartId) (r : Fin 80) : Prop where
  part : s.threadPart t = some p
  ring : s.threadRing t = some r
  go : s.threadGo t p = true
  held : s.partHeld p = false
  on : s.ringOn r = true
  room : s.threads[t].fetchq.length < 4

/-- Words of a ring that can be read. -/
def ringReadable (s : State) (r : Fin 80) (k : W32) (n : Nat) : Prop :=
  ∀ i, i < n → readable s (gaOff (s.ringAddr r (k + BitVec.ofNat 32 i))) 8

theorem ReadFrom.checkRing {s : State} {r : Fin 80} {k : W32} {n : Nat} (h : ringReadable s r k n) :
    ReadFrom s (s.checkRing r k n) :=
  (ReadFrom.refl s).forEach (fun i hi ht => ht.checkRead (h i (List.mem_range.1 hi)))

theorem ReadFrom.ringAddr {s u : State} (h : ReadFrom s u) (r : Fin 80) (k : W32) : u.ringAddr r k = s.ringAddr r k := by
  simp only [State.ringAddr, State.ringGeom, h.counts.sets.act]

/-- A word that can be read is not poisoned. -/
theorem poisoned_of_readable {s : State} {o : Nat} (h : readable s o 8) : s.poisoned o = false := by
  obtain ⟨-, hany⟩ := h
  unfold State.poisoned
  rw [List.contains_eq_mem, decide_eq_false_iff_not]
  intro hmem
  have hfar := List.any_eq_false.1 hany _ hmem
  simp only [Bool.and_eq_true, decide_eq_true_eq] at hfar
  omega

theorem ReadFrom.ringPoison {s u : State} (hu : ReadFrom s u) {r : Fin 80} {k : W32} {n : Nat} (h : ringReadable s r k n) :
    u.ringPoison r k n = false := by
  simp only [State.ringPoison, List.any_eq_false, List.mem_range, Bool.not_eq_true]
  intro i hi
  rw [hu.ringAddr, State.poisoned, hu.poison]
  exact poisoned_of_readable (h i hi)

section Fetch

variable {s : State} {t : ThreadId} {p : PartId} {r : Fin 80} (hf : MayFetch s t p r)

include hf

/-- Nothing is fetched until the tail has passed the clause. -/
theorem applyFetch_waits (h : s.fetchAvail t r = 0 ∨ s.fetchAvail t r < s.fetchWords t r) : s.applyFetch t = s := by
  simp only [State.applyFetch, hf.part, hf.ring, hf.go, hf.held, hf.on, Nat.not_le.2 hf.room, Bool.false_eq_true,
    reduceCtorEq, or_self, if_false]
  by_cases h0 : s.fetchAvail t r = 0
  · rw [if_pos h0]
  · rw [if_neg h0, if_pos (h.resolve_left h0)]

theorem applyFetch_takes (h0 : s.fetchAvail t r ≠ 0) (hn : s.fetchWords t r ≤ s.fetchAvail t r)
    (hread : ringReadable s r (s.nextFetch t r) (s.fetchWords t r)) : s.applyFetch t = s.fetched t r := by
  have hpoison := (ReadFrom.checkRing hread).ringPoison hread
  simp only [State.applyFetch, hf.part, hf.ring, hf.go, hf.held, hf.on, Nat.not_le.2 hf.room, Bool.false_eq_true,
    reduceCtorEq, or_self, if_false]
  rw [if_neg h0, if_neg (Nat.not_lt.2 hn), hpoison, if_neg Bool.false_ne_true]
  rfl

end Fetch

/-! What a fetch leaves. -/

section Fetched

variable {s : State} {t : ThreadId} {r : Fin 80} (h : ringReadable s r (s.nextFetch t r) (s.fetchWords t r))

include h

theorem State.fetched_threads : (s.fetched t r).threads = (s.onThread t (fun h => { h with
    fetchq := h.fetchq ++ [(s.nextFetch t r, s.ringParcels r (s.nextFetch t r) (s.fetchWords t r))] })).threads := by
  simp [State.fetched, (ReadFrom.checkRing h).threads, State.onThread]

theorem State.fetched_rings : (s.fetched t r).rings = (s.onRing r (fun q =>
    let stop := s.nextFetch t r + BitVec.ofNat 32 (s.fetchWords t r)
    { q with fetch := if (q.fetch - q.retire).toNat < (stop - q.retire).toNat then stop else q.fetch })).rings := by
  simp [State.fetched, (ReadFrom.checkRing h).rings, State.onRing]

/-- The fetch pointer goes up to the end of the clause, and never back. -/
theorem State.fetched_fetch :
    ((s.fetched t r).rings[r].fetch - s.rings[r].retire).toNat =
      max (s.rings[r].fetch - s.rings[r].retire).toNat
        (s.nextFetch t r + BitVec.ofNat 32 (s.fetchWords t r) - s.rings[r].retire).toNat := by
  rw [State.fetched_rings h]
  simp only [State.onRing_rings, Fin.getElem_fin, vmod_get_self]
  split <;> omega

theorem State.fetched_mem : (s.fetched t r).store.mem = s.store.mem := by simp [State.fetched, (ReadFrom.checkRing h).mem]

theorem State.fetched_counts : CountsIn lineKeys s (s.fetched t r) := by
  unfold State.fetched
  refine ((ReadFrom.checkRing h).counts.same ?_).countLines _ _ _
  simp

theorem State.fetched_frame :
    { s.fetched t r with dict := s.dict, store := s.store, rings := s.rings, threads := s.threads } = s := by
  have hframe := (ReadFrom.checkRing h).frame
  calc { s.fetched t r with dict := s.dict, store := s.store, rings := s.rings, threads := s.threads }
      = { s.checkRing r (s.nextFetch t r) (s.fetchWords t r) with
          dict := s.dict, store := s.store, rings := s.rings, threads := s.threads } := by
        apply State.eq_of_fields <;> simp [State.fetched]
    _ = s := congrArg (fun u : State => { u with rings := s.rings, threads := s.threads }) hframe

end Fetched

end Sys2Proof.Machine
end

section
/-!
SUPPORT. The execution of a clause (Table 8-10): its retirement, and the steps of a clause that has nothing to do.
-/
namespace Sys2Proof.Machine

open Sys2Proof.Claims

/-- Where the program counter goes when a clause that ends at `next` retires (R287, R295). -/
def ClauseSt.goesTo (c : ClauseSt) (next : W32) : W32 :=
  match c.redirect with
  | some n => BitVec.ofInt 32 n
  | none => next

/-- The hold point when a clause that ends at `next` retires (R297). -/
def ClauseSt.holdAfter (c : ClauseSt) (next : W32) (old : Option W32) : Option W32 :=
  if c.mark = some true then some next else if c.mark = some false then none else old

/-- The thread's clause has retired from ring `r`: the program counter is `pc`, the clause ended at `next`, and nothing else
of the thread's registers and of the device has changed. -/
def Retired (s u : State) (t : ThreadId) (r : Fin 80) (next pc : W32) : Prop :=
  let hold := s.threads[t].cl.holdAfter next s.rings[r].hold
  u.rings[r].pc = pc ∧ u.rings[r].hold = hold ∧ u.rings[r].retire = hold.getD pc ∧ u.rings[r].tail = s.rings[r].tail ∧
    u.threads[t].cl = ClauseSt.reset ∧ u.threads[t].clausesRetired = (s.threads[t].clausesRetired + 1) % 2 ^ 64 ∧
    u.threads[t].s = s.threads[t].s ∧ u.threads[t].m = s.threads[t].m ∧ otherThreads s u t ∧
    (∀ i, i ≠ r → u.rings[i] = s.rings[i]) ∧ { u with rings := s.rings, threads := s.threads } = s

/-- Step 7 from a state that differs from `s` in the thread's clause and fetched clauses only. -/
theorem retireClause_retired (s : State) (t : ThreadId) (r : Fin 80) (c : ClauseSt) (l : List (W32 × List W32))
    (hmark : c.mark = s.threads[t].cl.mark) :
    let next := s.rings[r].pc + BitVec.ofNat 32 c.words
    let u := (s.onThread t (fun h => { h with cl := c, fetchq := l })).retireClause t r
    Retired s u t r next (c.goesTo next) ∧ u.threads[t].fetchq = if c.redirect.isSome then [] else l := by
  intro next u
  have hring : u.rings[r] = { s.rings[r] with
      pc := c.goesTo next, hold := c.holdAfter next s.rings[r].hold,
      retire := (c.holdAfter next s.rings[r].hold).getD (c.goesTo next), fetch := u.rings[r].fetch } := by
    rcases hm : c.mark with _ | _ | _ <;> cases hto : c.redirect <;>
      simp [u, next, State.retireClause, ClauseSt.holdAfter, ClauseSt.goesTo, hm, hto]
  have hthread : u.threads[t] = { s.threads[t] with
      cl := ClauseSt.reset, fetchq := if c.redirect.isSome then [] else l,
      clausesRetired := (s.threads[t].clausesRetired + 1) % 2 ^ 64 } := by
    simp [u, State.retireClause, wrap64]
  have hhold : s.threads[t].cl.holdAfter next s.rings[r].hold = c.holdAfter next s.rings[r].hold := by
    simp only [ClauseSt.holdAfter, hmark]
  refine ⟨⟨?_, ?_, ?_, ?_, ?_, ?_, ?_, ?_, ?_, ?_, ?_⟩, ?_⟩
  · rw [hring]
  · rw [hring, hhold]
  · rw [hring, hhold]
  · rw [hring]
  · rw [hthread]
  · rw [hthread]
  · rw [hthread]
  · rw [hthread]
  · intro i hi
    simp [u, State.retireClause, vmod_get_ne _ _ _ _ (Ne.symm hi)]
  · intro i hi
    simp [u, State.retireClause, vmod_get_ne _ _ _ _ (Ne.symm hi)]
  · apply State.eq_of_fields <;> simp [u, State.retireClause]
  · rw [hthread]

/-- A clause at its last step retires. -/
theorem applyExecute_retires {s : State} {t : ThreadId} {p : PartId} {r : Fin 80} (hr : s.ready t = some p)
    (hring : s.threadRing t = some r) (ha : s.threads[t].cl.active = true) (h7 : s.threads[t].cl.step = 7) :
    s.applyExecute t = s.retireClause t r := by
  have hstep : s.clauseStep t p r = (s.retireClause t r, .stop) := by simp only [State.clauseStep, h7]
  simp only [State.applyExecute, hr, hring, ha, if_true, State.runClause, hstep]

/-! A clause that opens. -/

/-- The clause state of a thread that stands at part `sub` of step `step` of the clause with parcels `ps`. -/
def ClauseSt.standing (c : ClauseSt) (ps : List W32) (step sub : Nat) : ClauseSt :=
  { c with active := true, parcels := ps, words := ps.length / 2, step := step, sub := sub, pushed := [] }

/-- Thread `t` has taken the first of its fetched clauses, and `l` are left. -/
def State.opened (s : State) (t : ThreadId) (ps : List W32) (l : List (W32 × List W32)) (step sub : Nat) : State :=
  s.onThread t (fun h => { h with cl := s.threads[t].cl.standing ps step sub, fetchq := l })

theorem opened_thread (s : State) (t : ThreadId) (ps : List W32) (l : List (W32 × List W32)) (step sub : Nat) :
    (s.opened t ps l step sub).threads[t] = { s.threads[t] with cl := s.threads[t].cl.standing ps step sub, fetchq := l } := by
  simp [State.opened]

/-- A change of a thread depends on what it makes of that thread only. -/
theorem State.onThread_congr {s : State} {t : ThreadId} {f g : Thread → Thread} (h : f s.threads[t] = g s.threads[t]) :
    s.onThread t f = s.onThread t g := by simp only [State.onThread, vmod, h]

theorem State.onThread_onThread (s : State) (t : ThreadId) (f g : Thread → Thread) :
    (s.onThread t f).onThread t g = s.onThread t (fun h => g (f h)) := by
  simp [State.onThread, vmod, vset]

/-- The clause at the program counter opens at its first step. -/
theorem applyExecute_opens {s : State} {t : ThreadId} {p : PartId} {r : Fin 80} {ps : List W32} {l : List (W32 × List W32)}
    (hr : s.ready t = some p) (hring : s.threadRing t = some r) (ha : s.threads[t].cl.active = false)
    (hq : s.threads[t].fetchq = (s.rings[r].pc, ps) :: l) :
    s.applyExecute t = (s.opened t ps l 1 0).runClause t p r 10 := by
  simp only [State.applyExecute, hr, hring, ha, hq, Bool.false_eq_true, if_false, ne_eq, not_true_eq_false]
  rw [State.opened, State.onThread_congr]
  rfl

theorem State.runClause_done {s u : State} {t : ThreadId} {p : PartId} {r : Fin 80} (h : s.clauseStep t p r = (u, .done))
    (n : Nat) : s.runClause t p r (n + 1) = u.runClause t p r n := by rw [State.runClause, h]

theorem State.runClause_stop {s u : State} {t : ThreadId} {p : PartId} {r : Fin 80} (h : s.clauseStep t p r = (u, .stop))
    (n : Nat) : s.runClause t p r (n + 1) = u := by rw [State.runClause, h]

/-- A malformed clause stops its thread at the first step (R311). -/
theorem clauseStep_malformed {s : State} {t : ThreadId} {p : PartId} {ps : List W32} {l : List (W32 × List W32)}
    {cause slot : Nat} (h : (s.opened t ps l 1 0).clauseFault t p ps (ps.length / 2) = some (cause, slot)) (r : Fin 80) :
    (s.opened t ps l 1 0).clauseStep t p r = ((s.opened t ps l 1 0).threadFault t p cause slot, .stop) := by
  simp only [State.clauseStep, opened_thread, ClauseSt.standing, h]

section Idle

variable {s : State} {t : ThreadId} {p : PartId} {ps : List W32} {l : List (W32 × List W32)}
  (hlegal : ∀ u : State, u.dict = s.dict → u.clauseFault t p ps (ps.length / 2) = none) (hconj : conjSlot ps = none)
  (hctl0 : ctlSlot ps 0 = none) (hctl1 : ctlSlot ps 1 = none) (hstream : streamSlot ps = none)
  (hverb0 : verbSlot ps 0 = none) (hverb1 : verbSlot ps 1 = none)

/-- The next place of a clause from part `sub` of step `step` (Table 8-10). -/
def nextPlace (step sub : Nat) : Nat × Nat := if (step = 3 ∨ step = 5) ∧ sub = 0 then (step, 1) else (step + 1, 0)

theorem opened_advance (step sub : Nat) :
    (s.opened t ps l step sub).onThread t Thread.advance =
      s.opened t ps l (nextPlace step sub).1 (nextPlace step sub).2 := by
  rw [State.opened, State.onThread_onThread, State.opened]
  apply State.onThread_congr
  by_cases h : (step = 3 ∨ step = 5) ∧ sub = 0
  · simp [Thread.advance, ClauseSt.standing, nextPlace, h]
  · simp [Thread.advance, ClauseSt.standing, nextPlace, h]

include hlegal hconj hctl0 hctl1 hstream hverb0 hverb1

/-- A step at which a legal clause has no slot is done at once. -/
theorem clauseStep_idle (r : Fin 80) {step sub : Nat} (h1 : 1 ≤ step) (h6 : step ≤ 6) (hsub : sub = 0 ∨ sub = 1) :
    (s.opened t ps l step sub).clauseStep t p r =
      (s.opened t ps l (nextPlace step sub).1 (nextPlace step sub).2, .done) := by
  have hctl : ctlSlot ps sub = none := by rcases hsub with rfl | rfl <;> assumption
  have hverb : verbSlot ps sub = none := by rcases hsub with rfl | rfl <;> assumption
  have hfault := hlegal (s.opened t ps l step sub) rfl
  rw [← opened_advance]
  unfold State.clauseStep
  simp only [opened_thread]
  simp only [ClauseSt.standing, Thread.conjOf, hconj, Option.map_none]
  obtain rfl | rfl | rfl | rfl | rfl | rfl : step = 1 ∨ step = 2 ∨ step = 3 ∨ step = 4 ∨ step = 5 ∨ step = 6 := by omega
  · simp only [hfault]
  · rfl
  · simp only [hctl, Option.bind_none]
  · simp only [hstream]
  · simp only [hverb]
  · rfl

/-- A legal clause without slots goes through its steps and retires. -/
theorem runClause_idle (r : Fin 80) : (s.opened t ps l 1 0).runClause t p r 10 = (s.opened t ps l 7 0).retireClause t r := by
  have next (step sub step' sub' n : Nat) (hstep : 1 ≤ step ∧ step ≤ 6) (hsub : sub = 0 ∨ sub = 1)
      (hplace : nextPlace step sub = (step', sub')) :
      (s.opened t ps l step sub).runClause t p r (n + 1) = (s.opened t ps l step' sub').runClause t p r n := by
    have idle := clauseStep_idle (l := l) hlegal hconj hctl0 hctl1 hstream hverb0 hverb1 r hstep.1 hstep.2 hsub
    rw [State.runClause_done idle, hplace]
  have hend : (s.opened t ps l 7 0).clauseStep t p r = ((s.opened t ps l 7 0).retireClause t r, .stop) := by
    simp only [State.clauseStep, opened_thread, ClauseSt.standing]
  rw [next 1 0 2 0 9 (by omega) (.inl rfl) rfl, next 2 0 3 0 8 (by omega) (.inl rfl) rfl,
    next 3 0 3 1 7 (by omega) (.inl rfl) rfl, next 3 1 4 0 6 (by omega) (.inr rfl) rfl,
    next 4 0 5 0 5 (by omega) (.inl rfl) rfl, next 5 0 5 1 4 (by omega) (.inl rfl) rfl,
    next 5 1 6 0 3 (by omega) (.inr rfl) rfl, next 6 0 7 0 2 (by omega) (.inl rfl) rfl, State.runClause_stop hend]

end Idle

end Sys2Proof.Machine
end

section
/-!
PROOFS. Clauses are fetched whole and retire or stop (R293 to R297, R311): the statement's two parts, what holds of each, and
the state that refutes the first.
-/
namespace Sys2Proof.Machine

open Sys2Proof.Claims

/-- What the statement says of CLAUSE_FETCH, of a thread that may fetch. -/
def FetchesWhole (s : State) (t : ThreadId) (r : Fin 80) : Prop :=
  let k := s.nextFetch t r
  let avail := s.fetchAvail t r
  let n := s.fetchWords t r
  (avail = 0 → exec (.clauseFetch t) s = .next s) ∧
  (avail < n → exec (.clauseFetch t) s = .next s) ∧
  (avail ≠ 0 → n ≤ avail → ringReadable s r k n →
    ∃ u, exec (.clauseFetch t) s = .next u ∧
    u.threads[t] = { s.threads[t] with fetchq := s.threads[t].fetchq ++ [(k, s.ringParcels r k n)] } ∧
    otherThreads s u t ∧ (∀ i, i ≠ r → u.rings[i] = s.rings[i]) ∧
    { u.rings[r] with fetch := s.rings[r].fetch } = s.rings[r] ∧
    (u.rings[r].fetch - s.rings[r].retire).toNat =
      max (s.rings[r].fetch - s.rings[r].retire).toNat (k + BitVec.ofNat 32 n - s.rings[r].retire).toNat ∧
    u.store.mem = s.store.mem ∧ onlyObjects s u lineKeys ∧
    { u with dict := s.dict, store := s.store, rings := s.rings, threads := s.threads } = s)

/-- What the statement says of CLAUSE_EXECUTE, of a thread that may execute. -/
def RetiresOrStops (s : State) (t : ThreadId) (p : PartId) (r : Fin 80) (ps : List W32) (l : List (W32 × List W32)) : Prop :=
  let h := s.threads[t]
  let q := s.rings[r]
  (h.cl.active = true → h.cl.step = 7 →
    ∃ u, exec (.clauseExecute t) s = .next u ∧
      Retired s u t r (q.pc + BitVec.ofNat 32 h.cl.words) (h.cl.goesTo (q.pc + BitVec.ofNat 32 h.cl.words))) ∧
  (h.cl.active = false → h.fetchq = (q.pc, ps) :: l → h.cl.redirect = none → h.cl.mark = none →
    let next := q.pc + BitVec.ofNat 32 (ps.length / 2)
    ((∀ u : State, u.dict = s.dict → u.clauseFault t p ps (ps.length / 2) = none) → conjSlot ps = none →
      ctlSlot ps 0 = none → ctlSlot ps 1 = none → streamSlot ps = none → verbSlot ps 0 = none → verbSlot ps 1 = none →
      ∃ u, exec (.clauseExecute t) s = .next u ∧ Retired s u t r next next ∧ u.threads[t].fetchq = l) ∧
    ∀ cause slot, (∀ u : State, u.dict = s.dict → u.clauseFault t p ps (ps.length / 2) = some (cause, slot)) →
      ∃ u, exec (.clauseExecute t) s = .next u ∧ u.threads[t].run = 5 ∧ u.rings = s.rings ∧
        u.threads[t].faultWord = BitVec.ofNat 16 (cause + 2 ^ 8 * slot) ∧ u.threads[t].s = h.s ∧ u.store = s.store)

theorem exec_clauseFetch (s : State) (t : ThreadId) : exec (.clauseFetch t) s = .next (s.applyFetch t) := rfl
theorem exec_clauseExecute (s : State) (t : ThreadId) : exec (.clauseExecute t) s = .next (s.applyExecute t) := rfl

/-- The statement in its two parts. -/
theorem clausesFetchedAndRetired_iff : Obligations.ClausesAreFetchedWholeAndRetireOrStop ↔
    (∀ s t p r, MayFetch s t p r → FetchesWhole s t r) ∧
    ∀ s t p r ps l, s.ready t = some p → s.threadRing t = some r → RetiresOrStops s t p r ps l :=
  and_congr_left fun _ => ⟨fun h s t p r ⟨hp, hr, hgo, hheld, hon, hroom⟩ => h s t p r hp hr hgo hheld hon hroom,
    fun h s t p r hp hr hgo hheld hon hroom => h s t p r ⟨hp, hr, hgo, hheld, hon, hroom⟩⟩

/-- The second part holds. -/
theorem retiresOrStops {s : State} {t : ThreadId} {p : PartId} {r : Fin 80} (hr : s.ready t = some p)
    (hring : s.threadRing t = some r) (ps : List W32) (l : List (W32 × List W32)) : RetiresOrStops s t p r ps l := by
  refine ⟨fun ha h7 => ⟨_, exec_clauseExecute s t, ?_⟩, fun ha hq hto _ =>
    ⟨fun hlegal hconj hctl0 hctl1 hstream hverb0 hverb1 => ⟨_, exec_clauseExecute s t, ?_⟩,
      fun cause slot hbad => ⟨_, exec_clauseExecute s t, ?_⟩⟩⟩
  · have hsame : s.onThread t (fun h => { h with cl := s.threads[t].cl, fetchq := s.threads[t].fetchq }) = s :=
      State.onThread_same s t _ rfl
    have hretired := (retireClause_retired s t r s.threads[t].cl s.threads[t].fetchq rfl).1
    rw [hsame] at hretired
    rw [applyExecute_retires hr hring ha h7]
    exact hretired
  · obtain ⟨hretired, hleft⟩ := retireClause_retired s t r (s.threads[t].cl.standing ps 7 0) l rfl
    have hto' : (s.threads[t].cl.standing ps 7 0).redirect = none := hto
    have hpc (n : W32) : (s.threads[t].cl.standing ps 7 0).goesTo n = n := by simp only [ClauseSt.goesTo, hto']
    rw [applyExecute_opens hr hring ha hq, runClause_idle hlegal hconj hctl0 hctl1 hstream hverb0 hverb1]
    rw [hpc] at hretired
    rw [hto'] at hleft
    exact ⟨hretired, hleft⟩
  · rw [applyExecute_opens hr hring ha hq, State.runClause_stop (clauseStep_malformed (hbad _ rfl) r)]
    rw [State.threadFault_thread, opened_thread]
    simp [State.opened]

/-- The first part holds of every state whose plain objects are in canonical form. -/
theorem fetchesWhole_of_sglWf {s : State} (hs : s.sglWf) {t : ThreadId} {p : PartId} {r : Fin 80} (hf : MayFetch s t p r) :
    FetchesWhole s t r := by
  refine ⟨fun h0 => ?_, fun hlt => ?_, fun h0 hn hread => ⟨s.fetched t r, ?_, ?_, ?_, ?_, ?_, State.fetched_fetch hread,
    State.fetched_mem hread, (State.fetched_counts hread).onlyObjects hs, State.fetched_frame hread⟩⟩
  · rw [exec_clauseFetch, applyFetch_waits hf (.inl h0)]
  · rw [exec_clauseFetch, applyFetch_waits hf (.inr hlt)]
  · rw [exec_clauseFetch, applyFetch_takes hf h0 hn hread]
  · rw [State.fetched_threads hread]
    simp
  · exact otherThreads_congr (otherThreads_onThread s t _) (State.fetched_threads hread)
  · intro i hi
    rw [State.fetched_rings hread]
    simp [vmod_get_ne _ _ _ _ (Ne.symm hi)]
  · rw [State.fetched_rings hread]
    simp

/-- The statement, of the states that meet the promises. -/
theorem clausesFetchedAndRetired_of_sound {s : State} (hs : Safety.sound s) (t : ThreadId) (p : PartId) (r : Fin 80) :
    (MayFetch s t p r → FetchesWhole s t r) ∧
    ∀ ps l, s.ready t = some p → s.threadRing t = some r → RetiresOrStops s t p r ps l :=
  ⟨fetchesWhole_of_sglWf (sglWf_of_sound hs), fun ps l hr hring => retiresOrStops hr hring ps l⟩

/-- The device in Full, with core 0 of partition 0 at a clause ring in the deep tier whose tail has gone up to 1. Its plain
objects are listed out of order, an entry of ADDRESS_FAULTS behind one of TEL_NEAR_LINES that holds the default, 0: so
ADDRESS_FAULTS reads as its default. -/
def disorderedObjects : State :=
  (((((((((State.reset.onMood (fun m => { m with cur := .full, target := .full, before := .full })).setAct
    (K.partEnable 0) 1).setAct (K.coreMask 0) 1).setAct (K.ringEnable 0) 1).setAct (K.ringBase 0) deepBase).setAct
    (K.ringWords 0) 64).onDict (fun d => { d with shd := d.act, sgl := [(K.telNearLines, 0), (K.addressFaults, 7)] })).onPart 0
    (fun q => { q with state := 1 })).onRing 0 (fun q => { q with tail := 1 }))

theorem disorderedObjects_mayFetch : MayFetch disorderedObjects 0 0 0 := by
  constructor <;> decide +kernel

/-- The fetch of its line in the deep tier writes 0 to TEL_NEAR_LINES, which drops the entry in front. -/
theorem disorderedObjects_addressFaults :
    disorderedObjects.sgl K.addressFaults = 0 ∧ (disorderedObjects.applyFetch 0).sgl K.addressFaults = 7 := by
  decide +kernel

/-- Refutes O15: the statement asks for no promise of its state, and where the plain objects are not in canonical form, the
fetch's count of lines uncovers an entry of another object. Of a state that meets the promises, as every step leaves it
(`step_keeps_sound`), the statement holds: `clausesFetchedAndRetired_of_sound`. -/
theorem not_clausesAreFetchedWholeAndRetireOrStop : ¬ Obligations.ClausesAreFetchedWholeAndRetireOrStop := by
  rw [clausesFetchedAndRetired_iff]
  rintro ⟨hfetch, -⟩
  obtain ⟨-, -, htakes⟩ := hfetch disorderedObjects 0 0 0 disorderedObjects_mayFetch
  have hwords : disorderedObjects.fetchAvail 0 0 ≠ 0 ∧ disorderedObjects.fetchWords 0 0 ≤ disorderedObjects.fetchAvail 0 0 := by
    decide +kernel
  have hread : ringReadable disorderedObjects 0 (disorderedObjects.nextFetch 0 0) (disorderedObjects.fetchWords 0 0) :=
    fun _ _ => ⟨rfl, rfl⟩
  obtain ⟨u, hu, -, -, -, -, -, -, ⟨hobjects, -⟩, -⟩ := htakes hwords.1 hwords.2 hread
  cases hu
  have hkept := hobjects K.addressFaults (by decide)
  obtain ⟨hbefore, hafter⟩ := disorderedObjects_addressFaults
  omega

end Sys2Proof.Machine
end

section
/-!
SUPPORT. Preemption and resumption (R404 to R406): the states that they leave, and what these states hold.
-/
namespace Sys2Proof.Machine

open Sys2Proof.Claims

/-- A partition number below 16 names its partition. -/
theorem pid_val {n : Nat} (h : n < 16) : (pid n).val = n := Nat.mod_eq_of_lt h

/-! The chain configurations follow the verbs of a core; nothing else does. -/

@[simp] theorem CoreSt.tidy_active (k : CoreSt) : k.tidy.active = k.active := rfl
@[simp] theorem CoreSt.tidy_pre (k : CoreSt) : k.tidy.pre = k.pre := rfl
@[simp] theorem CoreSt.tidy_preemptReq (k : CoreSt) : k.tidy.preemptReq = k.preemptReq := rfl
@[simp] theorem CoreSt.tidy_lfsr (k : CoreSt) : k.tidy.lfsr = k.lfsr := rfl
@[simp] theorem CoreSt.tidy_wbuf (k : CoreSt) : k.tidy.wbuf = k.wbuf := rfl
@[simp] theorem CoreSt.tidy_flush (k : CoreSt) : k.tidy.flush = k.flush := rfl
@[simp] theorem CoreSt.tidy_flushFor (k : CoreSt) : k.tidy.flushFor = k.flushFor := rfl

/-! Contexts (R405). -/

theorem Verb.context_of_complete {v : Verb} (h : v.keeps = []) (g : W32) :
    v.context g = { v with stage := .preempted, rnd := some g } := by simp only [Verb.context, h]

theorem Verb.context_of_kept {v : Verb} {e : Keep} {l : List Keep} (h : v.keeps = e :: l) (g : W32) :
    v.context g = { v with stage := .preempted, done := e.tile, red := e.red, sums := e.sums, keeps := [],
                           rnd := some e.lfsr } := by simp only [Verb.context, h]

/-- A context is still its verb's. -/
theorem Verb.context_owner (v : Verb) (g : W32) : (v.context g).ticket = v.ticket ∧ (v.context g).thread = v.thread := by
  unfold Verb.context
  split <;> exact ⟨rfl, rfl⟩

/-! A core whose verb is preempted (R404, R422). -/

theorem CoreSt.preempt_leaves (k : CoreSt) (v : Verb) : (k.preempt v).active = none ∧ (k.preempt v).preemptReq = false :=
  ⟨rfl, rfl⟩

/-- With every tile complete, the context is the verb's own state. -/
theorem CoreSt.preempt_of_complete {v : Verb} (h : v.keeps = []) (k : CoreSt) :
    (k.preempt v).pre = some { v with stage := .preempted, rnd := some k.lfsr } ∧ (k.preempt v).lfsr = k.lfsr := by
  simp [CoreSt.preempt, Verb.context_of_complete h]

/-- Otherwise it is that of the first tile which is not complete, and the output from that tile on is discarded. -/
theorem CoreSt.preempt_of_kept {v : Verb} {e : Keep} {l : List Keep} (h : v.keeps = e :: l) (k : CoreSt) :
    (k.preempt v).pre = some { v with stage := .preempted, done := e.tile, red := e.red, sums := e.sums, keeps := [],
                                      rnd := some e.lfsr } ∧
      (k.preempt v).lfsr = e.lfsr ∧
      (k.preempt v).wbuf = k.wbuf.filter (fun t => !t.ofVerb v || t.begun || decide (t.tile < e.tile)) := by
  simp [CoreSt.preempt, Verb.context_of_kept h]

/-! Torn marks (R344, R345). -/

/-- From `s` to `u` the write entries of verb `v` are marked torn, or have lost their marks, and no other entry differs. -/
def TornMarks (s u : State) (v : Verb) (b : Bool) : Prop :=
  u.parts[pid v.part].sb = s.parts[pid v.part].sb.map (fun e =>
    if e.ticket = v.ticket then { e with torn := b && e.write } else e)

theorem tornMarks_of_parts {s u : State} {v : Verb} {b : Bool}
    (h : u.parts = vmod s.parts (pid v.part) (fun q => q.setTorn v.ticket b)) : TornMarks s u v b := by
  simp [TornMarks, h, Part.setTorn]

/-! The state after a preemption. -/

/-- The running verb `v` of core `c` may give way: it was asked to, its core is powered and at a tile boundary, its partition
is not in reset, and no FLUSH abandons it. -/
structure GivesWay (s : State) (c : CoreId) (v : Verb) : Prop where
  active : s.cores[c].active = some v
  asked : s.cores[c].preemptReq = true
  up : s.coreUp c.val = true
  fault : s.inFault = false
  tap : s.tapBusy c = false
  reset : s.parts[pid v.part].state ≠ 6
  stream : v.op = .scatter → v.red.stream = 0
  spared : s.flushKills c v = false

/-- The state in which verb `v` has left core `c`, its context kept and its entries marked, and nothing is counted yet. -/
def State.gaveWay (s : State) (c : CoreId) (v : Verb) : State :=
  (((if v.op = .rotate then s.leaveMesh c else s).onCore c (fun k => k.preempt v)).syncMesh c v.part).onPart (pid v.part)
    (fun q => q.setTorn v.ticket true)

/-- The same once the marking and the preemption are counted. -/
def State.preempted (s : State) (c : CoreId) (v : Verb) : State :=
  ((s.gaveWay c v).bump (K.tornMarked v.part)).bump (K.preemptions c.val)

theorem State.preempted_cores (s : State) (c : CoreId) (v : Verb) :
    (s.preempted c v).cores = vmod s.cores c (fun k => k.preempt v) := by
  unfold State.preempted State.gaveWay State.syncMesh
  split <;> split <;> rfl

theorem State.preempted_core (s : State) (c : CoreId) (v : Verb) : (s.preempted c v).cores[c] = s.cores[c].preempt v := by
  simp [State.preempted_cores]

theorem State.preempted_parts (s : State) (c : CoreId) (v : Verb) :
    (s.preempted c v).parts = vmod s.parts (pid v.part) (fun q => q.setTorn v.ticket true) := by
  unfold State.preempted State.gaveWay State.syncMesh
  split <;> split <;> rfl

theorem State.preempted_mesh {s : State} {v : Verb} (h : v.op ≠ .rotate) (c : CoreId) : (s.preempted c v).mesh = s.mesh := by
  unfold State.preempted State.gaveWay State.syncMesh
  rw [if_neg h]
  split <;> rfl

theorem State.preempted_frame (s : State) (c : CoreId) (v : Verb) :
    { s.preempted c v with dict := s.dict, parts := s.parts, cores := s.cores, mesh := s.mesh } = s := by
  unfold State.preempted State.gaveWay State.syncMesh State.setMeshCount State.leaveMesh
  split <;> split <;> apply State.eq_of_fields <;> simp

/-- Only MESH_LOG_COUNTS may follow, which is no plain object. -/
theorem State.gaveWay_sgl (s : State) (c : CoreId) (v : Verb) : (s.gaveWay c v).dict.sgl = s.dict.sgl := by
  unfold State.gaveWay State.syncMesh
  split <;> split <;> rfl

theorem State.gaveWay_dict {s : State} {v : Verb} (h : s.meshRecord v.part = false) (c : CoreId) :
    (s.gaveWay c v).dict = s.dict := by
  have hoff : ¬ ((if v.op = .rotate then s.leaveMesh c else s).onCore c (fun k => k.preempt v)).meshRecord v.part = true := by
    split <;> exact Bool.eq_false_iff.1 h
  unfold State.gaveWay State.syncMesh
  rw [if_neg hoff]
  split <;> rfl

/-- What is counted: the marking, once, and the preemption (R344). -/
theorem State.preempted_counts {s : State} (hs : s.sglWf) (c : CoreId) (v : Verb) :
    (s.preempted c v).sgl (K.tornMarked v.part) = min (s.sgl (K.tornMarked v.part) + 1) 0xFFFFFFFF ∧
      (s.preempted c v).sgl (K.preemptions c.val) = min (s.sgl (K.preemptions c.val) + 1) 0xFFFFFFFF := by
  have hsame (k : Nat) : (s.gaveWay c v).sgl k = s.sgl k := by unfold State.sgl; rw [State.gaveWay_sgl]
  have hwf : (s.gaveWay c v).sglWf := by unfold State.sglWf; rw [State.gaveWay_sgl]; exact hs
  have hne : K.tornMarked v.part ≠ K.preemptions c.val := by unfold K.tornMarked K.preemptions key; omega
  have hmarked := (State.bump_sets (s.gaveWay c v) (K.tornMarked v.part)).wf hwf
  constructor
  · rw [State.preempted, State.sgl_bump hmarked, if_neg hne, State.sgl_bump hwf, if_pos rfl, hsame]
  · rw [State.preempted, State.sgl_bump hmarked, if_pos rfl, State.sgl_bump hwf, if_neg hne.symm, hsame]

theorem State.preempted_countsIn {s : State} {v : Verb} (h : s.meshRecord v.part = false) (c : CoreId) :
    CountsIn [K.tornMarked v.part, K.preemptions c.val] s (s.preempted c v) :=
  (((CountsIn.refl _ s).same (State.gaveWay_dict h c)).bump (by simp)).bump (by simp)

/-- A preemption changes nothing of the pending FLUSHes. -/
theorem State.preempted_flushKills (s : State) (c : CoreId) (v : Verb) (g : W32) :
    (s.preempted c v).flushKills c (v.context g) = s.flushKills c v := by
  obtain ⟨hticket, hthread⟩ := v.context_owner g
  have hthreads : (s.preempted c v).threads = s.threads := by
    simpa using congrArg State.threads (s.preempted_frame c v)
  simp [State.flushKills, hticket, hthread, hthreads, State.preempted_cores, CoreSt.preempt]

theorem mayPreempt_of_givesWay {s : State} {c : CoreId} {v : Verb} (h : GivesWay s c v) : s.mayPreempt c v = true := by
  have hstream : (decide (v.op = .scatter) && decide (v.red.stream ≠ 0)) = false := by simpa using h.stream
  simp only [State.mayPreempt, h.asked, h.up, h.fault, h.tap, h.reset, hstream, Bool.not_false, Bool.and_self,
    ne_eq, not_false_eq_true, decide_true]

theorem applyPreemption_eq {s : State} {c : CoreId} {v : Verb} (h : GivesWay s c v) :
    s.applyPreemption c = s.preempted c v := by
  have hspared : (s.preempted c v).flushKills c (v.context s.cores[c].lfsr) = false := by
    rw [State.preempted_flushKills, h.spared]
  simp only [State.applyPreemption, h.active, mayPreempt_of_givesWay h, Bool.true_eq_false, if_false]
  exact if_neg (Bool.eq_false_iff.1 hspared)

/-! The state after a resumption. -/

/-- What the scale of its cluster now adds to the reservation of `v` (R168). -/
abbrev State.topUpOf (s : State) (c : CoreId) (v : Verb) : Nat := topUp v.res v.scale (s.scaleOf c.val)

/-- The verb that goes on when `v` resumes on core `c`. -/
def State.resumes (s : State) (c : CoreId) (v : Verb) : Verb :=
  { v with stage := .running, resumed := true, res := v.res + s.topUpOf c v, scale := max v.scale (s.scaleOf c.val),
           topWait := false, rnd := none }

/-- The state in which verb `v` has resumed on core `c`. -/
def State.resumed (s : State) (c : CoreId) (v : Verb) : State :=
  ((if s.topUpOf c v = 0 then s else s.reserve (pid v.part) (s.topUpOf c v)).onCore c (fun k =>
    CoreSt.tidy { k with pre := none, active := some (s.resumes c v), cfgA := (s.resumes c v).cfg,
                         lfsr := v.rnd.getD k.lfsr })).onPart (pid v.part) (fun q => q.setTorn v.ticket false)

/-- The preempted verb `v` of core `c` may resume, energy apart. -/
structure MayResume (s : State) (c : CoreId) (v : Verb) : Prop where
  pre : s.cores[c].pre = some v
  go : s.startGo c (pid v.part) = true
  free : s.cores[c].active = none

theorem applyResume_resumes {s : State} {c : CoreId} {v : Verb} (h : MayResume s c v)
    (henergy : s.topUpOf c v = 0 ∨ s.canReserve (pid v.part) (s.topUpOf c v) = true) :
    s.applyResume c = s.resumed c v := by
  have hnow : ¬ (s.topUpOf c v ≠ 0 ∧ s.canReserve (pid v.part) (s.topUpOf c v) = false) := by
    rintro ⟨hne, hno⟩
    rcases henergy with h0 | hyes
    · exact hne h0
    · exact Bool.eq_false_iff.1 hno hyes
  simp only [State.applyResume, h.pre, h.go, h.free, Bool.true_eq_false, Option.isSome_none, Bool.false_eq_true, or_self,
    if_false]
  rw [if_neg hnow]
  rfl

/-- The state in which the preempted verb `v` of core `c` waits for the energy of its top-up (R168). -/
def State.awaitsTopUp (s : State) (c : CoreId) (v : Verb) : State :=
  (s.bump (K.energyWaits v.part)).onCore c (fun k => { k with pre := some { v with topWait := true } })

theorem applyResume_waits {s : State} {c : CoreId} {v : Verb} (h : MayResume s c v) (hne : s.topUpOf c v ≠ 0)
    (hno : s.canReserve (pid v.part) (s.topUpOf c v) = false) (hfirst : v.topWait = false) :
    s.applyResume c = s.awaitsTopUp c v := by
  simp only [State.applyResume, h.pre, h.go, h.free, Bool.true_eq_false, Option.isSome_none, Bool.false_eq_true, or_self,
    if_false]
  rw [if_pos ⟨hne, hno⟩, hfirst]
  rfl

/-- The verb runs again, with the rounding state that its context kept. -/
theorem State.resumed_core (s : State) (c : CoreId) (v : Verb) :
    let k := (s.resumed c v).cores[c]
    k.pre = none ∧ k.active = some (s.resumes c v) ∧ k.lfsr = v.rnd.getD s.cores[c].lfsr := by
  unfold State.resumed
  split <;> simp [State.reserve]

theorem State.resumed_parts (s : State) (c : CoreId) (v : Verb) :
    (s.resumed c v).parts = vmod s.parts (pid v.part) (fun q => q.setTorn v.ticket false) := by
  unfold State.resumed
  split <;> rfl

theorem State.resumed_frame (s : State) (c : CoreId) (v : Verb) :
    { s.resumed c v with ledger := s.ledger, parts := s.parts, cores := s.cores } = s := by
  unfold State.resumed
  split <;> rfl

/-- The top-up moves from the balance of the partition to its reservations. -/
theorem State.resumed_ledger (s : State) (c : CoreId) (v : Verb) :
    let p := pid v.part
    (s.resumed c v).ledger.subs[p].reserved = s.ledger.subs[p].reserved + s.topUpOf c v ∧
      (s.resumed c v).ledger.subs[p].balance = s.ledger.subs[p].balance - s.topUpOf c v := by
  by_cases h : s.topUpOf c v = 0
  · simp [State.resumed, h]
  · simp [State.resumed, h, State.reserve, Ledger.reserve]

end Sys2Proof.Machine
end

section
/-!
PROOFS. Preempted verbs keep their context and resume (R344, R345, R404 to R406, R168).
-/
namespace Sys2Proof.Machine

open Sys2Proof.Claims

theorem exec_preemption (s : State) (c : CoreId) : exec (.preemption c) s = .next (s.applyPreemption c) := rfl
theorem exec_verbResume (s : State) (c : CoreId) : exec (.verbResume c) s = .next (s.applyResume c) := rfl

/-- Settles O14: a preemption and both outcomes of a resumption are each one state, whose fields are read off. -/
theorem preemptedVerbsKeepTheirContextAndResume : Obligations.PreemptedVerbsKeepTheirContextAndResume := by
  intro s c v hpart hs
  have hp : (pid v.part).val = v.part := pid_val hpart
  have hwf := sglWf_of_sound hs
  dsimp only
  rw [hp]
  refine ⟨fun hactive hasked hup hfault htap hreset hstream hspared => ?_, fun hpre hgo hfree henergy => ?_,
    fun hpre hgo hfree hne hno hfirst => ?_⟩
  · obtain ⟨hleft, hclear⟩ := s.cores[c].preempt_leaves v
    obtain ⟨htorn, hcount⟩ := State.preempted_counts hwf c v
    refine ⟨s.preempted c v, ?_, ?_⟩
    · rw [exec_preemption, applyPreemption_eq ⟨hactive, hasked, hup, hfault, htap, hreset, hstream, hspared⟩]
    · rw [s.preempted_core c v]
      exact ⟨hleft, fun hall => CoreSt.preempt_of_complete hall _, fun e l hkept => CoreSt.preempt_of_kept hkept _, hclear,
        tornMarks_of_parts (s.preempted_parts c v), htorn, hcount,
        fun hmesh => (State.preempted_countsIn hmesh c).onlyObjects hwf, fun hop => State.preempted_mesh hop c,
        s.preempted_frame c v⟩
  · obtain ⟨hleft, hruns, hround⟩ := s.resumed_core c v
    obtain ⟨hreserved, hbalance⟩ := s.resumed_ledger c v
    refine ⟨s.resumed c v, ?_, hleft, hruns, hround, tornMarks_of_parts (s.resumed_parts c v), hreserved, hbalance,
      s.resumed_frame c v⟩
    rw [exec_verbResume, applyResume_resumes ⟨hpre, hgo, hfree⟩ henergy]
  · refine ⟨s.awaitsTopUp c v, ?_, ?_, rfl, (State.sgl_bump hwf _ _).trans (if_pos rfl)⟩
    · rw [exec_verbResume, applyResume_waits ⟨hpre, hgo, hfree⟩ hne hno hfirst]
    · simp [State.awaitsTopUp]

end Sys2Proof.Machine
end

section
/-!
SUPPORT. What a partition fault counts and records (R628 to R630), of whatever kind.
-/
namespace Sys2Proof.Machine

open Sys2Proof.Claims

/-- A record from a state with the log of `s` and the tick of `s`. -/
theorem logged_of_logRec {s u v : State} {src sev part a b : Nat} (hu : u.aon = s.aon)
    (hv : v.aon = (u.logRec src sev part a b).aon) : logged s v src sev part a b := by
  constructor
  · rw [hv, State.logRec_seq, hu]
  · rw [hv, State.logRec_recs, State.logRec_seq, State.tick, State.tick, hu]

/-- The objects that keep the first fault of a partition (R630). -/
abbrev keptFaultKeys (p : PartId) : List Nat := [K.partFault p.val, K.partFaultAddress p.val, K.partFaultTick p.val]

theorem CountsIn.keepFault {ks : List Nat} {s u : State} (h : CountsIn ks s u) {p : PartId} (hk : ∀ k ∈ keptFaultKeys p, k ∈ ks)
    (w a : Nat) : CountsIn ks s (u.keepFault p w a) := by
  unfold State.keepFault
  split
  · exact h
  · exact ((h.setSgl (hk _ (by simp)) w).setSgl (hk _ (by simp)) a).setSgl (hk _ (by simp)) _

theorem CountsIn.onPart {ks : List Nat} {s u : State} (h : CountsIn ks s u) (p : PartId) (f : Part → Part) :
    CountsIn ks s (u.onPart p f) := h.same rfl

theorem CountsIn.preemptAll {ks : List Nat} {s u : State} (h : CountsIn ks s u) (p : PartId) :
    CountsIn ks s (u.preemptAll p) := h.same (by simp)

/-- PART_FAULTS, which counts every fault, is none of the objects that keep the first, nor does a record count in it. -/
theorem partFaults_not_kept : ∀ p : PartId, K.partFaults p.val ∉ keptFaultKeys p ++ logKeys := by decide

/-- An address fault is counted in ADDRESS_FAULTS besides (R188). -/
theorem CountsIn.ofKind (s : State) (kind : Nat) :
    CountsIn [K.addressFaults] s (if kind = 1 then s.countAddrFault else s) := by
  split
  · exact (CountsIn.refl _ s).bump (by simp)
  · exact CountsIn.refl _ s

theorem partFaults_not_address : ∀ p : PartId, K.partFaults p.val ∉ [K.addressFaults] := by decide

theorem State.raiseFault_partFaults {s : State} (hs : s.sglWf) (p : PartId) (kind cause unit : Nat) (control : Bool)
    (ticket a : Nat) : (s.raiseFault p kind cause unit control ticket a).sgl (K.partFaults p.val) =
      min (s.sgl (K.partFaults p.val) + 1) 0xFFFFFFFF := by
  have hfirst := CountsIn.ofKind s kind
  unfold State.raiseFault
  dsimp only
  generalize (if kind = 1 then s.countAddrFault else s) = s1 at hfirst ⊢
  have hwf := hfirst.sets.wf hs
  have hkept := (CountsIn.refl (keptFaultKeys p ++ logKeys) (s1.bump (K.partFaults p.val))).keepFault
    (fun k hk => List.mem_append_left _ hk) (faultWord kind cause unit control ticket) a
  refine (CountsIn.others ((CountsIn.preemptAll (hkept.onPart p _) p).logRec (fun k hk => List.mem_append_right _ hk) _ _ _ _ _)
    ((State.bump_sets s1 _).wf hwf) _ (partFaults_not_kept p)).trans ?_
  rw [State.sgl_bump hwf, if_pos rfl, hfirst.others hs _ (partFaults_not_address p)]

theorem State.raiseFault_faulted (s : State) (p : PartId) (kind cause unit : Nat) (control : Bool) (ticket a : Nat) :
    (s.raiseFault p kind cause unit control ticket a).parts[p].faulted = true := by
  simp [State.raiseFault]

theorem State.raiseFault_logged (s : State) (p : PartId) (kind cause unit : Nat) (control : Bool) (ticket a : Nat) :
    logged s (s.raiseFault p kind cause unit control ticket a) (0x0200 + kind) 2 p.val
      (faultWord kind cause unit control ticket) a := by
  refine logged_of_logRec ?_ rfl
  split <;> simp

end Sys2Proof.Machine
end

section
/-!
SUPPORT. Messages that are sent (R354, R564), and the counter that takes a signal (R351).
-/
namespace Sys2Proof.Machine

open Sys2Proof.Claims

/-- The counts of flits sent, by port. -/
abbrev flitKeys : List Nat := (List.finRange 8).map (fun q : PortId => K.flitsTx q.val)

/-- From `s` to `u` messages have gone: the always-on island, the ledger, the store, the threads and the cores are as they
were, and no plain object has changed but the counts of flits sent. -/
structure Sends (s u : State) : Prop where
  aon : u.aon = s.aon
  ledger : u.ledger = s.ledger
  store : u.store = s.store
  threads : u.threads = s.threads
  cores : u.cores = s.cores
  counts : CountsIn flitKeys s u

namespace Sends

theorem refl (s : State) : Sends s s := ⟨rfl, rfl, rfl, rfl, rfl, CountsIn.refl _ s⟩

theorem onFab {s u : State} (h : Sends s u) (f : Fabric → Fabric) : Sends s (u.onFab f) :=
  ⟨h.aon, h.ledger, h.store, h.threads, h.cores, h.counts.same rfl⟩

theorem onPart {s u : State} (h : Sends s u) (p : PartId) (f : Part → Part) : Sends s (u.onPart p f) :=
  ⟨h.aon, h.ledger, h.store, h.threads, h.cores, h.counts.same rfl⟩

theorem sendFlit {s u : State} (h : Sends s u) (q : PortId) (ch : Fin 5) (m : Msg) : Sends s (u.sendFlit q ch m) where
  aon := h.aon
  ledger := h.ledger
  store := h.store
  threads := h.threads
  cores := h.cores
  counts := by
    have hport : K.flitsTx q.val ∈ flitKeys := List.mem_map_of_mem (List.mem_finRange q)
    exact ((h.counts.same (v := (u.creditsSent q).onPort q _) rfl).add64 hport 1).same rfl

theorem trySend {s u : State} (h : Sends s u) (m : Msg) (inPort : Option Nat) (inCh : Nat) :
    Sends s (u.trySend m inPort inCh).1 := by
  unfold State.trySend
  split
  · exact h
  · next q ch _ =>
    by_cases hcan : u.canSend q (Fin.ofNat 5 ch) = true
    · rw [if_pos hcan]
      dsimp only
      exact (h.sendFlit q _ m).onFab _
    · rw [if_neg hcan]
      exact h

theorem drainFrom {s : State} : ∀ (l : List Msg) {u : State}, Sends s u → Sends s (u.drainFrom l)
  | [], _, h => h.onFab _
  | m :: l, u, h => by
    have hsent := h.trySend m none 0
    unfold State.drainFrom
    split
    · next e =>
      rw [e] at hsent
      exact drainFrom l (hsent.onFab _)
    · next e =>
      rw [e] at hsent
      exact hsent.onFab _

theorem sendMsg {s u : State} (h : Sends s u) (m : Msg) : Sends s (u.sendMsg m) := drainFrom _ (h.onFab _)

theorem forEach {α : Type} {s : State} {f : State → α → State} (hf : ∀ {u : State} (a : α), Sends s u → Sends s (f u a)) :
    ∀ (l : List α) {u : State}, Sends s u → Sends s (u.forEach l f)
  | [], _, h => h
  | a :: l, _, h => forEach hf l (hf a h)

theorem answerWaits {s u : State} (h : Sends s u) (i : Nat) : Sends s (u.answerWaits i) :=
  forEach (fun _ k => k.sendMsg _) _ (h.onFab _)

/-- A signal kept in its owner's history (R625). -/
theorem keepSig {s u : State} (h : Sends s u) (i v dev part kind : Nat) : Sends s (u.keepSig i v dev part kind) := by
  unfold State.keepSig
  split
  · exact h
  · exact h.onPart _ _

end Sends

/-! The counter. -/

/-- Counter `i` has taken a signal of value `v`, which is counted. -/
def State.took (s : State) (i v : Nat) : State :=
  ((s.setConj i (sigValue (s.conjVal i) v)).onStore (fun t =>
    { t with sigAccepted := t.sigAccepted + 1, sigApplied := t.sigApplied + 1 })).add64 K.conjSignalsApplied 1

/-- The same, with the count and the record of one that saturates. -/
def State.tookAll (s : State) (i v : Nat) : State :=
  if 0xFFFFFFFF < s.conjVal i + v then
    ((s.took i v).bump K.conjSaturated).logRec 0x0243 1 noPart ((s.took i v).ga (conjOff i)) 0
  else s.took i v

/-- What a signal of a thread or a verb does beyond its counter is kept in the history, and answers wait registrations. -/
theorem applySignal_sends (s : State) (i v dev part : Nat) : Sends (s.tookAll i v) (s.applySignal i v dev part 0) :=
  ((Sends.refl _).keepSig ..).answerWaits i

/-- What a signal leaves: its counter goes up by `v` and saturates, both counted, and nothing else of the store, the threads,
the cores and the ledger changes. -/
def Signalled (s u : State) (i v : Nat) : Prop :=
  u.conjVal i = min (s.conjVal i + v) 0xFFFFFFFF ∧ (∀ j, j ≠ i → u.conjVal j = s.conjVal j) ∧
    u.sgl K.conjSignalsApplied = (s.sgl K.conjSignalsApplied + 1) % 2 ^ 64 ∧
    (0xFFFFFFFF < s.conjVal i + v → u.sgl K.conjSaturated = min (s.sgl K.conjSaturated + 1) 0xFFFFFFFF ∧
      logged s u 0x0243 1 noPart (s.ga (conjOff i)) 0) ∧
    (s.conjVal i + v ≤ 0xFFFFFFFF → u.sgl K.conjSaturated = s.sgl K.conjSaturated) ∧
    u.store.mem = s.store.mem ∧ u.threads = s.threads ∧ u.cores = s.cores ∧ u.ledger = s.ledger

theorem State.took_sgl {s : State} (hs : s.sglWf) (i v k : Nat) :
    (s.took i v).sgl k = if k = K.conjSignalsApplied then (s.sgl K.conjSignalsApplied + 1) % 2 ^ 64 else s.sgl k :=
  State.sgl_add64 (s := (s.setConj i (sigValue (s.conjVal i) v)).onStore _) hs _ 1 k

theorem State.took_conjVal {s : State} (hs : SMap.wf (fun _ => 0) s.store.conj = true) (i v j : Nat) :
    (s.took i v).conjVal j = if j = i then min (s.conjVal i + v) 0xFFFFFFFF else s.conjVal j :=
  SMap.get_set i j (sigValue (s.conjVal i) v) hs

/-- Beyond the store and the dictionary, the count and the record touch the log and the notifications only. -/
theorem State.tookAll_units (s : State) (i v : Nat) :
    (s.tookAll i v).store = (s.took i v).store ∧ (s.tookAll i v).threads = s.threads ∧ (s.tookAll i v).cores = s.cores ∧
      (s.tookAll i v).ledger = s.ledger := by
  unfold State.tookAll
  split <;> simp [State.took, State.setConj]

theorem State.took_wf {s : State} (hs : s.sglWf) (i v : Nat) : (s.took i v).sglWf :=
  (State.add64_sets ((s.setConj i (sigValue (s.conjVal i) v)).onStore _) _ 1).wf hs

theorem State.tookAll_wf {s : State} (hs : s.sglWf) (i v : Nat) : (s.tookAll i v).sglWf := by
  unfold State.tookAll
  split
  · exact (State.logRec_sets ..).wf ((State.bump_sets ..).wf (State.took_wf hs i v))
  · exact State.took_wf hs i v

/-- One that saturates is counted in CONJ_SATURATED and recorded (R351). -/
theorem State.tookAll_saturated {s : State} (hs : s.sglWf) {i v : Nat} (h : 0xFFFFFFFF < s.conjVal i + v) :
    (s.tookAll i v).sgl K.conjSaturated = min (s.sgl K.conjSaturated + 1) 0xFFFFFFFF ∧
      logged s (s.tookAll i v) 0x0243 1 noPart (s.ga (conjOff i)) 0 := by
  have hwf := State.took_wf hs i v
  have hbumped := (State.bump_sets (s.took i v) K.conjSaturated).wf hwf
  rw [State.tookAll, if_pos h]
  refine ⟨?_, logged_of_logRec ?_ rfl⟩
  · rw [State.sgl_logRec hbumped _ _ _ _ _ _ (by decide), State.sgl_bump hwf, if_pos rfl, State.took_sgl hs, if_neg (by decide)]
  · simp [State.took, State.setConj]

theorem State.tookAll_applied {s : State} (hs : s.sglWf) (i v : Nat) :
    (s.tookAll i v).sgl K.conjSignalsApplied = (s.sgl K.conjSignalsApplied + 1) % 2 ^ 64 := by
  have hwf := State.took_wf hs i v
  have hbumped := (State.bump_sets (s.took i v) K.conjSaturated).wf hwf
  unfold State.tookAll
  split
  · rw [State.sgl_logRec hbumped _ _ _ _ _ _ (by decide), State.sgl_bump hwf, if_neg (by decide), State.took_sgl hs, if_pos rfl]
  · rw [State.took_sgl hs, if_pos rfl]

theorem signalled_tookAll {s : State} (hs : Safety.sound s) (i v : Nat) : Signalled s (s.tookAll i v) i v := by
  obtain ⟨-, -, -, -, -, -, -, -, hconj⟩ := id hs
  have hwf := sglWf_of_sound hs
  obtain ⟨hstore, hthreads, hcores, hledger⟩ := s.tookAll_units i v
  have hval (j : Nat) : (s.tookAll i v).conjVal j = if j = i then min (s.conjVal i + v) 0xFFFFFFFF else s.conjVal j := by
    rw [State.conjVal, hstore]
    exact State.took_conjVal hconj i v j
  refine ⟨by rw [hval, if_pos rfl], fun j hj => by rw [hval, if_neg hj], State.tookAll_applied hwf i v,
    State.tookAll_saturated hwf, fun h => ?_, by rw [hstore]; rfl, hthreads, hcores, hledger⟩
  rw [State.tookAll, if_neg (Nat.not_lt.2 h), State.took_sgl hwf, if_neg (by decide)]

/-- Sending messages does not touch what a signal leaves. -/
theorem Signalled.of_sends {s u w : State} {i v : Nat} (h : Signalled s u i v) (hu : u.sglWf) (hw : Sends u w) :
    Signalled s w i v := by
  obtain ⟨hself, hothers, happlied, hover, hunder, hmem, hthreads, hcores, hledger⟩ := h
  have hval (j : Nat) : w.conjVal j = u.conjVal j := by rw [State.conjVal, hw.store, State.conjVal]
  have hsat : w.sgl K.conjSaturated = u.sgl K.conjSaturated := hw.counts.others hu _ (by decide)
  refine ⟨by rw [hval, hself], fun j hj => by rw [hval, hothers j hj], ?_, fun h => ?_, fun h => ?_, ?_, ?_, ?_, ?_⟩
  · rw [hw.counts.others hu _ (by decide), happlied]
  · obtain ⟨hcount, hlog⟩ := hover h
    rw [hsat, logged, hw.aon]
    exact ⟨hcount, hlog⟩
  · rw [hsat, hunder h]
  · rw [hw.store, hmem]
  · rw [hw.threads, hthreads]
  · rw [hw.cores, hcores]
  · rw [hw.ledger, hledger]

/-- A signal to a counter of this device to which the partition has a right (R347, R348, R351). -/
theorem emitSignal_signalled {s : State} (hs : Safety.sound s) (t : ThreadId) {p : PartId} {ref : Nat} (v : Nat)
    (hok : s.signalCause p ref = none) (hl : s.isLocal ref = true) :
    Signalled s (s.emitSignal t p ref v) (conjIdx (gaOff ref)) v := by
  simp only [State.emitSignal, hok, hl, if_true]
  exact (signalled_tookAll hs _ v).of_sends (State.tookAll_wf (sglWf_of_sound hs) _ v) (applySignal_sends s _ v _ _)

/-! A signal that is refused (R347, R348, R355). -/

/-- A refused right is counted where it is one. -/
theorem State.countRights_rest (s : State) (ref : Nat) :
    (s.countRights ref).aon = s.aon ∧ (s.countRights ref).store = s.store ∧ (s.countRights ref).threads = s.threads ∧
      CountsIn [K.conjRightsFaults] s (s.countRights ref) := by
  unfold State.countRights
  split
  · exact ⟨by simp, by simp, by simp, (CountsIn.refl _ s).bump (by simp)⟩
  · exact ⟨rfl, rfl, rfl, CountsIn.refl _ s⟩

theorem partFaults_not_rights : ∀ p : PartId, K.partFaults p.val ∉ [K.conjRightsFaults] := by decide

/-- What a partition fault of thread `t`'s own access to `ref`, of cause `n`, leaves: the thread holds, and the fault is
counted and recorded. -/
def AccessFaulted (s u : State) (t : ThreadId) (p : PartId) (n ref : Nat) : Prop :=
  u.store = s.store ∧ u.threads[t] = { s.threads[t] with holding := true } ∧ u.parts[p].faulted = true ∧
    u.sgl (K.partFaults p.val) = min (s.sgl (K.partFaults p.val) + 1) 0xFFFFFFFF ∧
    logged s u 0x0201 2 p.val (1 + 2 ^ 8 * n + 2 ^ 16 * (t.val % 64) + 2 ^ 22 * (if 64 ≤ t.val then 1 else 0)) ref

theorem State.holdThread_sgl (s : State) (t : ThreadId) (k : Nat) : (s.holdThread t).sgl k = s.sgl k := rfl

theorem logged_holdThread {s u : State} {src sev part a b : Nat} (h : logged s u src sev part a b) (t : ThreadId) :
    logged s (u.holdThread t) src sev part a b := h

theorem accessFaulted_of_cause {s : State} (hs : s.sglWf) (t : ThreadId) (p : PartId) (n ref : Nat) :
    AccessFaulted s (s.threadAccessFault t p 1 n ref) t p n ref := by
  have hword : faultWord 1 n (t.val % 64) (decide (64 ≤ t.val)) 0 =
      1 + 2 ^ 8 * n + 2 ^ 16 * (t.val % 64) + 2 ^ 22 * (if 64 ≤ t.val then 1 else 0) := by
    simp [faultWord, b2n]
  have hlog := s.raiseFault_logged p 1 n (t.val % 64) (decide (64 ≤ t.val)) 0 ref
  rw [hword] at hlog
  refine ⟨by simp, by simp [State.threadAccessFault, State.holdThread], ?_, ?_, logged_holdThread hlog t⟩
  · rw [State.threadAccessFault, State.holdThread, State.onThread_parts]
    exact s.raiseFault_faulted ..
  · rw [State.threadAccessFault, State.holdThread_sgl]
    exact State.raiseFault_partFaults hs ..

theorem emitSignal_refused {s : State} (hs : s.sglWf) (t : ThreadId) {p : PartId} {ref n : Nat} (v : Nat)
    (hbad : s.signalCause p ref = some n) : AccessFaulted s (s.emitSignal t p ref v) t p n ref := by
  obtain ⟨haon, hstore, hthreads, hcounts⟩ := s.countRights_rest ref
  obtain ⟨hstore', hthread, hfaulted, hcount, hlog⟩ := accessFaulted_of_cause (hcounts.sets.wf hs) t p n ref
  simp only [State.emitSignal, hbad]
  refine ⟨hstore'.trans hstore, by rw [hthread, hthreads], hfaulted, ?_, ?_⟩
  · rw [hcount, hcounts.others hs _ (partFaults_not_rights p)]
  · rwa [logged, haon, State.tick, haon] at hlog

end Sys2Proof.Machine
end

section
/-!
PROOFS. Signals of a thread's clause (R290, R347, R348, R351, R353, R355).
-/
namespace Sys2Proof.Machine

open Sys2Proof.Claims

/-- The verbs that thread `t`'s clause has pushed and that have not reached step 5 of their retirement (R290). -/
abbrev State.onTheirWay (s : State) (t : ThreadId) (p : PartId) : List Verb :=
  (s.verbsOf p.val).filter (fun w => decide (w.thread = t.val) && !w.waits6 && s.threads[t].cl.pushed.contains w.ticket)

theorem exec_signalNow {s : State} {t : ThreadId} {p : PartId} (hr : s.ready t = some p) (ref : W64) (v : W32) :
    exec (.signalNow t ref v) s = .next (s.emitSignal t p ref.toNat v.toNat) := by
  show Host.Outcome.next (s.applySignalNow t ref v) = _
  simp only [State.applySignalNow, hr]

/-- A signal at retirement is sent at once when no verb is on its way. -/
theorem exec_signalAtRetire {s : State} {t : ThreadId} {p : PartId} (hr : s.ready t = some p) (h : s.onTheirWay t p = [])
    (ref : W64) (v : W32) : exec (.signalAtRetire t ref v) s = .next (s.emitSignal t p ref.toNat v.toNat) := by
  show Host.Outcome.next (s.applySignalAtRetire t ref v) = _
  simp only [State.applySignalAtRetire, hr, h, List.isEmpty_nil, if_true]

/-- And else waits for the verbs that are. -/
theorem exec_signalAtRetire_waits {s : State} {t : ThreadId} {p : PartId} (hr : s.ready t = some p)
    (h : s.onTheirWay t p ≠ []) (ref : W64) (v : W32) : exec (.signalAtRetire t ref v) s =
      .next (s.onPart p (fun q => { q with
        sigs := q.sigs ++ [PendSig.mk t.val ref v ((s.onTheirWay t p).map (fun w => w.ticket)) false false] })) := by
  have hsome : (s.onTheirWay t p).isEmpty = false := List.isEmpty_eq_false_iff.2 h
  show Host.Outcome.next (s.applySignalAtRetire t ref v) = _
  simp only [State.applySignalAtRetire, hr, hsome, Bool.false_eq_true, if_false]

/-- Settles O17: both commands come to `emitSignal`, which adds to the counter or faults, or the signal joins those that wait. -/
theorem signalsAddToTheirCounterAndSaturate : Obligations.SignalsAddToTheirCounterAndSaturate := by
  intro s t p ref v hr hs
  refine ⟨fun hok hl => ?_, fun hlive => ?_, fun n hbad => ?_⟩
  · have hsignal := emitSignal_signalled hs t v.toNat hok hl
    exact ⟨⟨_, exec_signalNow hr ref v, hsignal⟩, fun hnone => ⟨_, exec_signalAtRetire hr hnone ref v, hsignal⟩⟩
  · exact ⟨_, exec_signalAtRetire_waits hr hlive ref v, rfl, by simp [State.onTheirWay]⟩
  · have hfault := emitSignal_refused (sglWf_of_sound hs) t v.toNat hbad
    exact ⟨⟨_, exec_signalNow hr ref v, hfault⟩, fun hnone => ⟨_, exec_signalAtRetire hr hnone ref v, hfault⟩⟩

end Sys2Proof.Machine
end

section
/-!
SUPPORT. A request that reaches the device, followed to its response (R53, R66 to R70, R79, R80), and the writes of the objects
that control one partition.
-/
namespace Sys2Proof.Machine

open Sys2Proof.Claims

/-! The PDU of a request (Table 3-4). -/

/-- A PDU before its CHECK. -/
def pduBody (op txn status : Nat) (o : ObjRef) (data : List Byte) : List Byte :=
  leBytes 1 0x10 ++ leBytes 1 op ++ leBytes 1 txn ++ leBytes 1 status ++ leBytes 2 o.idx.toNat ++ leBytes 1 o.sub.toNat ++
    leBytes 1 data.length ++ data

theorem pduBytes_eq (op txn status : Nat) (o : ObjRef) (data : List Byte) :
    pduBytes op txn status o data =
      pduBody op txn status o data ++ leBytes 2 (crc16 (pduBody op txn status o data)).toNat := rfl

@[simp] theorem pduBody_length (op txn status : Nat) (o : ObjRef) (data : List Byte) :
    (pduBody op txn status o data).length = 8 + data.length := by
  simp only [pduBody, List.length_append, leBytes_length]

/-- The body is what stands before the CHECK, and the CHECK is that of the body. -/
theorem pduBytes_split (op txn status : Nat) (o : ObjRef) (data : List Byte) :
    (pduBytes op txn status o data).take (8 + data.length) = pduBody op txn status o data ∧
      (pduBytes op txn status o data).drop (8 + data.length) = leBytes 2 (crc16 (pduBody op txn status o data)).toNat := by
  rw [pduBytes_eq]
  exact ⟨List.take_left' (pduBody_length ..), List.drop_left' (pduBody_length ..)⟩

theorem pduBytes_length (op txn status : Nat) (o : ObjRef) (data : List Byte) :
    (pduBytes op txn status o data).length = 10 + data.length := by
  rw [pduBytes_eq, List.length_append, pduBody_length, leBytes_length]
  omega

/-- A word is the one of its own little-endian bytes. -/
theorem ofNat_ofLe_leBytes {w : Nat} (x : BitVec w) {n : Nat} (hw : 2 ^ w = 256 ^ n) :
    BitVec.ofNat w (ofLe (leBytes n x.toNat)) = x := by
  rw [ofLe_leBytes, ← hw, Nat.mod_eq_of_lt x.isLt, BitVec.ofNat_toNat, BitVec.setWidth_eq]

/-- The PDU that request `h` of operation `op` on object `o` is read as. -/
def requestPdu (h : Head) (op : Byte) (o : ObjRef) (data : List Byte) : Pdu :=
  { proto := 0x10, op := op.toNat, txn := h.txn, status := 0, obj := o, data := data,
    check := crc16 (pduBody op.toNat h.txn.toNat 0 o data) }

theorem parsePdu_request (h : Head) (op : Byte) (o : ObjRef) {data : List Byte} (hd : data.length < 256) :
    parsePdu (pduBytes op.toNat h.txn.toNat 0 o data) = some (requestPdu h op o data) := by
  obtain ⟨htake, hdrop⟩ := pduBytes_split op.toNat h.txn.toNat 0 o data
  have hbyte (x : Byte) : BitVec.ofNat 8 x.toNat = x := by simp
  have hlength : (at! 0 (pduBytes op.toNat h.txn.toNat 0 o data) 7).toNat = data.length :=
    Nat.mod_eq_of_lt hd
  have hindex : BitVec.ofNat 16 (ofLe (((pduBytes op.toNat h.txn.toNat 0 o data).drop 4).take 2)) = o.idx :=
    ofNat_ofLe_leBytes o.idx (n := 2) rfl
  have hcheck : BitVec.ofNat 16 (ofLe (((pduBytes op.toNat h.txn.toNat 0 o data).drop (8 + data.length)).take 2)) =
      crc16 (pduBody op.toNat h.txn.toNat 0 o data) := by
    rw [hdrop, List.take_of_length_le (by simp)]
    exact ofNat_ofLe_leBytes _ (n := 2) rfl
  have hop : at! 0 (pduBytes op.toNat h.txn.toNat 0 o data) 1 = op := hbyte op
  have htxn : at! 0 (pduBytes op.toNat h.txn.toNat 0 o data) 2 = h.txn := hbyte h.txn
  have hsub : at! 0 (pduBytes op.toNat h.txn.toNat 0 o data) 6 = o.sub := hbyte o.sub
  simp only [parsePdu, hlength, htake, hcheck, hindex, hop, htxn, hsub, pduBytes_length, Nat.lt_irrefl, ne_eq, not_true_eq_false,
    or_self, if_false]
  rfl

/-! From the request to its response. -/

/-- The request is taken: the mailbox is busy with it. -/
def State.taken (s : State) (req : Requester) : State :=
  if req.via = .mbox then s.onMbox (fun m => { m with busy := true }) else s

/-- The response with answer `a` has been handed over and kept. -/
def State.handedOver (s : State) (h : Head) (q : Pdu) (a : Answer) : State :=
  (s.respond h.req (response h q.op a.status q.obj a.data)).keepDup h.req q (response h q.op a.status q.obj a.data)

/-- A request that reaches the device and whose class nothing holds is executed at once (R36, R53). -/
theorem ask_of_reaches {s : State} {h : Head} {o : ObjRef} (hr : reaches s h o) {op : Byte} {data : List Byte}
    (hd : data.length < 256) (hc : s.classHeld (classOf h.req (pduBytes op.toNat h.txn.toNat 0 o data)) = false) :
    s.ask h op.toNat o data =
      ((s.taken h.req).handedOver h (requestPdu h op o data) ((s.taken h.req).replyTo h.req (requestPdu h op o data))).forEach
        ((s.taken h.req).replyTo h.req (requestPdu h op o data)).effs (fun u e => u.applyEff h.req e) := by
  obtain ⟨hreach, hqueue, -, -, hbusy, hdups⟩ := hr
  have hfree : ¬ (h.req.via = .mbox ∧ s.link.mbox.busy = true) := fun ⟨hvia, hb⟩ => by simp [hbusy hvia] at hb
  have hlink : (s.taken h.req).link.dups = s.link.dups := by unfold State.taken; split <;> rfl
  have hnew : (s.taken h.req).duplicate h.req (requestPdu h op o data) = none := by
    rw [State.duplicate, hlink, Option.map_eq_none_iff, List.find?_eq_none]
    intro d hd hsame
    simp only [Bool.and_eq_true, decide_eq_true_eq] at hsame
    obtain ⟨⟨⟨hreq, htxn⟩, -⟩, -⟩ := hsame
    exact hdups d hd hreq htxn
  simp only [State.ask, State.request, hreach, hqueue, hc, hfree, Bool.true_eq_false, Bool.false_eq_true, or_self, if_false]
  change (s.taken h.req).handle h.req true _ = _
  simp only [State.handle, parsePdu_request h op o hd, hnew, if_true]
  rfl

/-- What a response leaves: transports `l`, and nothing else. -/
structure Responds (s : State) (l : Link) (h : Head) (op status : Nat) (o : ObjRef) (data : List Byte) : Prop where
  answered : answered s { s with link := l } h op status o data
  handed : handed s { s with link := l } h (response h op status o data)
  kept : linkKept s { s with link := l }

/-- Keeping the response for a repeated request changes none of it (R80). -/
theorem Responds.keep {s : State} {l : Link} {h : Head} {op status : Nat} {o : ObjRef} {data : List Byte}
    (hl : Responds s l h op status o data) (d : List Dup) : Responds s { l with dups := d } h op status o data :=
  ⟨hl.answered, hl.handed, hl.kept⟩

/-- A message on a vector sets its pending bit or is sent. -/
theorem State.msix_eq (s : State) (v : Nat) : ∃ b l, s.msix v =
    { s with link := { s.link with msixPba := b, out := s.link.out ++ l } } := by
  unfold State.msix
  dsimp only
  split
  · refine ⟨s.link.msixPba ||| BitVec.ofNat 64 (2 ^ (v % 64)), [], ?_⟩
    rw [List.append_nil]
    rfl
  · exact ⟨s.link.msixPba, [_], rfl⟩

theorem State.i3cRaise_eq (s : State) : ∃ l, s.i3cRaise = { s with link := { s.link with out := s.link.out ++ l } } := by
  have hsame : s = { s with link := { s.link with out := s.link.out ++ [] } } := by rw [List.append_nil]
  unfold State.i3cRaise
  split
  · exact ⟨[], hsame⟩
  split
  · exact ⟨[_], rfl⟩
  split
  · exact ⟨[_], rfl⟩
  · exact ⟨[], hsame⟩

theorem State.mboxPut_eq (s : State) (b : List Byte) : ∃ pba l, s.mboxPut b = { s with link := { s.link with
    mbox := { s.link.mbox with rsp := patch s.link.mbox.rsp 0 b, rspReady := true, busy := false },
    msixPba := pba, out := s.link.out ++ l } } := (s.onMbox _).msix_eq _

/-- A reachable mailbox takes a response when it is free, and else keeps it (R66). -/
theorem State.mboxRespond_of_hostUp {s : State} (hup : s.hostUp = true) (b : List Byte) : s.mboxRespond b =
    if s.link.mbox.rspReady = false ∧ s.link.mbox.waiting = [] then s.mboxPut b
    else s.onMbox (fun m => { m with waiting := m.waiting ++ [b], busy := true }) := by
  simp only [State.mboxRespond, hup, true_and, List.isEmpty_iff, Bool.not_true, Bool.or_false]

/-- A response is handed to the transport of its request (R57, R66, R79). -/
theorem respond_responds {s : State} {h : Head} (hr : s.canReach h.req.via = true) (op status : Nat) (o : ObjRef)
    (data : List Byte) : ∃ l, (s.taken h.req).respond h.req (response h op status o data) = { s with link := l } ∧
      Responds s l h op status o data := by
  cases hvia : h.req.via with
  | mbox =>
    have htaken : s.taken h.req = s.onMbox (fun m => { m with busy := true }) := if_pos hvia
    have hup : s.hostUp = true := by rwa [hvia] at hr
    simp only [State.respond, hvia, htaken]
    rw [State.mboxRespond_of_hostUp (s := (s.onMbox _).output _) hup]
    by_cases hfree : s.link.mbox.rspReady = false ∧ s.link.mbox.waiting = []
    · obtain ⟨pba, l, hput⟩ := State.mboxPut_eq ((s.onMbox (fun m => { m with busy := true })).output
        (.pdu h.req (response h op status o data))) (response h op status o data)
      refine ⟨_, (if_pos hfree).trans hput, ⟨l, by simp [State.onMbox, State.output]⟩, ?_, rfl⟩
      simp only [handed, hvia, if_pos hfree]
      rfl
    · refine ⟨_, (if_neg hfree).trans rfl, ⟨[], rfl⟩, ?_, rfl⟩
      simp only [handed, hvia, if_neg hfree]
      rfl
  | i3c =>
    have htaken : s.taken h.req = s := if_neg (by simp [hvia])
    obtain ⟨l, hraise⟩ := State.i3cRaise_eq ((s.output (.pdu h.req (response h op status o data))).onI3c
      (fun i => { i with rsp := i.rsp ++ [response h op status o data] }))
    simp only [State.respond, hvia, State.i3cRespond, htaken, hraise]
    exact ⟨_, rfl, ⟨l, by simp [State.onI3c, State.output]⟩, by simp only [handed, hvia]; rfl, rfl⟩
  | t1s =>
    have htaken : s.taken h.req = s := if_neg (by simp [hvia])
    simp only [State.respond, hvia, htaken]
    exact ⟨_, rfl, ⟨[], rfl⟩, by simp only [handed, hvia]; rfl, rfl⟩

theorem handedOver_responds {s : State} {h : Head} (hr : s.canReach h.req.via = true) (q : Pdu) (a : Answer) :
    ∃ l, (s.taken h.req).handedOver h q a = { s with link := l } ∧ Responds s l h q.op a.status q.obj a.data := by
  obtain ⟨l, hl, hresponds⟩ := respond_responds hr q.op a.status q.obj a.data
  exact ⟨_, by rw [State.handedOver, hl]; rfl, hresponds.keep _⟩

/-! Writes of scalar objects. -/

/-- The scalar object with key `k` and row `r`. -/
structure ScalarObj (k : Nat) (r : ObjRow) : Prop where
  named : key (objOf k).idx.toNat (objOf k).sub.toNat = k
  known : idxKnown (objOf k).idx.toNat = true
  row : objRow (objOf k).idx.toNat (objOf k).sub.toNat = some r
  size : sizeOf k = r.ty.size
  short : r.ty.size ≤ 8

namespace ScalarObj

variable {k : Nat} {r : ObjRow}

/-- A WRITE is answered by the checks of Table 3-6 on its value. -/
theorem replyTo_write (hk : ScalarObj k r) (s : State) (h : Head) (v : Nat) :
    s.replyTo h.req (requestPdu h 2 (objOf k) (leBytes r.ty.size v)) = s.answerWrite r k (leBytes r.ty.size v) := by
  have hlong : ¬ (maxData < (leBytes r.ty.size v).length) := by
    rw [leBytes_length]
    exact Nat.not_lt.2 (Nat.le_trans hk.short (by decide))
  simp only [State.replyTo, requestPdu, hlong, hk.known, hk.row, hk.named, ne_eq, not_true_eq_false, or_self, if_false,
    Bool.true_eq_false]
  rfl

end ScalarObj

/-- The objects of which a write is sampled in a class of its own, permitted in one build only, or acts on the whole device
(R4, R36, R53, R137, R236, R689). -/
def deviceKeys : List Nat :=
  [K.swapRequest, K.shadowRevert, K.moodRequest, K.resetCommand, K.deposit, K.poolLowMark, K.batterySoc, K.packVoltage,
    K.packResistance, K.packMaxCurrent, K.notifyTransport, K.conjValue, K.commission, K.pokeData, K.t1sEnable, K.i3cEnable,
    K.mboxVector] ++ (List.range 8).map K.portEnable

/-- An object with key `k` of which a write concerns one partition, and neither its ledger nor its reset nor a FLUSH. -/
structure PartControl (k : Nat) : Prop where
  device : k ∉ deviceKeys
  ledger : ∀ j ∈ [1, 6, 10, 11], instOf 0x2410 j 16 k = none
  reset : instOf 0x3010 6 16 k = none
  flush : flushUnit k = none

namespace PartControl

variable {k : Nat}

theorem ne (hk : PartControl k) {x : Nat} (hx : x ∈ deviceKeys) : k ≠ x := fun e => hk.device (e ▸ hx)

theorem class_nine (hk : PartControl k) {h : Head} {r : ObjRow} (ho : ScalarObj k r) {data : List Byte} (hd : data.length < 256) :
    (classOf h.req (pduBytes 2 h.txn.toNat 0 (objOf k) data)).1 = 9 := by
  have hbattery : ¬ (K.batterySoc ≤ k ∧ k ≤ K.packMaxCurrent) := by
    have h1 := hk.ne (x := K.batterySoc) (by decide)
    have h2 := hk.ne (x := K.packVoltage) (by decide)
    have h3 := hk.ne (x := K.packResistance) (by decide)
    have h4 := hk.ne (x := K.packMaxCurrent) (by decide)
    unfold K.batterySoc K.packVoltage K.packResistance K.packMaxCurrent key at *
    omega
  have hledger : [1, 6, 10, 11].findSome? (fun j => instOf 0x2410 j 16 k) = none := List.findSome?_eq_none_iff.2 hk.ledger
  have hparse : parsePdu (pduBytes 2 h.txn.toNat 0 (objOf k) data) = some (requestPdu h 2 (objOf k) data) :=
    parsePdu_request h 2 (objOf k) hd
  simp only [classOf, hparse]
  split
  · rfl
  · simp only [requestPdu, ho.named, hk.ne (x := K.resetCommand) (by decide), hk.ne (x := K.swapRequest) (by decide),
      hk.ne (x := K.deposit) (by decide), hk.ne (x := K.poolLowMark) (by decide), hbattery, or_self, if_false, hk.reset, hledger]

/-- A write of it is sampled in class 9, which nothing holds (R36, R41). -/
theorem class_free (hk : PartControl k) (s : State) (h : Head) {r : ObjRow} (ho : ScalarObj k r) {data : List Byte}
    (hd : data.length < 256) : s.classHeld (classOf h.req (pduBytes 2 h.txn.toNat 0 (objOf k) data)) = false := by
  have hnine := hk.class_nine (h := h) ho hd
  have hreset : classOf h.req (pduBytes 2 h.txn.toNat 0 (objOf k) data) ≠ (4, 0) := fun e => by simp [e] at hnine
  simp only [State.classHeld, hnine, hreset, decide_false, Bool.false_and, Bool.or_false]
  rfl

/-- Such a write is refused for a mood or a partition state or not at all. -/
theorem writeStatus (hk : PartControl k) (s : State) {r : ObjRow} {v : List Byte} (hacc : r.acc ≠ .ro) (hset : r.set = false)
    (hlen : badLength r k v.length = false) (hval : s.badValue r k v = 0) :
    s.writeStatus r k v = if s.moodRefuses k = true then 0x0C else 0 := by
  have hports : (List.range 8).any (fun q => decide (k = K.portEnable q)) = false := by
    rw [List.any_eq_false]
    intro q hq
    simpa using hk.ne (x := K.portEnable q) (List.mem_append_right _ (List.mem_map_of_mem hq))
  have hbuild : s.badBuild k (ofLe v) = false := by
    simp [State.badBuild, hports, hk.ne (x := K.t1sEnable) (by decide), hk.ne (x := K.i3cEnable) (by decide),
      hk.ne (x := K.notifyTransport) (by decide)]
  have hmood : s.moodRefusesValue k v = false := by
    simp [State.moodRefusesValue, hk.ne (x := K.moodRequest) (by decide), hk.ne (x := K.pokeData) (by decide)]
  have hswap : s.swapRefuses r k = false := by
    simp [State.swapRefuses, hset, hk.ne (x := K.swapRequest) (by decide), hk.ne (x := K.shadowRevert) (by decide)]
  simp [State.writeStatus, firstCode, hacc, hlen, hval, hbuild, hmood, hswap, hk.ne (x := K.swapRequest) (by decide)]

theorem ledgerWrite (hk : PartControl k) : ledgerWrite k = false := by
  simp [Machine.ledgerWrite, hk.ne (x := K.deposit) (by decide), hk.ne (x := K.poolLowMark) (by decide), hk.ledger]

/-- PART_RELEASE is refused by a partition that is not halted (R631). -/
theorem moodRefuses_release (hk : PartControl k) (s : State) {p : PartId} (hp : instOf 0x7810 5 16 k = some p.val) :
    s.moodRefuses k = (!s.enabled p.val || !([3, 4, 5].contains (s.partState p))) := by
  have hpid : pid p.val = p := Fin.ext (pid_val p.isLt)
  simp [State.moodRefuses, hk.ledgerWrite, hk.ne (x := K.swapRequest) (by decide), hk.ne (x := K.pokeData) (by decide), hk.reset,
    hk.flush, hp, hpid]

theorem moodRefuses_other (hk : PartControl k) (s : State) (hp : instOf 0x7810 5 16 k = none) : s.moodRefuses k = false := by
  simp [State.moodRefuses, hk.ledgerWrite, hk.ne (x := K.swapRequest) (by decide), hk.ne (x := K.pokeData) (by decide), hk.reset,
    hk.flush, hp]

/-- A write of it that passes its checks releases its partition or sets its STOP_AFTER (R631, R645). -/
theorem applyEff_own (hk : PartControl k) (s : State) (req : Requester) (v : List Byte)
    (hown : instOf 0x7810 5 16 k ≠ none ∨ instOf 0x7C10 2 16 k ≠ none) : s.applyEff req (.put k v) =
      (instOf 0x7810 5 16 k).elim ((instOf 0x7C10 2 16 k).elim s (fun p => s.applyStopAfter (pid p) (ofLe v)))
        (fun p => s.release (pid p)) := by
  have hput : s.applyEff req (.put k v) = s.applyPut k v := by
    simp [State.applyEff, hk.ne (x := K.mboxVector) (by decide)]
  rw [hput, State.applyPut]
  simp only [hk.ne (x := K.swapRequest) (by decide), hk.ne (x := K.shadowRevert) (by decide),
    hk.ne (x := K.moodRequest) (by decide), hk.ne (x := K.resetCommand) (by decide), hk.ne (x := K.deposit) (by decide),
    hk.ne (x := K.batterySoc) (by decide), hk.ne (x := K.packVoltage) (by decide), hk.ne (x := K.packResistance) (by decide),
    hk.ne (x := K.packMaxCurrent) (by decide), hk.ne (x := K.notifyTransport) (by decide), hk.ne (x := K.conjValue) (by decide),
    hk.ne (x := K.commission) (by decide), hk.ne (x := K.pokeData) (by decide), or_self, if_false, hk.ledger 1 (by decide),
    hk.ledger 10 (by decide), hk.reset]
  rcases hrelease : instOf 0x7810 5 16 k with _ | p
  · rcases hstop : instOf 0x7C10 2 16 k with _ | p
    · simp [hrelease, hstop] at hown
    · simp only [Option.elim_none, Option.elim_some]
  · simp only [Option.elim_some]

end PartControl

/-! From the command to its effect. -/

section Writes

variable {s : State} {h : Head} {k : Nat} {r : ObjRow} (hr : reaches s h (objOf k)) (ho : ScalarObj k r) (hk : PartControl k)

include hr ho hk

/-- A write of a control object that reaches the device is executed at once. -/
theorem askWrite_of_reaches (v : Nat) : s.askWrite h k v =
    ((s.taken h.req).handedOver h (requestPdu h 2 (objOf k) (leBytes r.ty.size v))
      ((s.taken h.req).answerWrite r k (leBytes r.ty.size v))).forEach
        ((s.taken h.req).answerWrite r k (leBytes r.ty.size v)).effs (fun u e => u.applyEff h.req e) := by
  have hd : (leBytes r.ty.size v).length < 256 := by
    rw [leBytes_length]
    exact Nat.lt_of_le_of_lt ho.short (by decide)
  rw [State.askWrite, ho.size, ← ho.replyTo_write]
  exact ask_of_reaches hr (op := 2) hd (hk.class_free s h ho hd)

/-- One that passes its checks is answered OK and takes effect (R53). -/
theorem askWrite_accepted {v : Nat} (hok : (s.taken h.req).writeStatus r k (leBytes r.ty.size v) = 0) :
    ∃ l, Responds s l h 2 0 (objOf k) [] ∧
      s.askWrite h k v = State.applyEff { s with link := l } h.req (.put k (leBytes r.ty.size v)) := by
  have hanswer : (s.taken h.req).answerWrite r k (leBytes r.ty.size v) =
      { status := 0, data := [], effs := [.put k (leBytes r.ty.size v)] } := by
    simp only [State.answerWrite, hok]
  obtain ⟨hreach, -⟩ := id hr
  obtain ⟨l, hl, hresponds⟩ := handedOver_responds hreach (requestPdu h 2 (objOf k) (leBytes r.ty.size v))
    { status := 0, data := [], effs := [.put k (leBytes r.ty.size v)] }
  exact ⟨l, hresponds, by rw [askWrite_of_reaches hr ho hk, hanswer, hl]; rfl⟩

/-- One that the mood or a partition's state refuses is answered MOOD and nothing more. -/
theorem askWrite_refused {v : Nat} (hbad : (s.taken h.req).writeStatus r k (leBytes r.ty.size v) = 0x0C) :
    answersOnly s (.next (s.askWrite h k v)) h 2 0x0C (objOf k) [] := by
  have hanswer : (s.taken h.req).answerWrite r k (leBytes r.ty.size v) = .only 0x0C := by
    simp only [State.answerWrite, hbad]
  obtain ⟨hreach, -⟩ := id hr
  obtain ⟨l, hl, hresponds⟩ := handedOver_responds hreach (requestPdu h 2 (objOf k) (leBytes r.ty.size v)) (.only 0x0C)
  have heq : s.askWrite h k v = { s with link := l } := by rw [askWrite_of_reaches hr ho hk, hanswer, hl]; rfl
  rw [heq]
  exact ⟨_, rfl, hresponds.answered, hresponds.handed, hresponds.kept, rfl⟩

end Writes

/-! PART_RELEASE and STOP_AFTER. -/

/-- The row of PART_RELEASE. -/
abbrev partReleaseRow : ObjRow :=
  { base := 0x7810, count := 16, sub := 5, subs := 1, step := 1, ty := .u8, acc := .wo, set := false, dflt := 0,
    perInst := false, chk := .codes [1] }

/-- The row of STOP_AFTER. -/
abbrev stopAfterRow : ObjRow :=
  { base := 0x7C10, count := 16, sub := 2, subs := 1, step := 1, ty := .u64, acc := .rw, set := false, dflt := 0,
    perInst := false, chk := .any }

theorem scalarObj_iff (k : Nat) (r : ObjRow) : ScalarObj k r ↔
    key (objOf k).idx.toNat (objOf k).sub.toNat = k ∧ idxKnown (objOf k).idx.toNat = true ∧
      objRow (objOf k).idx.toNat (objOf k).sub.toNat = some r ∧ sizeOf k = r.ty.size ∧ r.ty.size ≤ 8 :=
  ⟨fun ⟨a, b, c, d, e⟩ => ⟨a, b, c, d, e⟩, fun ⟨a, b, c, d, e⟩ => ⟨a, b, c, d, e⟩⟩

theorem partControl_iff (k : Nat) : PartControl k ↔ k ∉ deviceKeys ∧
    (∀ j ∈ [1, 6, 10, 11], instOf 0x2410 j 16 k = none) ∧ instOf 0x3010 6 16 k = none ∧ flushUnit k = none :=
  ⟨fun ⟨a, b, c, d⟩ => ⟨a, b, c, d⟩, fun ⟨a, b, c, d⟩ => ⟨a, b, c, d⟩⟩

theorem partRelease_scalar : ∀ p : PartId, ScalarObj (K.partRelease p.val) partReleaseRow := by
  simp only [scalarObj_iff]
  decide +kernel

theorem stopAfter_scalar : ∀ p : PartId, ScalarObj (K.stopAfter p.val) stopAfterRow := by
  simp only [scalarObj_iff]
  decide +kernel

theorem partRelease_control : ∀ p : PartId, PartControl (K.partRelease p.val) := by
  simp only [partControl_iff]
  decide +kernel

theorem stopAfter_control : ∀ p : PartId, PartControl (K.stopAfter p.val) := by
  simp only [partControl_iff]
  decide +kernel

theorem partRelease_inst : ∀ p : PartId, instOf 0x7810 5 16 (K.partRelease p.val) = some p.val := by decide
theorem stopAfter_inst : ∀ p : PartId, instOf 0x7C10 2 16 (K.stopAfter p.val) = some p.val := by decide
theorem stopAfter_not_release : ∀ p : PartId, instOf 0x7810 5 16 (K.stopAfter p.val) = none := by decide

end Sys2Proof.Machine
end

section
/-!
SUPPORT. Threads that are let go on, and what a record leaves of the transports (R631, R632, R645).
-/
namespace Sys2Proof.Machine

open Sys2Proof.Claims

/-- Let the threads of a list go on. -/
def State.letGo (s : State) (ts : List ThreadId) : State :=
  s.forEach ts (fun u t => u.onThread t (fun h => { h with holding := false }))

theorem State.letGo_thread (t : ThreadId) : ∀ (ts : List ThreadId) (s : State),
    (s.letGo ts).threads[t] = if t ∈ ts then { s.threads[t] with holding := false } else s.threads[t]
  | [], s => by simp [State.letGo]
  | a :: ts, s => by
    have hrest := State.letGo_thread t ts (s.onThread a (fun h => { h with holding := false }))
    have hstep : (s.letGo (a :: ts)) = (s.onThread a (fun h => { h with holding := false })).letGo ts := rfl
    rw [hstep, hrest]
    by_cases ha : a = t
    · subst ha
      simp
    · simp [ha, Ne.symm ha]

/-- Nothing but the threads changes. -/
theorem State.letGo_eq : ∀ (ts : List ThreadId) (s : State), s.letGo ts = { s with threads := (s.letGo ts).threads }
  | [], _ => rfl
  | a :: ts, s => State.letGo_eq ts (s.onThread a (fun h => { h with holding := false }))

@[simp] theorem State.letGo_rest (s : State) (ts : List ThreadId) :
    (s.letGo ts).aon = s.aon ∧ (s.letGo ts).dict = s.dict ∧ (s.letGo ts).ledger = s.ledger ∧ (s.letGo ts).link = s.link ∧
    (s.letGo ts).store = s.store ∧ (s.letGo ts).parts = s.parts ∧ (s.letGo ts).rings = s.rings ∧
    (s.letGo ts).cores = s.cores ∧ (s.letGo ts).tap = s.tap ∧ (s.letGo ts).ports = s.ports ∧ (s.letGo ts).pho = s.pho ∧
    (s.letGo ts).fab = s.fab ∧ (s.letGo ts).mesh = s.mesh ∧ (s.letGo ts).freeCtr = s.freeCtr ∧
    (s.letGo ts).pending = s.pending := by
  rw [State.letGo_eq]
  simp only [and_self]

/-- From `s` to `u` the threads of partition `p` go on, and no other thread changes. -/
def LetGo (s u : State) (p : PartId) : Prop := ∀ t,
  (t ∈ s.threadsOf p.val → u.threads[t] = { s.threads[t] with holding := false }) ∧
    (t ∉ s.threadsOf p.val → u.threads[t] = s.threads[t])

theorem letGo_of_threads {s u v : State} {p : PartId} (hv : v.threads = s.threads)
    (hu : u.threads = (v.letGo (s.threadsOf p.val)).threads) : LetGo s u p := by
  intro t
  rw [hu, State.letGo_thread, hv]
  exact ⟨fun ht => if_pos ht, fun ht => if_neg ht⟩

/-! What the device sends is only added to. -/

theorem State.notify_out (s : State) (src k v : Nat) : (s.notify src k v).link.out = s.link.out := by
  unfold State.notify
  split
  · rfl
  split <;> rfl

theorem State.logRec_out (s : State) (src sev part a b : Nat) :
    ∃ l, (s.logRec src sev part a b).link.out = s.link.out ++ l := by
  unfold State.logRec
  dsimp only
  generalize hcounted : State.add64 _ K.telRecords 1 = c
  have hout : c.link.out = s.link.out := by
    rw [← hcounted]
    split <;> rfl
  rw [State.notify_out]
  split
  · obtain ⟨pba, l, hmsg⟩ := State.msix_eq (c.onAon (fun n => { n with log := { n.log with msixSent := true } }))
      (c.sgl K.eventVector)
    exact ⟨l, by rw [hmsg]; exact congrArg (· ++ l) hout⟩
  · exact ⟨[], by rw [hout, List.append_nil]⟩

/-! Release (R631). -/

/-- A partition as its release leaves it. -/
def Part.released (q : Part) : Part :=
  { q with state := 1, faulted := false, halting := false, stopped := false, quiet := 0 }

theorem State.release_eq (s : State) (p : PartId) : s.release p =
    ((s.onPart p Part.released).letGo (s.threadsOf p.val)).logRec 0x0222 0 p.val s.parts[p].state 0 := rfl

/-- What the release of partition `p` leaves. -/
structure Released (s u : State) (p : PartId) : Prop where
  threads : LetGo s u p
  part : u.parts[p] = s.parts[p].released
  others : ∀ i, i ≠ p → u.parts[i] = s.parts[i]
  log : logged s u 0x0222 0 p.val s.parts[p].state 0
  frame : { u with aon := s.aon, dict := s.dict, link := s.link, parts := s.parts, threads := s.threads } = s

theorem State.release_released (s : State) (p : PartId) : Released s (s.release p) p := by
  generalize hv : s.onPart p Part.released = v
  have heq : s.release p = (v.letGo (s.threadsOf p.val)).logRec 0x0222 0 p.val s.parts[p].state 0 := by
    rw [← hv, State.release_eq]
  have hparts : (s.release p).parts = v.parts := by simp [heq]
  refine ⟨letGo_of_threads (v := v) (by simp [← hv]) (by simp [heq]), ?_, fun i hi => ?_, ?_, ?_⟩
  · simp [hparts, ← hv]
  · simp [hparts, ← hv, Ne.symm hi]
  · exact logged_of_logRec (u := v.letGo (s.threadsOf p.val)) (by simp [← hv]) (by rw [heq])
  · apply State.eq_of_fields <;> simp [heq, ← hv]

theorem State.release_out (s : State) (p : PartId) : ∃ l, (s.release p).link.out = s.link.out ++ l := by
  obtain ⟨l, hl⟩ := State.logRec_out ((s.onPart p Part.released).letGo (s.threadsOf p.val)) 0x0222 0 p.val s.parts[p].state 0
  exact ⟨l, by rw [State.release_eq, hl]; simp⟩

/-! Stop after N (R645 to R647). -/

/-- A write of STOP_AFTER before any thread goes on. -/
def State.stopSet (s : State) (p : PartId) (n : Nat) : State :=
  (s.setSgl (K.stopAfter p.val) n).setSgl (K.stopState p.val) (if n = 0 then 0 else 1)

theorem State.applyStopAfter_eq (s : State) (p : PartId) (n : Nat) : s.applyStopAfter p n =
    if s.parts[p].state ≠ 1 ∨ s.parts[p].halting = true then s.stopSet p n
    else (s.stopSet p n).letGo (s.threadsOf p.val) := rfl

theorem State.stopSet_counts (s : State) (p : PartId) (n : Nat) :
    CountsIn [K.stopAfter p.val, K.stopState p.val] s (s.stopSet p n) :=
  ((CountsIn.refl _ s).setSgl (by simp) n).setSgl (by simp) _

theorem stopAfter_ne_stopState (p : PartId) : K.stopAfter p.val ≠ K.stopState p.val := by
  unfold K.stopAfter K.stopState key
  omega

theorem State.stopSet_sgl {s : State} (hs : s.sglWf) (p : PartId) (n : Nat) :
    (s.stopSet p n).sgl (K.stopAfter p.val) = n ∧ (s.stopSet p n).sgl (K.stopState p.val) = if n = 0 then 0 else 1 := by
  have hset := (s.setSgl_sets (K.stopAfter p.val) n).wf hs
  unfold State.stopSet
  rw [State.sgl_setSgl hset, if_neg (stopAfter_ne_stopState p), State.sgl_setSgl hs, if_pos rfl, State.sgl_setSgl hset,
    if_pos rfl]
  exact ⟨rfl, rfl⟩

/-- What a write of `n` to STOP_AFTER leaves. -/
structure StopWritten (s u : State) (p : PartId) (n : Nat) : Prop where
  after : u.sgl (K.stopAfter p.val) = n
  state : u.sgl (K.stopState p.val) = if n = 0 then 0 else 1
  objects : onlyObjects s u [K.stopAfter p.val, K.stopState p.val]
  goOn : s.parts[p].state = 1 ∧ s.parts[p].halting = false → LetGo s u p
  stay : s.parts[p].state ≠ 1 ∨ s.parts[p].halting = true → u.threads = s.threads
  frame : { u with dict := s.dict, link := s.link, threads := s.threads } = s

theorem State.applyStopAfter_written {s : State} (hs : s.sglWf) (p : PartId) (n : Nat) :
    StopWritten s (s.applyStopAfter p n) p n := by
  have hdict : (s.applyStopAfter p n).dict = (s.stopSet p n).dict := by
    rw [State.applyStopAfter_eq]
    split
    · rfl
    · simp
  have hsgl (k : Nat) : (s.applyStopAfter p n).sgl k = (s.stopSet p n).sgl k := by rw [State.sgl, hdict, State.sgl]
  obtain ⟨hafter, hstate⟩ := State.stopSet_sgl hs p n
  refine ⟨by rw [hsgl, hafter], by rw [hsgl, hstate], ((s.stopSet_counts p n).same hdict).onlyObjects hs,
    fun ⟨h1, hgo⟩ => ?_, fun hheld => ?_, ?_⟩
  · refine letGo_of_threads (v := s.stopSet p n) rfl ?_
    rw [State.applyStopAfter_eq, if_neg (fun h => h.elim (fun h => h h1) (Bool.eq_false_iff.1 hgo))]
  · rw [State.applyStopAfter_eq, if_pos hheld]
    rfl
  · rw [State.applyStopAfter_eq]
    split
    · rfl
    · apply State.eq_of_fields <;> simp [State.stopSet]

theorem State.applyStopAfter_out (s : State) (p : PartId) (n : Nat) : (s.applyStopAfter p n).link.out = s.link.out := by
  rw [State.applyStopAfter_eq]
  split
  · rfl
  · simp [State.stopSet]

/-- STOP_REACHED's condition (R646). -/
theorem State.stopsAll_iff (s : State) (p : PartId) : s.stopsAll p = true ∧ s.busy p = false ↔
    (∃ t, t ∈ s.threadsOf p.val ∧ s.threads[t].holding = true) ∧ (∀ t, t ∈ s.threadsOf p.val →
      s.threads[t].holding = true ∨ (∃ ref v b tag n, s.threads[t].wait = .conj ref v b tag n) ∨
        (s.threads[t].wait = .none ∧ s.threads[t].run ≠ 5 ∧ s.ringEmpty t = true)) ∧ s.verbsOf p.val = [] := by
  have hstands (t : ThreadId) : s.stands t = true ↔ s.threads[t].holding = true ∨
      (∃ ref v b tag n, s.threads[t].wait = .conj ref v b tag n) ∨
        (s.threads[t].wait = .none ∧ s.threads[t].run ≠ 5 ∧ s.ringEmpty t = true) := by
    rw [State.stands, Bool.or_eq_true]
    refine or_congr_right ?_
    cases s.threads[t].wait <;> simp
  simp only [State.stopsAll, State.busy, Bool.and_eq_true, List.any_eq_true, List.all_eq_true, hstands, Bool.not_eq_false',
    List.isEmpty_iff, and_assoc]

/-- What reaching the stop leaves. -/
structure Stopped (s u : State) (p : PartId) : Prop where
  part : u.parts[p] = { s.parts[p] with state := 5, stopped := true }
  others : ∀ i, i ≠ p → u.parts[i] = s.parts[i]
  state : u.sgl (K.stopState p.val) = 2
  log : logged s u 0x0221 0 p.val (s.sgl (K.stopAfter p.val)) 0
  objects : onlyObjects s u (K.stopState p.val :: logKeys)
  frame : { u with aon := s.aon, dict := s.dict, link := s.link, parts := s.parts } = s

theorem stopState_not_logKeys : ∀ p : PartId, K.stopState p.val ∉ logKeys := by decide

theorem State.applyStopReached_stopped {s : State} (hs : s.sglWf) {p : PartId} (hon : s.enabled p.val = true)
    (h1 : s.parts[p].state = 1) (hgo : s.parts[p].halting = false) (hstops : s.stopsAll p = true ∧ s.busy p = false) :
    Stopped s (s.applyStopReached p) p := by
  obtain ⟨hall, hidle⟩ := hstops
  generalize hv : (s.onPart p (fun q => { q with state := 5, stopped := true })).setSgl (K.stopState p.val) 2 = v
  have heq : s.applyStopReached p = v.logRec 0x0221 0 p.val (s.sgl (K.stopAfter p.val)) 0 := by
    rw [← hv, State.applyStopReached, if_pos ⟨hon, h1, hgo, hall, hidle⟩]
  have hcounts : CountsIn (K.stopState p.val :: logKeys) s v := by
    rw [← hv]
    exact ((CountsIn.refl _ s).onPart p _).setSgl (by simp) 2
  have hparts : (s.applyStopReached p).parts = v.parts := by simp [heq]
  refine ⟨by simp [hparts, ← hv], fun i hi => by simp [hparts, ← hv, Ne.symm hi], ?_, ?_, ?_, ?_⟩
  · have hrecord := (CountsIn.refl logKeys v).logRec (fun _ hk => hk) 0x0221 0 p.val (s.sgl (K.stopAfter p.val)) 0
    rw [heq, hrecord.others (hcounts.sets.wf hs) _ (stopState_not_logKeys p), ← hv]
    exact (State.sgl_setSgl (s := s.onPart p _) hs _ 2 _).trans (if_pos rfl)
  · exact logged_of_logRec (u := v) (by simp [← hv]) (by rw [heq])
  · rw [heq]
    exact (hcounts.logRec (fun k hk => List.mem_cons_of_mem _ hk) _ _ _ _ _).onlyObjects hs
  · apply State.eq_of_fields <;> simp [heq, ← hv]

theorem State.applyStopReached_waits {s : State} {p : PartId} (hstops : ¬ (s.stopsAll p = true ∧ s.busy p = false)) :
    s.applyStopReached p = s := by
  rw [State.applyStopReached, if_neg]
  exact fun ⟨_, _, _, h⟩ => hstops h

/-! Reset (R647, Table 7-3). -/

/-- The objects of the stop are the last plain ones that a reset writes, to a state that keeps the promises. -/
theorem State.resetEffects_ends (s : State) (p : PartId) : ∃ v, Keeps s v ∧
    s.resetEffects p = (v.stopSet p 0).setDom (K.waitGraph p.val) [] := by
  refine ⟨_, ?_, rfl⟩
  have habandoned := State.forEach_keeps (l := s.coresOf p.val) (fun c k => State.abandonOn_keeps k p c) (Keeps.refl s)
  have hcores := State.forEach_keeps (l := s.coresOf p.val) (fun c k => State.clearPartCore_keeps k p c)
    (habandoned.onFab (fun f => { f with outstanding := f.outstanding.filter (fun r =>
      decide (r.part ≠ p.val) || decide (r.type = 0x03) || decide (r.type = 0x04)) }))
  have hthreads := State.forEach_keeps (l := (s.coresOf p.val).map (fun c => tid c.val) ++ s.ctlThread p.val)
    (fun t k => State.clearThread_keeps k t) hcores
  have hrings := State.forEach_keeps (l := (s.coresOf p.val).map (fun c => tid c.val)) (fun r k => State.zeroRing_keeps k r)
    (State.dropHeldDoorbells_keeps hthreads p)
  exact State.clearMeshCounts_keeps ((State.zeroCompl_keeps (State.zeroRing_keeps hrings _) p).onPart p _) p

theorem State.sgl_setDom (s : State) (k : Nat) (v : List Byte) (j : Nat) : (s.setDom k v).sgl j = s.sgl j := rfl

theorem stopKeys_not_resetCount : ∀ p : PartId, K.stopAfter p.val ≠ K.partResetCount p.val ∧
    K.stopState p.val ≠ K.partResetCount p.val := by decide

/-- A reset that completes zeroes STOP_AFTER and STOP_STATE (R647). -/
theorem applyResetComplete_stop {s : State} (hs : Safety.sound s) {p : PartId} (h6 : s.parts[p].state = 6)
    (htap : s.tapOwes p = false) (hfault : s.inFault = false) :
    (s.applyResetComplete p).sgl (K.stopAfter p.val) = 0 ∧ (s.applyResetComplete p).sgl (K.stopState p.val) = 0 := by
  obtain ⟨v, hkeeps, heq⟩ := s.resetEffects_ends p
  have hv := sglWf_of_sound (hkeeps.sound hs)
  have hstop := State.stopSet_sgl hv p 0
  have hwf : (s.resetEffects p).sglWf := sglWf_of_sound ((State.resetEffects_keeps (Keeps.refl s) p).sound hs)
  obtain ⟨hne, hne'⟩ := stopKeys_not_resetCount p
  have hgo : ¬ (s.parts[p].state ≠ 6 ∨ s.tapOwes p = true ∨ s.inFault = true) := by
    rintro (h | h | h)
    · exact h h6
    · exact Bool.eq_false_iff.1 htap h
    · exact Bool.eq_false_iff.1 hfault h
  have hreset : s.applyResetComplete p = (s.resetEffects p).bump32 (K.partResetCount p.val) := if_neg hgo
  have hsgl (k : Nat) : (s.resetEffects p).sgl k = (v.stopSet p 0).sgl k := by rw [heq, State.sgl_setDom]
  have hkept {k : Nat} (hk : k ≠ K.partResetCount p.val) : (s.applyResetComplete p).sgl k = (v.stopSet p 0).sgl k := by
    rw [hreset, State.sgl_bump32 hwf, if_neg hk, hsgl]
  rw [hkept hne, hkept hne']
  exact hstop

/-! Stalemate (R622, R625). -/

/-- What the stalemate of partition `p` leaves. -/
structure Stalemated (s u : State) (p : PartId) : Prop where
  part : u.parts[p] = { s.parts[p] with state := 3, quiet := 0 }
  others : ∀ i, i ≠ p → u.parts[i] = s.parts[i]
  tick : u.sgl (K.stalemateTick p.val) = s.tick
  count : u.sgl (K.stalemateCount p.val) = min (s.sgl (K.stalemateCount p.val) + 1) 0xFFFFFFFF
  graph : u.dsgl (K.waitGraph p.val) = s.graphOf p
  log : logged s u 0x0220 2 p.val s.tick 0
  frame : { u with aon := s.aon, dict := s.dict, link := s.link, parts := s.parts } = s

/-- The objects of a stalemate before its record. -/
def State.stalemateSet (s : State) (p : PartId) : State :=
  (((s.setSgl (K.stalemateTick p.val) s.tick).bump (K.stalemateCount p.val)).setDom (K.waitGraph p.val) (s.graphOf p)).onPart p
    (fun q => { q with state := 3, quiet := 0 })

theorem stalemateKeys_apart : ∀ p : PartId, K.stalemateTick p.val ≠ K.stalemateCount p.val ∧
    K.stalemateTick p.val ∉ logKeys ∧ K.stalemateCount p.val ∉ logKeys := by decide

theorem CountsIn.notify {ks : List Nat} {s u : State} (h : CountsIn ks s u) (hk : K.notifyDropped ∈ ks) (src k v : Nat) :
    CountsIn ks s (u.notify src k v) :=
  ⟨h.sets.trans (State.notify_sets u src k v), fun hs j hj => by
    have hne : j ≠ K.notifyDropped := fun e => hj (e ▸ hk)
    rw [State.sgl_notify (h.sets.wf hs) _ _ _ _ hne, h.others hs j hj]⟩

theorem State.stalemateSet_sgl {s : State} (hs : s.sglWf) (p : PartId) : (s.stalemateSet p).sglWf ∧
    (s.stalemateSet p).sgl (K.stalemateTick p.val) = s.tick ∧
    (s.stalemateSet p).sgl (K.stalemateCount p.val) = min (s.sgl (K.stalemateCount p.val) + 1) 0xFFFFFFFF := by
  have htick := (s.setSgl_sets (K.stalemateTick p.val) s.tick).wf hs
  obtain ⟨hne, -⟩ := stalemateKeys_apart p
  have hsgl (k : Nat) : (s.stalemateSet p).sgl k =
      ((s.setSgl (K.stalemateTick p.val) s.tick).bump (K.stalemateCount p.val)).sgl k := rfl
  refine ⟨(State.bump_sets _ (K.stalemateCount p.val)).wf htick, ?_, ?_⟩
  · rw [hsgl, State.sgl_bump htick, if_neg hne, State.sgl_setSgl hs, if_pos rfl]
  · rw [hsgl, State.sgl_bump htick, if_pos rfl, State.sgl_setSgl hs, if_neg hne.symm]

theorem State.applyStalemate_stalemated {s : State} (hs : Safety.sound s) {p : PartId} (hon : s.enabled p.val = true)
    (h1 : s.parts[p].state = 1) (hquiet : 256 ≤ s.parts[p].quiet) : Stalemated s (s.applyStalemate p) p := by
  obtain ⟨-, -, -, -, -, -, -, hdom, -⟩ := id hs
  obtain ⟨hwf, htick, hcount⟩ := State.stalemateSet_sgl (sglWf_of_sound hs) p
  obtain ⟨-, hnottick, hnotcount⟩ := stalemateKeys_apart p
  have heq : s.applyStalemate p =
      ((s.stalemateSet p).logRec 0x0220 2 p.val s.tick 0).notify 5 (K.stalemateTick p.val) s.tick := by
    rw [State.applyStalemate, if_pos ⟨h1, hon, hquiet⟩]
    rfl
  have hcounts : CountsIn logKeys (s.stalemateSet p) (s.applyStalemate p) := by
    rw [heq]
    exact ((CountsIn.refl logKeys _).logRec (fun _ hk => hk) _ _ _ _ _).notify (by simp [logKeys]) _ _ _
  have hparts : (s.applyStalemate p).parts = (s.stalemateSet p).parts := by simp [heq]
  refine ⟨by simp [hparts, State.stalemateSet], fun i hi => by simp [hparts, State.stalemateSet, Ne.symm hi],
    ?_, ?_, ?_, ?_, ?_⟩
  · rw [hcounts.others hwf _ hnottick, htick]
  · rw [hcounts.others hwf _ hnotcount, hcount]
  · rw [hcounts.sets.dsgl]
    exact (SMap.get_set _ _ _ hdom).trans (if_pos rfl)
  · exact logged_of_logRec (u := s.stalemateSet p) (by simp [State.stalemateSet]) (by rw [heq]; simp)
  · apply State.eq_of_fields <;> simp [heq, State.stalemateSet]

theorem State.applyStalemate_waits {s : State} {p : PartId}
    (h : s.enabled p.val = false ∨ s.parts[p].state ≠ 1 ∨ s.parts[p].quiet < 256) : s.applyStalemate p = s := by
  rw [State.applyStalemate, if_neg]
  rintro ⟨h1, hon, hquiet⟩
  rcases h with h | h | h
  · exact Bool.eq_false_iff.1 h hon
  · exact h h1
  · omega

end Sys2Proof.Machine
end

section
/-!
PROOFS. Partitions that stop, stand still and are released (R621, R622, R625, R631, R645 to R647).
-/
namespace Sys2Proof.Machine

open Sys2Proof.Claims

theorem exec_partRelease (s : State) (h : Head) (p : PartId) :
    exec (.partRelease h p) s = .next (s.askWrite h (K.partRelease p.val) 1) := rfl
theorem exec_stopAfter (s : State) (h : Head) (p : PartId) (n : W64) :
    exec (.stopAfter h p n) s = .next (s.askWrite h (K.stopAfter p.val) n.toNat) := rfl
theorem exec_stopReached (s : State) (p : PartId) : exec (.stopReached p) s = .next (s.applyStopReached p) := rfl
theorem exec_partResetComplete (s : State) (p : PartId) : exec (.partResetComplete p) s = .next (s.applyResetComplete p) := rfl
theorem exec_stalemate (s : State) (p : PartId) : exec (.stalemate p) s = .next (s.applyStalemate p) := rfl

/-- May partition `p` be released (R631)? -/
def State.releasable (s : State) (p : PartId) : Bool := s.enabled p.val && [3, 4, 5].contains (s.partState p)

theorem State.releasable_taken (s : State) (req : Requester) (p : PartId) : (s.taken req).releasable p = s.releasable p := by
  unfold State.taken
  split <;> rfl

/-- PART_STATE shows a partition that is not running as it is (Table 7-2). -/
theorem partState_of_enabled {s : State} {p : PartId} (hon : s.enabled p.val = true) (h1 : s.parts[p].state ≠ 1) :
    s.partState p = s.parts[p].state := by
  rw [State.partState, if_neg (by simp [hon]), if_neg (fun h => h1 h.1)]

theorem releasable_of_halted {s : State} {p : PartId} (hon : s.enabled p.val = true)
    (h : s.parts[p].state = 3 ∨ s.parts[p].state = 4 ∨ s.parts[p].state = 5) : s.releasable p = true := by
  rw [State.releasable, hon, partState_of_enabled hon (by omega)]
  rcases h with h | h | h <;> rw [h] <;> rfl

theorem not_releasable {s : State} {p : PartId} (h : s.enabled p.val = false ∨ s.parts[p].state < 3 ∨ 5 < s.parts[p].state) :
    s.releasable p = false := by
  have hstate : s.enabled p.val = false ∨ s.partState p < 3 ∨ 5 < s.partState p := by
    by_cases hon : s.enabled p.val = true
    · unfold State.partState
      split
      · omega
      · split <;> omega
    · exact .inl (Bool.eq_false_iff.2 hon)
  rcases hstate with hoff | hstate
  · rw [State.releasable, hoff, Bool.false_and]
  · have hne : s.partState p ≠ 3 ∧ s.partState p ≠ 4 ∧ s.partState p ≠ 5 := by omega
    simp [State.releasable, hne]

theorem partRelease_status (s : State) (p : PartId) :
    s.writeStatus partReleaseRow (K.partRelease p.val) (leBytes partReleaseRow.ty.size 1) =
      if s.releasable p = true then 0 else 0x0C := by
  rw [(partRelease_control p).writeStatus s (by decide) rfl rfl rfl,
    (partRelease_control p).moodRefuses_release s (partRelease_inst p), ← Bool.not_and, ← State.releasable]
  cases s.releasable p <;> rfl

theorem stopAfter_status (s : State) (p : PartId) (n : Nat) :
    s.writeStatus stopAfterRow (K.stopAfter p.val) (leBytes stopAfterRow.ty.size n) = 0 := by
  rw [(stopAfter_control p).writeStatus s (by decide) rfl (by simp [badLength, Ty.size]) rfl,
    (stopAfter_control p).moodRefuses_other s (stopAfter_not_release p)]
  rfl

/-- What follows the response is sent after it. -/
theorem answered_of_responds {s u : State} {l : Link} {h : Head} {op status : Nat} {o : ObjRef} {data : List Byte}
    (hl : Responds s l h op status o data) {out : List Output} (hu : u.link.out = l.out ++ out) :
    answered s u h op status o data := by
  obtain ⟨rest, hout⟩ := hl.answered
  exact ⟨rest ++ out, by rw [hu, show l.out = _ from hout, List.append_assoc, List.cons_append]⟩

/-- A release does not rest on the transports. -/
theorem Released.of_link {s u : State} {l : Link} {p : PartId} (h : Released { s with link := l } u p) : Released s u p where
  threads := h.threads
  part := h.part
  others := h.others
  log := h.log
  frame := congrArg (fun u : State => { u with link := s.link }) h.frame

/-- Neither does a write of STOP_AFTER. -/
theorem StopWritten.of_link {s u : State} {l : Link} {p : PartId} {n : Nat} (h : StopWritten { s with link := l } u p n) :
    StopWritten s u p n where
  after := h.after
  state := h.state
  objects := h.objects
  goOn := h.goOn
  stay := h.stay
  frame := congrArg (fun u : State => { u with link := s.link }) h.frame

/-- PART_RELEASE of a halted partition: the response, then the release (R53, R631). -/
theorem partRelease_accepted {s : State} {h : Head} {p : PartId} (hr : reaches s h (objOf (K.partRelease p.val)))
    (hok : s.releasable p = true) :
    ∃ u, exec (.partRelease h p) s = .next u ∧ answered s u h 2 0 (objOf (K.partRelease p.val)) [] ∧ Released s u p := by
  have hpid : pid p.val = p := Fin.ext (pid_val p.isLt)
  have hinst := partRelease_inst p
  obtain ⟨l, hl, heq⟩ := askWrite_accepted hr (partRelease_scalar p) (partRelease_control p) (v := 1)
    (by rw [partRelease_status, State.releasable_taken, if_pos hok])
  rw [(partRelease_control p).applyEff_own _ _ _ (.inl (by simp [hinst])), hinst, Option.elim_some, hpid] at heq
  obtain ⟨out, hout⟩ := State.release_out { s with link := l } p
  exact ⟨State.release { s with link := l } p, by rw [exec_partRelease, heq], answered_of_responds hl hout,
    (State.release_released _ p).of_link⟩

theorem partRelease_refused {s : State} {h : Head} {p : PartId} (hr : reaches s h (objOf (K.partRelease p.val)))
    (hno : s.releasable p = false) :
    answersOnly s (exec (.partRelease h p) s) h 2 0x0C (objOf (K.partRelease p.val)) [] := by
  rw [exec_partRelease]
  exact askWrite_refused hr (partRelease_scalar p) (partRelease_control p)
    (by rw [partRelease_status, State.releasable_taken, if_neg (Bool.eq_false_iff.1 hno)])

/-- STOP_AFTER: the response, then the new value (R53, R645). -/
theorem stopAfter_accepted {s : State} (hs : s.sglWf) {h : Head} {p : PartId} (hr : reaches s h (objOf (K.stopAfter p.val)))
    (n : W64) : ∃ u, exec (.stopAfter h p n) s = .next u ∧ answered s u h 2 0 (objOf (K.stopAfter p.val)) [] ∧
      StopWritten s u p n.toNat := by
  have hpid : pid p.val = p := Fin.ext (pid_val p.isLt)
  have hinst := stopAfter_inst p
  have hvalue : ofLe (leBytes stopAfterRow.ty.size n.toNat) = n.toNat := by
    rw [ofLe_leBytes]
    exact Nat.mod_eq_of_lt n.isLt
  obtain ⟨l, hl, heq⟩ := askWrite_accepted hr (stopAfter_scalar p) (stopAfter_control p) (stopAfter_status _ p n.toNat)
  rw [(stopAfter_control p).applyEff_own _ _ _ (.inr (by simp [hinst])), stopAfter_not_release, hinst, Option.elim_none,
    Option.elim_some, hpid, hvalue] at heq
  have hout := State.applyStopAfter_out { s with link := l } p n.toNat
  exact ⟨State.applyStopAfter { s with link := l } p n.toNat, by rw [exec_stopAfter, heq],
    answered_of_responds hl (out := []) (by rw [hout, List.append_nil]),
    (State.applyStopAfter_written (s := { s with link := l }) hs p n.toNat).of_link⟩

/-- STOP_STATE shows whether a stop is set (R645). -/
theorem stopState_value (n : W64) : (if n.toNat = 0 then 0 else 1) = if n = 0 then 0 else 1 := by
  simp [← BitVec.toNat_inj]

/-- Settles O28: the two writes are followed to their effects, `State.release` and `State.applyStopAfter`; the conditions of
STOP_REACHED are those of R646 (`State.stopsAll_iff`). -/
theorem partitionsStopStaleAndAreReleased : Obligations.PartitionsStopStaleAndAreReleased := by
  refine ⟨fun s h p n hs => ⟨fun hr hon hhalted => ?_, fun hr hno => partRelease_refused hr (not_releasable hno),
    fun hr => ?_, fun hon h1 hgo hstops => ?_, fun hstops => ?_, fun h6 htap hfault => ?_⟩,
    fun s p hs => ⟨fun hon h1 hquiet => ?_, fun hno => ?_⟩⟩
  · obtain ⟨u, hu, hans, hthreads, hpart, hothers, hlog, hframe⟩ :=
      partRelease_accepted hr (releasable_of_halted hon hhalted)
    exact ⟨u, hu, hans, hthreads, hpart, hothers, hlog, hframe⟩
  · obtain ⟨u, hu, hans, hafter, hstate, hobjects, hgoOn, hstay, hframe⟩ := stopAfter_accepted (sglWf_of_sound hs) hr n
    exact ⟨u, hu, hans, hafter, hstate.trans (stopState_value n), hobjects, hgoOn, hstay, hframe⟩
  · obtain ⟨hpart, hothers, hstate, hlog, hobjects, hframe⟩ :=
      State.applyStopReached_stopped (sglWf_of_sound hs) hon h1 hgo ((s.stopsAll_iff p).2 hstops)
    exact ⟨_, exec_stopReached s p, hpart, hothers, hstate, hlog, hobjects, hframe⟩
  · rw [exec_stopReached, State.applyStopReached_waits (fun hall => hstops ((s.stopsAll_iff p).1 hall))]
  · exact ⟨_, exec_partResetComplete s p, applyResetComplete_stop hs h6 htap hfault⟩
  · obtain ⟨hpart, hothers, htick, hcount, hgraph, hlog, hframe⟩ := State.applyStalemate_stalemated hs hon h1 hquiet
    exact ⟨_, exec_stalemate s p, hpart, hothers, htick, hcount, hgraph, hlog, hframe⟩
  · rw [exec_stalemate, State.applyStalemate_waits hno]

end Sys2Proof.Machine
end
